-- ==== Sys2Proof/Word.lean ====
section
/-! DEFINITION. Word.lean: the words of the machine (64-bit registers and addresses, 32-bit values, bytes) and the
sparse map that every large piece of state is kept in. -/

namespace Sys2Proof

/-- A byte (R12: multi-byte fields are little-endian sequences of these). -/
abbrev Byte := BitVec 8
/-- A 16-bit word. -/
abbrev B16 := BitVec 16
/-- A 24-bit word: a queue pair number or packet sequence number. -/
abbrev B24 := BitVec 24
/-- A 32-bit word. -/
abbrev B32 := BitVec 32
/-- A 64-bit word: a management register (R14), a scalar register of a tile, a global address (R29). -/
abbrev B64 := BitVec 64

/-- A sparse map from Nat keys, kept as a list of (key, value) pairs with strictly rising keys and no entry equal to
what an unlisted key reads as. The operations are in Machine/SMap.lean. -/
abbrev SMap (α : Type) := List (Nat × α)

end Sys2Proof
end

