-- ==== Sys2Proof/Syntax.lean ====
section
/-! DEFINITION. Syntax.lean: the commands of the module (one constructor for each row of the opcode table, with the
row's operands), and the words of the tile sequencer's own instruction set (R130 to R137). -/

namespace Sys2Proof

/-- A physical tile number (R13, R22). -/
abbrev TileId := Fin 272
/-- A Hordon link: 0 to 5 for +X, −X, +Y, −Y, +Z, −Z. -/
abbrev LinkId := Fin 6
/-- An Ethernet port. -/
abbrev PortId := Fin 4
/-- A compute die. -/
abbrev DieId := Fin 2
/-- A partition (R252). -/
abbrev PartId := Fin 8
/-- An HBM stack. -/
abbrev StackId := Fin 8
/-- A command ring (R36, R258). -/
abbrev RingId := Fin 262144
/-- A context (R251). -/
abbrev CtxId := Fin 16384
/-- A KV page walker: die × 8 + walker. -/
abbrev WalkerId := Fin 16
/-- A temperature sensor (R444). -/
abbrev SensorId := Fin 64
/-- A collective group number (R383). -/
abbrev GroupId := Fin 4096

/-- The mnemonics of the tile sequencer (R137). -/
inductive TOp where
  | nop | endOp | br | mfsr | lfsrld
  | alu | alui | movi | movhi | cmp | cmpi | plog | fpu | fcmp
  | amov | adda | mova | ld | st
  | valu | valus | vsfu | vred | vcvt | vbcast | vld | vst | vdq | vqnt
  | mmul | qmmul | accrd
  | dma | atom | acq | waitd | signal | waits | waitf | smxu | smxm
  deriving DecidableEq, Repr

/-- The fields of the three forms of R131, beside OP, PG and PN. -/
inductive TArgs where
  | g (d a b c : BitVec 6) (fn : BitVec 8)
  | i (d a : BitVec 6) (fn : BitVec 8) (imm : BitVec 32)
  | m (aact awgt ashd row0 mRows : BitVec 4) (ksteps : BitVec 3) (acc : Bool) (wfmt afmt : BitVec 4) (shdEn : Bool)
  deriving DecidableEq, Repr

/-- A decoded tile instruction: its mnemonic, guard (R130) and fields. -/
structure TileWord where
  op : TOp
  pg : BitVec 3
  pn : Bool
  args : TArgs
  deriving DecidableEq, Repr

/-- What R239 bounds of the Ethernet frames of a message: the size in bytes of its largest frame, and the most IEEE 802.1Q
tags that one of them carries. -/
structure Frame where
  size : Nat
  tags : Nat
  deriving DecidableEq, Repr

/-- What makes the next request of DMA_REQUEST_ISSUE: transfer `x` of a tile, or command `idx` of a ring. -/
inductive DmaSrc where
  | tile (t : TileId) (x : Nat)
  | ring (r : RingId) (idx : B32)
  deriving DecidableEq, Repr

/-- A packet: the header fields of R326 and the payload. `zero` holds the must-be-zero bits of the header as one
number. -/
structure Packet where
  typ : Nat
  vc : Nat
  epoch : Nat
  fence : Bool
  hlc : Nat
  mcast : Bool
  part : Nat
  hops : Nat
  dst : Nat
  src : Nat
  unit : Nat
  tag : Nat
  len : Nat
  status : Nat
  addr : Nat
  group : Nat
  rlen : Nat
  ctrl : Nat
  zero : Nat
  data : List Byte
  deriving DecidableEq, Repr

/-- A group of a link (R297, R300): its control word, the packets that end in it, and the packet bytes that it carries. -/
structure Group where
  null : Bool
  seq : Nat
  ack : Nat
  credA : Nat × Nat
  credB : Nat × Nat
  nak : Bool
  fallow : Bool
  released : Bool
  packets : List Packet
  body : List Byte
  deriving DecidableEq, Repr

/-- A 66-bit block (R290): its sync header, 01 for a data block and 10 for a control block, and its eight bytes. -/
structure LBlock where
  hdr : BitVec 2
  bytes : List Byte
  deriving DecidableEq, Repr

/-- A group as it arrives (R297): the 17 blocks of each of the 24 receive lanes, and how many of its packet bytes belong to
packets. The spec does not say how a receiver tells the bytes behind the last packet (log entry 65). -/
structure RxGroup where
  lanes : List (List LBlock)
  used : Nat
  deriving DecidableEq, Repr

/-- How a retrain ends (R304, R310): well, or with the cause of its failure. -/
inductive RetrainEnd where
  | ok | deskew | laneMap | symbols
  deriving DecidableEq, Repr

/-- What a lane message asks for or reports, as the optical-engine firmware reads it (R292, R304, R320). -/
inductive LaneAsk where
  | nothing | retrain | farRequest | farGranted | farRefused
  deriving DecidableEq, Repr


/-- What reports that the work of a resetting context is removed (R470). -/
inductive Engine where
  | tile (t : TileId)
  | walker (w : WalkerId)
  | channels (d : DieId)
  | collective
  | processor (d : DieId)
  deriving DecidableEq, Repr

/-- What a unit of R532 is, for the bank switch of R538: the power controller, the HBM controllers, an optical engine. -/
inductive FwUnit where
  | power
  | hbm
  | dsp (l : LinkId)
  deriving DecidableEq, Repr

/-- What answers the module's own RDMA WRITE or SEND (R242): an ACK, or a NAK for a sequence error, for want of a receive
buffer, or for an error. -/
inductive AckKind where
  | ack | sequence | notReady | error
  deriving DecidableEq, Repr

/-- A source of a coalescing window (R424). -/
inductive CapOwner where
  | rack | host
  deriving DecidableEq, Repr

/-- The commands: one constructor for each row of the opcode table; those with operands first. -/
inductive Instr where
  /-- TOPO_PROBE_TIMER (R509): The 1 ms probe interval expires: a probe is resent, or PEER_SILENT is set after the third probe. -/
  | topoProbeTimer (l : LinkId)
  /-- NOP (R137): The tile sequencer issues NOP, which costs one issue cycle. -/
  | nop (t : TileId)
  /-- END (R138): The tile sequencer issues END and starts draining all of the tile's outstanding work. -/
  | endOp (t : TileId)
  /-- BR (R139): The tile sequencer issues BR, which sets PC to PC + IMM × 8 or faults with FETCH_FAULT. -/
  | br (t : TileId)
  /-- MFSR (R140): The tile sequencer issues MFSR, which reads a special value into Sd. -/
  | mfsr (t : TileId)
  /-- LFSRLD (R141): The tile sequencer issues LFSRLD, which loads the stochastic-rounding LFSR. -/
  | lfsrld (t : TileId)
  /-- ALU (R142): The tile sequencer issues ALU, a scalar integer operation on two registers. -/
  | alu (t : TileId)
  /-- ALUI (R142): The tile sequencer issues ALUI, a scalar integer operation with an immediate operand. -/
  | alui (t : TileId)
  /-- MOVI (R143): The tile sequencer issues MOVI, which writes a sign-extended immediate to Sd. -/
  | movi (t : TileId)
  /-- MOVHI (R143): The tile sequencer issues MOVHI, which writes the immediate to the upper 32 bits of Sd. -/
  | movhi (t : TileId)
  /-- CMP (R142): The tile sequencer issues CMP, an integer comparison of two registers into a predicate. -/
  | cmp (t : TileId)
  /-- CMPI (R142): The tile sequencer issues CMPI, an integer comparison with an immediate into a predicate. -/
  | cmpi (t : TileId)
  /-- PLOG (R142): The tile sequencer issues PLOG, a logic operation on predicates. -/
  | plog (t : TileId)
  /-- FPU (R142): The tile sequencer issues FPU, a scalar FP32 operation or conversion. -/
  | fpu (t : TileId)
  /-- FCMP (R142): The tile sequencer issues FCMP, an FP32 comparison into a predicate. -/
  | fcmp (t : TileId)
  /-- AMOV (R143): The tile sequencer issues AMOV, which copies Sa to an address register. -/
  | amov (t : TileId)
  /-- ADDA (R143): The tile sequencer issues ADDA, which adds an immediate to an address register. -/
  | adda (t : TileId)
  /-- MOVA (R143): The tile sequencer issues MOVA, which copies an address register to Sd. -/
  | mova (t : TileId)
  /-- LD (R144): The tile sequencer issues LD, a scalar load from the scratchpad. -/
  | ld (t : TileId)
  /-- ST (R144): The tile sequencer issues ST, a scalar store to the scratchpad. -/
  | st (t : TileId)
  /-- VALU (R145): The tile sequencer issues VALU, a lane-wise vector arithmetic operation. -/
  | valu (t : TileId)
  /-- VALUS (R145): The tile sequencer issues VALUS, a vector operation with a scalar broadcast operand. -/
  | valus (t : TileId)
  /-- VSFU (R146): The tile sequencer issues VSFU, a vector special function. -/
  | vsfu (t : TileId)
  /-- VRED (R146): The tile sequencer issues VRED, a vector reduction into a scalar register. -/
  | vred (t : TileId)
  /-- VCVT (R147): The tile sequencer issues VCVT, a vector conversion among FP32, BF16 and FP16. -/
  | vcvt (t : TileId)
  /-- VBCAST (R146): The tile sequencer issues VBCAST, which broadcasts a scalar to every lane. -/
  | vbcast (t : TileId)
  /-- VLD (R148): The tile sequencer issues VLD, which loads one vector register from the scratchpad. -/
  | vld (t : TileId)
  /-- VST (R148): The tile sequencer issues VST, which stores one vector register to the scratchpad. -/
  | vst (t : TileId)
  /-- VDQ (R149): The tile sequencer issues VDQ, which dequantises a narrow format into a vector register. -/
  | vdq (t : TileId)
  /-- VQNT (R150): The tile sequencer issues VQNT, which quantises a vector register to a narrow format. -/
  | vqnt (t : TileId)
  /-- MMUL (R151): The tile sequencer issues MMUL, a matrix multiply, to the matrix engine. -/
  | mmul (t : TileId)
  /-- QMMUL (R151): The tile sequencer issues QMMUL, a quantising matrix multiply, to the matrix engine. -/
  | qmmul (t : TileId)
  /-- ACCRD (R106): The tile sequencer issues ACCRD, an accumulator read-out. -/
  | accrd (t : TileId)
  /-- DMA (R152): The tile sequencer issues DMA, which reads a descriptor and queues one transfer. -/
  | dma (t : TileId)
  /-- ATOM (R156): The tile sequencer issues ATOM, an atomic operation on this module's HBM. -/
  | atom (t : TileId)
  /-- ACQ (R157): The tile sequencer issues ACQ, which invalidates remote-read cache entries of its own die. -/
  | acq (t : TileId)
  /-- WAITD (R159): The tile sequencer issues WAITD, which waits for its DMA groups to drain. -/
  | waitd (t : TileId)
  /-- SIGNAL (R160): The tile sequencer issues SIGNAL, which queues a counter increment behind the masked DMA groups. -/
  | signal (t : TileId)
  /-- WAITS (R161): The tile sequencer issues WAITS, which waits for a kernel signal counter to reach a value. -/
  | waits (t : TileId)
  /-- WAITF (R162): The tile sequencer issues WAITF, which polls a global 8-byte word until it matches. -/
  | waitf (t : TileId)
  /-- SMXU (R154): The tile sequencer issues SMXU, a streaming softmax update. -/
  | smxu (t : TileId)
  /-- SMXM (R155): The tile sequencer issues SMXM, which merges two partial softmax states. -/
  | smxm (t : TileId)
  /-- MATRIX_OP_DONE (R102): A matrix operation completes its steps and its accumulator rows are written. -/
  | matrixOpDone (t : TileId)
  /-- ACCRD_DONE (R106): An accumulator read-out finishes writing its rows to the scratchpad. -/
  | accrdDone (t : TileId)
  /-- VECTOR_OP_DONE (R107): A vector-engine instruction completes and writes its results. -/
  | vectorOpDone (t : TileId)
  /-- DMA_REQUEST_ISSUE (R153): The DMA engine makes the next 512-byte request of a transfer after checking its global address. -/
  | dmaRequestIssue (src : DmaSrc) (parity : Bool)
  /-- RESPONSE_RECEIVED (R332): A read response or write acknowledgement returns to its requesting unit, and a failing status is mapped. -/
  | responseReceived (req : Nat)
  /-- SIGNAL_INCREMENT_APPLIED (R160): A queued SIGNAL increment is applied once its masked DMA groups have completed. -/
  | signalIncrementApplied (t : TileId)
  /-- WAITD_SATISFIED (R159): The DMA groups that a WAITD names drain, and the sequencer resumes issuing. -/
  | waitdSatisfied (t : TileId)
  /-- WAITS_SATISFIED (R161): A signal counter reaches the value a WAITS awaits, and the sequencer resumes issuing. -/
  | waitsSatisfied (t : TileId)
  /-- WAITF_POLL (R162): The WAITF poll interval of at least 256 ns elapses and another FRESH read of the polled word is made. -/
  | waitfPoll (t : TileId)
  /-- ATOM_RETURN (R156): The old value of an ATOM returns and Sd is written. -/
  | atomReturn (t : TileId) (req : Nat)
  /-- END_DRAIN_DONE (R138): A tile's drain after END completes and the tile is released. -/
  | endDrainDone (t : TileId)
  /-- TILE_HALTED (R166): A stopping tile finishes stopping and enters HALTED. -/
  | tileHalted (t : TileId)
  /-- TILE_CLEAR_DONE (R116): A tile clear of scratchpad, accumulators, vector registers and Crema entries completes after 1,024 cycles. -/
  | tileClearDone (t : TileId)
  /-- DRILL_START_ADMIT (R117): A waiting matrix-engine start is admitted once its die's WAVE_SIZE per WAVE_GAP allows it. -/
  | drillStartAdmit (t : TileId)
  /-- DOORBELL_PRODUCER (R261): A doorbell write carries a new PRODUCER value, which is taken, ignored as stale, or faults the context with RING_OVERFLOW. -/
  | doorbellProducer (ring : RingId) (v : B32)
  /-- DOORBELL_CQ_CONSUMED (R261): A doorbell write carries CQ_CONSUMED, which frees completion-ring space and can end CQ_BLOCKED. -/
  | doorbellCqConsumed (ring : RingId) (v : B32)
  /-- CMD_NOP (R263): The ring starts a NOP command. -/
  | cmdNop (ring : RingId)
  /-- CMD_KERNEL (R264): The ring starts a KERNEL command, which is checked and then waits for tiles. -/
  | cmdKernel (ring : RingId)
  /-- KERNEL_START (R113): All the tiles of a waiting kernel are free, so they are allocated and the kernel starts. -/
  | kernelStart (ring : RingId)
  /-- KERNEL_TILE_RESERVE (R113): A kernel has waited 1 ms for tiles and begins reserving eligible tiles as they become idle. -/
  | kernelTileReserve (ring : RingId)
  /-- CMD_DMA (R265): The ring starts a DMA command on a command DMA channel. -/
  | cmdDma (ring : RingId)
  /-- CMD_WRITE_VALUE (R266): The ring starts a WRITE_VALUE command, which writes 8 bytes. -/
  | cmdWriteValue (ring : RingId)
  /-- CMD_WAIT_VALUE (R266): The ring starts a WAIT_VALUE command, which polls a word and holds later commands. -/
  | cmdWaitValue (ring : RingId)
  /-- WAIT_VALUE_POLL (R266): The WAIT_VALUE poll interval elapses and the word is read again. -/
  | waitValuePoll (ring : RingId)
  /-- CMD_ACQUIRE (R266): The ring starts an ACQUIRE command, which invalidates the remote-read caches of both dies. -/
  | cmdAcquire (ring : RingId)
  /-- CMD_TRIM (R229): The ring starts a TRIM command, which marks granules unwritten. -/
  | cmdTrim (ring : RingId)
  /-- CMD_APPEND (R180): The ring starts an APPEND command, which writes token rows into KV pages. -/
  | cmdAppend (ring : RingId)
  /-- CMD_ROTARY_TABLE (R175): The ring starts a ROTARY_TABLE command, which writes rotary cos and sin rows. -/
  | cmdRotaryTable (ring : RingId)
  /-- CMD_SYS_SNAPSHOT (R279): The ring starts a SYS_SNAPSHOT command, which freezes the recorded state and writes the snapshot. -/
  | cmdSysSnapshot (ring : RingId)
  /-- CMD_COLLECTIVE (R387): The ring starts a COLLECTIVE command, which is checked and joins its partition's admission queue. -/
  | cmdCollective (ring : RingId)
  /-- CMD_POWER_CAP (R426): The ring starts a POWER_CAP command, which sets the host cap. -/
  | cmdPowerCap (ring : RingId)
  /-- COMMAND_COMPLETE (R269): A command's effects become visible, and its completion is written in index order. -/
  | commandComplete (ring : RingId)
  /-- COMPLETION_RETRY (R274): A completion that failed to be written is retried every 1 ms. -/
  | completionRetry (ring : RingId)
  /-- RING_TIMEOUT_EXPIRE (R277): A ring's command timeout expires: the ring halts, the work is stopped and the context is faulted. -/
  | ringTimeoutExpire (ring : RingId)
  /-- NOTIFY_RNR_RETRY (R257): A notification refused for want of a receive buffer is retried, or dropped after 7 tries. -/
  | notifyRnrRetry (q : B24)
  /-- BINDING_ACTIVATE (R182): A waiting binding becomes active on its walker as an earlier binding finishes. -/
  | bindingActivate (w : WalkerId)
  /-- WALKER_CREDIT_POLL (R186): A walker rereads CONSUMED or GO of a waiting binding, at intervals of at most 64 ns. -/
  | walkerCreditPoll (ring : RingId) (idx : B32) (b : Fin 1024)
  /-- PAGE_SIFT_SELECT (R191): A sifting walker finishes scoring the summaries, selects pages, and writes the selection list and PLAN. -/
  | pageSiftSelect (ring : RingId) (idx : B32) (b : Fin 1024)
  /-- WALKER_SLOT_DELIVER (R186): The reads for a page complete, the walker writes the slot tag and data, then DELIVERED. -/
  | walkerSlotDeliver (ring : RingId) (idx : B32) (b : Fin 1024)
  /-- RDMA_WRITE_RECEIVED (R244): An RDMA WRITE is received, checked, and made visible in order. -/
  | rdmaWriteReceived (q : B24) (fr : Frame) (psn : B24) (addr : B64) (rkey : B32) (data : List Byte)
  /-- RDMA_READ_RECEIVED (R373): An RDMA READ is received and performed at the home. -/
  | rdmaReadReceived (q : B24) (fr : Frame) (psn : B24) (addr : B64) (rkey : B32) (len : B32)
  /-- RDMA_ATOMIC_CAS (R245): An RDMA compare-and-swap is received and performed at the stack controller. -/
  | rdmaAtomicCas (q : B24) (fr : Frame) (psn : B24) (addr : B64) (rkey : B32) (cmp : B64) (swap : B64)
  /-- RDMA_FETCH_ADD (R245): An RDMA fetch-and-add is received and performed at the stack controller. -/
  | rdmaFetchAdd (q : B24) (fr : Frame) (psn : B24) (addr : B64) (rkey : B32) (add : B64)
  /-- RDMA_SEND_RECEIVED (R242): A received SEND is answered with a NAK for an invalid request. -/
  | rdmaSendReceived (q : B24) (fr : Frame) (psn : B24)
  /-- CONNECT_REQUEST (R243): A connection request arrives on QP1 and is accepted or rejected according to its P_Key. -/
  | connectRequest (q : B24) (p : PortId) (b : Bool) (pkey : B16) (retries : Fin 8) (mtu : Fin 3)
  /-- RDMA_ACK_RECEIVED (R242): An ACK or NAK for the module's own RDMA WRITE or SEND is received. -/
  | rdmaAckReceived (q : B24) (psn : B24) (k : AckKind)
  /-- QP_RETRANSMIT_TIMEOUT (R242): A queue pair's ACK timeout expires, and it resends go-back-N or enters the error state. -/
  | qpRetransmitTimeout (q : B24)
  /-- CE_MARKED_PACKET (R242): A CE-marked packet arrives, and a CNP is sent if none has been sent in the last 50 µs. -/
  | ceMarkedPacket (q : B24)
  /-- CNP_RECEIVED (R242): A CNP arrives, and the queue pair's send rate is halved. -/
  | cnpReceived (q : B24)
  /-- RATE_INCREASE_TIMER (R242): 55 µs pass without a CNP, and the queue pair's rate rises by 5 % of line rate. -/
  | rateIncreaseTimer (q : B24)
  /-- ETH_CABLE_INSERTED (R241): A cable is inserted, and Felmos starts CMIS management of its retimers. -/
  | ethCableInserted (p : PortId) (managed : Bool) (code : Byte)
  /-- CMIS_ACTIVATION_TIMEOUT (R241): A cable faults or fails to reach the activated data-path state within 5 s, and its port is held down. -/
  | cmisActivationTimeout (p : PortId) (code : Byte)
  /-- ETH_LINK_UP (R240): An Ethernet port, or half of a split port, completes training and comes up. -/
  | ethLinkUp (p : PortId) (b : Bool)
  /-- ETH_LINK_DOWN (R247): An Ethernet port or half goes down, and its queue pairs enter the error state after their retries. -/
  | ethLinkDown (p : PortId) (b : Bool)
  /-- ETH_SPLIT_WRITE (R240): A write that changes ETH_CFG.SPLIT takes the port's links down and retrains them in the new mode. -/
  | ethSplitWrite (p : PortId) (v : B64)
  /-- PTP_ANNOUNCE_RECEIVED (R249): A PTP Announce message is received, which keeps the lock. -/
  | ptpAnnounceReceived (tr : Fin 3) (dom : Byte) (iv : Nat)
  /-- PTP_SYNC_RECEIVED (R249): A PTP Sync message is received and timestamped at the PCS. -/
  | ptpSyncReceived (tr : Fin 3) (dom : Byte) (origin : Option Nat)
  /-- PTP_FOLLOW_UP_RECEIVED (R249): A PTP Follow_Up message is received, giving a two-step origin time. -/
  | ptpFollowUpReceived (tr : Fin 3) (dom : Byte) (origin : Nat)
  /-- PTP_DELAY_RESP_RECEIVED (R250): A Delay_Resp message completes an offset measurement, and the time base is corrected. -/
  | ptpDelayRespReceived (tr : Fin 3) (dom : Byte) (t4 : Nat)
  /-- PART_ENABLE (R254): A write enables a partition, which succeeds unless its tile set or PKEY conflicts. -/
  | partEnable (p : PartId) (pkey : B16) (rkey : B32)
  /-- PART_DISABLE (R356): A write disables a partition: its cache entries are invalidated and its tiles return to partition 0. -/
  | partDisable (p : PartId) (pkey : B16) (rkey : B32)
  /-- CTX_ENABLE (R283): A write of CTX_CFG.ENABLE = 1 takes a context from FREE to ACTIVE. -/
  | ctxEnable (c : CtxId) (part : PartId)
  /-- CTX_DISABLE (R283): A write of CTX_CFG.ENABLE = 0 frees a context that has no enabled ring. -/
  | ctxDisable (c : CtxId) (part : PartId)
  /-- RING_ENABLE (R259): A write of CMD_RING_CFG0.ENABLE = 1 enables a ring if its checks pass. -/
  | ringEnable (ring : RingId) (v : B64)
  /-- RING_DISABLE (R259): A write of CMD_RING_CFG0.ENABLE = 0 disables an IDLE or HALTED ring. -/
  | ringDisable (ring : RingId) (v : B64)
  /-- REGISTER_WRITE (R15): A write to a management register that has no row of its own updates its fields. -/
  | registerWrite (off : BitVec 21) (v : B64)
  /-- MEM_RRC_BYPASS (R381): A write of 1 to MEM_RRC_CTL.BYPASS invalidates the die's cache and makes its reads FRESH. -/
  | memRrcBypass (die : DieId)
  /-- MEM_RRC_INVALIDATE (R381): A write of 1 to MEM_RRC_CTL.INVALIDATE acts as a scope-0 acquire on the die. -/
  | memRrcInvalidate (die : DieId)
  /-- GLEANER_BLOCK_VISIT (R218): The Gleaner's pace timer brings it to the next block, which it reads, checks and repairs if needed. -/
  | gleanerBlockVisit (stack : StackId) (sym : Nat) (hard : Nat)
  /-- HBM_ACCESS (R213): A stack controller performs one access to a code block: read, write, read-modify-write, atomic or zero-fill. -/
  | hbmAccess (req : Nat) (sym : Nat)
  /-- RRC_FILL_RETURN (R357): A remote-read cache fill returns, delivers its data to waiting requesters and installs the entry if it still can. -/
  | rrcFillReturn (die : DieId) (req : Nat)
  /-- LINK_ENABLE (R321): A write of LNK_CFG.ENABLE = 1 starts training the link from POWER_UP. -/
  | linkEnable (l : LinkId)
  /-- LINK_DISABLE (R307): A write of LNK_CFG.ENABLE = 0 puts the link in DISABLED and discards its replay buffers. -/
  | linkDisable (l : LinkId)
  /-- LINK_POWER_UP_DONE (R307): A link's lasers and DSP are up, and the link enters CLOCK_DETECT. -/
  | linkPowerUpDone (l : LinkId)
  /-- PARTNER_CLOCK_DETECTED (R307): A partner clock arrives in CLOCK_DETECT, and the link moves to EQ_COARSE or RESTORE. -/
  | partnerClockDetected (l : LinkId) (lanes : Fin 4)
  /-- PARTNER_RATE_ALTERNATE (R317): With PARTNER = AUTO, 100 ms pass without a clock, and the link tries the other lane rate. -/
  | partnerRateAlternate (l : LinkId)
  /-- NO_PARTNER_TIMER (R310): After 1 s in CLOCK_DETECT, LNK_STATE.NO_PARTNER is set. -/
  | noPartnerTimer (l : LinkId)
  /-- EQ_COARSE_DONE (R307): Blind receiver adaptation completes, and the link enters BLOCK_LOCK. -/
  | eqCoarseDone (l : LinkId)
  /-- SETTINGS_RESTORED (R311): On the fast path the saved settings are loaded, and the link enters BLOCK_LOCK. -/
  | settingsRestored (l : LinkId)
  /-- BLOCK_LOCK_DONE (R296): Block lock, comma alignment, deskew and lane map are gained, or training fails with LANE_MAP or DESKEW. -/
  | blockLockDone (l : LinkId) (lanes : List Nat) (skew : Nat) (hdrs : List (List (BitVec 2)))
  /-- EQ_FINE_DONE (R309): Transmit equalisation and the symbol-error measurement end, with success or with SYMBOL_ERRORS. -/
  | eqFineDone (l : LinkId) (errs : List Nat)
  /-- IDENTIFY_DONE (R308): Identity is exchanged, and the link goes to HELD or ACTIVE or fails training. -/
  | identifyDone (l : LinkId) (chip : Fin 32768) (valid : Bool) (link : Fin 8) (lx7 : Bool) (serial : B64)
  /-- LINK_STATE_TIMEOUT (R310): A training state exceeds its bound: the attempt ends, and after three failures the link enters FAILED. -/
  | linkStateTimeout (l : LinkId)
  /-- LANE_MSG_RECEIVED (R292): A LANE_MSG control block carrying a training message arrives on a lane. -/
  | laneMsgReceived (l : LinkId) (lane : Fin 24) (block : B64) (asks : LaneAsk)
  /-- PERIOD_START (R294): A new period starts, and the transmitter sends COMMA and lane messages in rows 0 to 12. -/
  | periodStart (l : LinkId)
  /-- GROUP_SLOT (R301): A group boundary arrives, and the transmitter sends a DATA or NULL group with its control word. -/
  | groupSlot (l : LinkId)
  /-- GROUP_RECEIVED (R302): A group is decoded and checked, then delivered, discarded or NAKed, and its ACK, NAK and credits are acted on. -/
  | groupReceived (l : LinkId) (rx : RxGroup)
  /-- RETRAIN_DONE (R304): A retrain ends: the link resumes and resends from each ACK, or falls to full training or FAILED. -/
  | retrainDone (l : LinkId) (fin : RetrainEnd)
  /-- BLOCK_LOCK_LOST (R293): A receive lane sees 16 invalid sync headers in 64, loses lock and starts a retrain. -/
  | blockLockLost (l : LinkId) (lane : Fin 24) (hdrs : List (BitVec 2))
  /-- ALIGNMENT_LOST (R295): Commas are missing at two consecutive period starts, and a retrain starts. -/
  | alignmentLost (l : LinkId)
  /-- LINK_CLOCK_LANE_LOST (R289): A forwarded clock lane fails, and the receiver continues on the other lane. -/
  | linkClockLaneLost (l : LinkId) (lane : Fin 2)
  /-- FALLOW_ENTER (R313): A direction has been idle for IDLE_NS, so it sends a group with FALLOW set and SLEEP, then darkens its data lanes. -/
  | fallowEnter (l : LinkId)
  /-- SLEEP_RECEIVED (R313): A SLEEP row arrives, and the receive direction freezes adaptation and enters Fallow. -/
  | sleepReceived (l : LinkId)
  /-- FALLOW_WAKE (R314): A wake reason arises in Fallow, and the direction biases its lanes and sends WAKE rows. -/
  | fallowWake (l : LinkId)
  /-- FALLOW_SLEEP_LIMIT (R314): A direction has slept for 100 ms and wakes. -/
  | fallowSleepLimit (l : LinkId)
  /-- FALLOW_AWAKE_HOLD_END (R314): The 10 µs awake hold after a 100 ms sleep ends. -/
  | fallowAwakeHoldEnd (l : LinkId)
  /-- WAKE_RECEIVED (R315): WAKE rows arrive, and the receiver regains block lock with its frozen settings. -/
  | wakeReceived (l : LinkId)
  /-- WAKE_LOCK_TIMEOUT (R315): Lock is not regained within 1 µs of the first WAKE row, so a wake failure is counted and a retrain starts. -/
  | wakeLockTimeout (l : LinkId)
  /-- LEGACY_IDLE_REQUEST (R316): On an LX7 link, an idle end sends LEGACY_IDLE with request. -/
  | legacyIdleRequest (l : LinkId)
  /-- LEGACY_IDLE_RECEIVED (R316): A LEGACY_IDLE request or grant arrives, and the link may enter LEGACY_IDLE. -/
  | legacyIdleReceived (l : LinkId) (grant : Bool)
  /-- LEGACY_IDLE_LAPSE (R316): A legacy-idle request is not granted within 10 µs, and it lapses. -/
  | legacyIdleLapse (l : LinkId)
  /-- TRAINING_BURST (R316): An end leaves LEGACY_IDLE with a 2 µs training burst. -/
  | trainingBurst (l : LinkId)
  /-- LNK_TEST_CTL_WRITE (R318): A write of LNK_TEST_CTL starts or ends a link test loop. -/
  | lnkTestCtlWrite (l : LinkId) (v : B64)
  /-- FAR_LOOP_REQUEST (R320): A partner requests a far loop, which is entered if ALLOW_FAR is 1 and refused otherwise. -/
  | farLoopRequest (l : LinkId)
  /-- TEST_CHECKER_SYNC (R319): A pattern checker synchronises and begins counting errors. -/
  | testCheckerSync (l : LinkId) (lane : Fin 24) (errs : Nat)
  /-- LNK_RETRAIN (R321): A write of 1 to LNK_CTL.RETRAIN starts a retrain of an ACTIVE link. -/
  | lnkRetrain (l : LinkId)
  /-- LNK_SAVE (R311): A write of 1 to LNK_CTL.SAVE saves the link settings record. -/
  | lnkSave (l : LinkId)
  /-- LNK_WAKE (R314): A write of 1 to LNK_CTL.WAKE wakes the transmit direction. -/
  | lnkWake (l : LinkId)
  /-- LNK_RETRY (R321): A write of 1 to LNK_CTL.RETRY starts a full training from FAILED. -/
  | lnkRetry (l : LinkId)
  /-- LNK_FORGET (R311): A write of 1 to LNK_CTL.FORGET marks the saved settings record invalid. -/
  | lnkForget (l : LinkId)
  /-- PACKET_ARRIVAL (R333): A packet header reaches the router from a link or a local unit, and it is routed, delivered locally or dropped. -/
  | packetArrival (port : Fin 9)
  /-- HEADLAND_MOVE (R334): A packet blocked for HL_WAIT_NS moves into the Headland channel. -/
  | headlandMove (l : LinkId)
  /-- LINK_DOWN_HOLD_EXPIRE (R346): A next link has not been ACTIVE for DOWN_HOLD_MS, and the packets waiting for it are dropped. -/
  | linkDownHoldExpire (l : LinkId)
  /-- FAB_RT_DATA_WRITE (R343): A write of FAB_RT_DATA updates route entries of the inactive version, or is rejected for the current one. -/
  | fabRtDataWrite (v : B64)
  /-- FAB_EPOCH_SWITCH (R342): A write of FAB_EPOCH.CURRENT changes the route version that new packets take. -/
  | fabEpochSwitch (v : Bool)
  /-- COL_QUOTA_WRITE (R400): A write of COL_QUOTA sets the partitions' grist quotas, unless they add to more than 96 MiB. -/
  | colQuotaWrite (v : B64)
  /-- COL_SLOTS_WRITE (R400): A write of COL_SLOTS sets the partitions' slot limits, unless they add to more than 4,096. -/
  | colSlotsWrite (hi : Bool) (v : B64)
  /-- RESIDUE_CHECK_RESULT (R407): An adder lane's residue check resolves, and a failure triggers detection and revocation. -/
  | residueCheckResult (g : GroupId) (seq : B64) (lane : Fin 1024) (failed : Bool)
  /-- SETTLE_WINDOW_EXPIRE (R411): The settle window after RESULT passes with no revocation, and SETTLED is posted. -/
  | settleWindowExpire (g : GroupId) (seq : B64)
  /-- POWER_ESTIMATE_TICK (R420): Every 4 µs the controller computes P_est from the activity counters. -/
  | powerEstimateTick (dyn : Nat) (stat : Nat)
  /-- LIMITER_EVAL (R428): Every 4 µs the limiter sets each die's issue duty and frequency target against L. -/
  | limiterEval (freq : Nat) (duty : Nat)
  /-- FREQ_STEP (R430): A die's frequency moves one 25 MHz step per 1 µs toward its target. -/
  | freqStep (die : DieId)
  /-- VOLTAGE_SETTLED (R430): The regulator reports its voltage settled, and a pending frequency increase commits. -/
  | voltageSettled (die : DieId)
  /-- PARTITION_ALLOCATE (R431): Every 1 ms the tile budget is allocated among partitions, scaling guarantees if it must. -/
  | partitionAllocate (demands : List Nat) (other : Nat) (use : List Nat)
  /-- PWR_CAP_HOST_WRITE (R423): A write of PWR_CAP_HOST sets, raises or removes the host cap, subject to coalescing. -/
  | pwrCapHostWrite (v : B64)
  /-- CAP_WINDOW_EXPIRE (R424): A source's 250 µs coalescing window ends, and the lowest held value is applied. -/
  | capWindowExpire (o : CapOwner)
  /-- HOST_OFF_WRITE (R454): A write of PWR_RAILS.HOST_OFF turns the compute rails off, or lets them come on. -/
  | hostOffWrite (v : Bool)
  /-- THERMAL_TRIP (R436): A die sensor stays at or above 105 °C for 20 µs: the clocks stop, the rails go off and TRIPPED is set. -/
  | thermalTrip (n : SensorId)
  /-- THERMAL_MODEL_TICK (R445): Every 1 ms the thermal model predicts each sensor and checks it against its reading. -/
  | thermalModelTick (readings : List (BitVec 12)) (models : List (BitVec 12))
  /-- THERMAL_LOOP_STEP_DOWN (R448): Every 100 µs while a sensor is at or above its threshold, the die frequency falls by 25 MHz. -/
  | thermalLoopStepDown (die : DieId)
  /-- THERMAL_LOOP_STEP_UP (R448): Every 1 ms while the sensors are 2 °C below threshold, the die frequency rises by 25 MHz. -/
  | thermalLoopStepUp (die : DieId)
  /-- DROOP_STRETCH (R438): A droop detector sees its supply fall, and the die's clock period is stretched. -/
  | droopStretch (die : DieId)
  /-- DROOP_WAIT_EXPIRE (R439): A pending frequency move starts after 1 µs free of droop, or after 50 µs. -/
  | droopWaitExpire (die : DieId)
  /-- FW_CAP_UPDATE (R449): Felmos recomputes the firmware cap from the thermal model. -/
  | fwCapUpdate (w : B16)
  /-- LEAK_LOOP_STATE_CHANGE (R452): The debounced leak-loop resistance moves to NORMAL, LEAK, OPEN or SHORT. -/
  | leakLoopStateChange (ohms : Nat)
  /-- CTX_RESET_REQUEST (R469): A write of CTX_RST_CTL.GO requests a reset of the selected context. -/
  | ctxResetRequest (c : CtxId)
  /-- AUTO_RESET_TIMER (R469): AUTO_MS passes after a context enters FAULTED, and the module requests its reset. -/
  | autoResetTimer (c : CtxId)
  /-- ENGINE_WORK_REMOVED (R470): An engine reports that the resetting context's work has been removed. -/
  | engineWorkRemoved (c : CtxId) (e : Engine)
  /-- PARTITION_RESET_REQUEST (R473): A write of RST_PART_CTL.GO requests a reset of a partition. -/
  | partitionResetRequest (p : PartId)
  /-- LADDER_STEP_TIMEOUT (R474): A ladder step exceeds its timeout, and the ladder escalates or stops. -/
  | ladderStepTimeout (job : Option Nat)
  /-- LOG_SEL_WRITE (R482): A write of LOG_SEL copies the selected event-log record into LOG_REC. -/
  | logSelWrite (v : B64)
  /-- FP_DEFECT_ADD (R513): A write of FP_DEFECT_CTL.ADD adds a tile to the defect record. -/
  | fpDefectAdd (t : Fin 512)
  /-- FP_DEFECT_REMOVE (R513): A write of FP_DEFECT_CTL.REMOVE removes a tile's entry from the defect record. -/
  | fpDefectRemove (t : Fin 512)
  /-- FELMOS_HEARTBEAT (R516): Every 1 ms the active core sends its heartbeat on the mailbox and wire paths. -/
  | felmosHeartbeat (box : Bool) (wire : Bool)
  /-- WATCHDOG_PATH_MISS (R516): A heartbeat path makes no change for 3 periods: one miss is logged, both start a switchover. -/
  | watchdogPathMiss (box : Bool) (wire : Bool)
  /-- STANDBY_TAKEOVER_DONE (R516): The new core loads the newest checkpoint, becomes ACTIVE, replays the outbox and answers held requests. -/
  | standbyTakeoverDone (crc0 : Bool) (crc1 : Bool)
  /-- CORE_SELFTEST_DONE (R518): A reset core finishes its self-test and enters STANDBY, or FAILED after two failures. -/
  | coreSelftestDone (core : Fin 2) (ok : Bool)
  /-- I3C_ADDRESS_ASSIGN (R520): The tray controller assigns the I3C dynamic address by SETDASA or ENTDAA. -/
  | i3cAddressAssign (addr : BitVec 7)
  /-- MCTP_SET_ENDPOINT_ID (R520): The tray controller assigns the module's MCTP endpoint ID. -/
  | mctpSetEndpointId (rq : Nat) (eid : Byte)
  /-- PLDM_GET_TID (R520): A PLDM GetTID request is answered. -/
  | pldmGetTid (rq : Nat)
  /-- PLDM_SET_TID (R520): A PLDM SetTID request sets the terminus ID. -/
  | pldmSetTid (rq : Nat) (tid : Byte)
  /-- PLDM_GET_PLDM_TYPES (R520): A PLDM GetPLDMTypes request is answered. -/
  | pldmGetPldmTypes (rq : Nat)
  /-- PLDM_GET_PLDM_VERSION (R520): A PLDM GetPLDMVersion request is answered. -/
  | pldmGetPldmVersion (rq : Nat) (typ : Byte)
  /-- PLDM_GET_PLDM_COMMANDS (R520): A PLDM GetPLDMCommands request is answered. -/
  | pldmGetPldmCommands (rq : Nat) (typ : Byte)
  /-- PLDM_GET_PDR (R520): A PLDM GetPDR request returns a platform descriptor record. -/
  | pldmGetPdr (rq : Nat) (handle : Nat)
  /-- PLDM_GET_SENSOR_READING (R521): A PLDM GetSensorReading request returns a numeric sensor value. -/
  | pldmGetSensorReading (rq : Nat) (id : Nat)
  /-- PLDM_GET_STATE_SENSOR_READINGS (R521): A PLDM GetStateSensorReadings request returns a state sensor. -/
  | pldmGetStateSensorReadings (rq : Nat) (id : Nat)
  /-- PLDM_GET_NUMERIC_EFFECTER_VALUE (R521): A PLDM GetNumericEffecterValue request returns an effecter value. -/
  | pldmGetNumericEffecterValue (rq : Nat) (id : Nat)
  /-- PLDM_SET_EVENT_RECEIVER (R520): A PLDM SetEventReceiver request names the receiver of event messages. -/
  | pldmSetEventReceiver (rq : Nat) (eid : Option Byte)
  /-- PLDM_GET_FRU_RECORD_TABLE (R520): A PLDM GetFRURecordTable request returns the serial, variant and versions. -/
  | pldmGetFruRecordTable (rq : Nat)
  /-- SET_RACK_CAP (R521): A write of effecter 0x0300 sets or refreshes the rack cap. -/
  | setRackCap (rq : Nat) (w : B16)
  /-- SET_ORPHAN_CAP (R521): A write of effecter 0x0301 sets ORPHAN_W, or is refused if out of range. -/
  | setOrphanCap (rq : Nat) (w : B16)
  /-- SET_RACK_OFF (R454): A write of effecter 0x0310 sets or clears PWR_RAILS.RACK_OFF. -/
  | setRackOff (rq : Nat) (v : Byte)
  /-- SET_LOCATE_LED (R521): A write of effecter 0x0311 sets the locate LED. -/
  | setLocateLed (rq : Nat) (v : Byte)
  /-- SIDEBAND_EJECT_REQUEST (R544): A write of effecter 0x0312 with request starts an eject. -/
  | sidebandEjectRequest (rq : Nat)
  /-- SIDEBAND_EJECT_CANCEL (R554): A write of effecter 0x0312 with cancel cancels an eject. -/
  | sidebandEjectCancel (rq : Nat)
  /-- PLATFORM_EVENT_ACK (R524): The tray controller's PlatformEventMessage response acknowledges a message and frees its outbox entry. -/
  | platformEventAck (boot : B32) (fseq : B32)
  /-- SVC_IDENTIFY (R529): A service-port IDENTIFY request returns the identity and the versions. -/
  | svcIdentify (req : B32) (crc : Bool)
  /-- SVC_STAGE_OPEN (R529): A service-port STAGE_OPEN request opens a slot for staging and starts its erase. -/
  | svcStageOpen (req : B32) (crc : Bool) (slot : Byte)
  /-- SVC_STAGE_WRITE (R529): A service-port STAGE_WRITE request writes its payload into the opened slot. -/
  | svcStageWrite (req : B32) (crc : Bool) (off : B32) (data : List Byte)
  /-- SVC_STAGE_READ (R529): A service-port STAGE_READ request returns bytes from a slot. -/
  | svcStageRead (req : B32) (crc : Bool) (slot : Byte) (off : B32) (len : B16)
  /-- SVC_ACTIVATE (R529): A service-port ACTIVATE request requests activation, cold if FLAGS[0] is set. -/
  | svcActivate (req : B32) (crc : Bool) (cold : Bool)
  /-- SVC_STATUS (R529): A service-port STATUS request returns the firmware, core and staging status. -/
  | svcStatus (req : B32) (crc : Bool)
  /-- SVC_LOG_READ (R529): A service-port LOG_READ request returns one event-log record. -/
  | svcLogRead (req : B32) (crc : Bool) (off : B32)
  /-- SVC_CONFIG_WRITE (R530): A service-port CONFIG_WRITE request writes both copies of the configuration block. -/
  | svcConfigWrite (req : B32) (crc : Bool) (data : List Byte)
  /-- SVC_LICENCE_WRITE (R530): A service-port LICENCE_WRITE request writes a part of the licence to both copies. -/
  | svcLicenceWrite (req : B32) (crc : Bool) (off : B32) (data : List Byte)
  /-- SVC_REPAIR_ADD (R529): A service-port REPAIR_ADD request appends an entry to the HBM repair record. -/
  | svcRepairAdd (req : B32) (crc : Bool) (data : List Byte)
  /-- SHADOW_LOAD_DONE (R537): Every unit's new image is loaded into its inactive bank, or the activation fails with LOAD. -/
  | shadowLoadDone (ok : Bool)
  /-- UNIT_BANK_SWITCH (R538): A non-tile unit switches to its new image at its next evaluation, refresh or period boundary. -/
  | unitBankSwitch (u : FwUnit)
  /-- TILE_BANK_SWITCH (R538): A tile switches to its new microcode when it is next IDLE. -/
  | tileBankSwitch (t : TileId)
  /-- EJECT_DRAIN_END (R544): No command runs any more, or DRAIN_S expires and the contexts are reset, and the module enters QUIESCING. -/
  | ejectDrainEnd (expired : Bool)
  /-- EJECT_QUIESCE_END (R544): Every link is dark, or DRAIN_S expires, and the module enters eject READY. -/
  | ejectQuiesceEnd (expired : Bool)
  /-- TRAINING_BURST_RECEIVED (R316): On an LX7 link in LEGACY_IDLE, the partner's 2 µs training burst arrives, and this end leaves LEGACY_IDLE and regains lock and alignment. -/
  | trainingBurstReceived (l : LinkId)
  /-- CONFIG_MEMORY_OP_DONE (R558): A configuration-memory operation (record, settings, boot-header or staging write, or read) ends, succeeding or logging CONFIG_MEMORY_FAULT, and the next waiting operation starts in priority order. -/
  | configMemoryOpDone (ok : Bool)
  /-- ICACHE_FILL_DONE (R129): An instruction-cache fill of a 512-byte block returns, or fails with FETCH_FAULT. -/
  | icacheFillDone (t : TileId) (parity : Bool)
  /-- DRILL_OFFSET_EXPIRE (R119): A start's chip-dependent offset delay ends, and the start joins admission. -/
  | drillOffsetExpire (t : TileId)
  /-- DRILL_RAMP_STEP (R118): An admitted start reaches cycle 128 or 256 of its ramp, and the engine moves to half or full array. -/
  | drillRampStep (t : TileId)
  /-- CREMA_COMPARE_DONE (R70): The Crema lane finishes computing a sample's error, counts any excursion and opens a burst. -/
  | cremaCompareDone (t : TileId)
  /-- CREMA_ESCALATION_DONE (R73): The FP8 recomputation of an escalated block replaces its accumulator rows. -/
  | cremaEscalationDone (t : TileId)
  /-- TILE_PREC_CLEAR (R84): A write of 1 to TILE_PREC_CLEAR zeroes the tile's precision counters. -/
  | tilePrecClear (t : TileId)
  /-- TILE_CTR_CLEAR (R124): A write of 1 to TILE_CTR_CLEAR zeroes the tile's activity counters. -/
  | tileCtrClear (t : TileId)
  /-- TILE_SP_CLEAR (R235): A write of 1 to TILE_SP_CLEAR zeroes the tile's scratchpad error registers. -/
  | tileSpClear (t : TileId)
  /-- KVW_CTR_CLEAR (R198): A write of 1 to KVW_CTR_CLEAR zeroes a walker's counters. -/
  | kvwCtrClear (w : WalkerId)
  /-- MEM_STK_CLEAR (R238): A write of 1 to MEM_STK_CLEAR zeroes a stack's error counters. -/
  | memStkClear (stack : StackId)
  /-- MEM_RRC_CLEAR (R381): A write of 1 to MEM_RRC_CLEAR zeroes the die's cache counters. -/
  | memRrcClear (die : DieId)
  /-- SP_CORRECTED_WRITEBACK (R232): A bank writes back a corrected scratchpad word in its next idle cycle. -/
  | spCorrectedWriteback (t : TileId) (word : Fin 49152) (flips : Nat)
  /-- NAK_REPEAT_TIMER (R302): 2 µs pass without the expected group, and the receiver sends its NAK again. -/
  | nakRepeatTimer (l : LinkId)
  /-- REPLAY_TIMEOUT (R303): A kept group has had no ACK within 10 µs, and it and the later groups are resent. -/
  | replayTimeout (l : LinkId)
  /-- LNK_CTR_CLEAR (R321): A write of 1 to LNK_CTR_CLEAR zeroes the link counters. -/
  | lnkCtrClear (l : LinkId)
  /-- LINK_DEGRADED_CHECK (R322): Over each 1 s, a lane's corrected-byte ratio is checked, and LINK_DEGRADED is logged if it is exceeded. -/
  | linkDegradedCheck (l : LinkId) (lane : Fin 24) (corrected : Nat) (bytes : Nat)
  /-- COLL_ADMIT (R403): The collective at the head of the queue fits the free quota, is admitted, reads its input and sends its readiness. -/
  | collAdmit (p : PartId)
  /-- ESTIMATE_GAIN_CORRECT (R421): Every 1 ms the estimate is compared with measured input energy and the gain g is adjusted. -/
  | estimateGainCorrect (w : B16) (v : B16) (a : B16)
  /-- INLET_TEMP_CHANGE (R450): The coolant inlet crosses 40 °C, 45 °C, their release points, or 15 °C, and the coolant limit changes. -/
  | inletTempChange (t : BitVec 12)
  /-- EXCESS_RISE_SAMPLE (R451): Every 10 ms the excess outlet rise is computed, and the rise limit is set or cleared. -/
  | excessRiseSample (rate : B16)
  /-- POWER_ON (R493): The 48 V input is applied and bring-up starts at step 1, then steps 2 to 10 run in order. -/
  | powerOn
  /-- RAILS_WAIT_END (R494): Bring-up, waiting in RAILS_WAIT for coolant, rail permission and junction temperature, resumes at step 2 or step 5. -/
  | railsWaitEnd
  /-- LINK_TRAINING_STEP_END (R499): Step 8 ends when every enabled link is HELD or FAILED, or when its 1 s bound expires. -/
  | linkTrainingStepEnd
  /-- DISCOVERY_WAIT_EXPIRE (R506): DISCOVERY_WAIT_MS passes with no link result, and the module holds with cause NO_PARTNER. -/
  | discoveryWaitExpire
  /-- TOPO_PROBE_RECEIVED (R509): A neighbour's TOPO_PROBE control packet arrives, and Felmos answers with TOPO_REPLY. -/
  | topoProbeReceived
  /-- TOPO_REPLY_RECEIVED (R509): A TOPO_REPLY arrives, its torus sizes are compared with FAB_TOPO, and PEER_DIFFERS is set if they differ. -/
  | topoReplyReceived
  /-- PRECHARGE_SETTLED (R567): The precharge current has stayed below 20 mA for 50 ms, so the hot-swap switch turns on and charges the bulk capacitance. -/
  | prechargeSettled
  /-- RESET_N_ASSERT (R462): RESET_N is asserted for at least 1 µs, which starts a module reset. -/
  | resetNAssert
  /-- RESET_N_RELEASE (R462): RESET_N is released, and bring-up restarts at step 2 on the cold path. -/
  | resetNRelease
  /-- SYS_RESET_MODULE (R462): Partition 0 writes SYS_RESET_CTL.MODULE, which starts a module reset unless RACK_OFF is 1. -/
  | sysResetModule
  /-- SYS_RESET_WARM (R462): Partition 0 writes SYS_RESET_CTL.WARM, which starts a warm reset on the fast path unless RACK_OFF is 1. -/
  | sysResetWarm
  /-- SYS_RESET_POWER_CYCLE (R476): Partition 0 requests a power cycle: ALERT_N is asserted, HEARTBEAT_OUT is driven low and the request is logged. -/
  | sysResetPowerCycle
  /-- POWER_CYCLE_REPORT_TIMER (R476): Every 30 s while a power cycle is requested, Felmos reports the request on the side-band again. -/
  | powerCycleReportTimer
  /-- SNAPSHOT_FREEZE_END (R280): A snapshot freeze ends, and the state changes that were held then take effect. -/
  | snapshotFreezeEnd
  /-- SYS_SNAP_GO (R279): A write of 1 to SYS_SNAP_CTL.GO requests a snapshot to SYS_SNAP_DEST. -/
  | sysSnapGo
  /-- PTP_LOCK_LOST (R249): Three Announce intervals pass with no valid Announce, and lock is lost. -/
  | ptpLockLost
  /-- MEM_GLN_PAGE_CLEAR (R237): A write of 1 to MEM_GLN_PAGE_CLEAR zeroes every Gleaner page count. -/
  | memGlnPageClear
  /-- FENCED_PACKET_RELEASE (R336): Every earlier request to a chip has had its response, and the held fenced packet is sent. -/
  | fencedPacketRelease
  /-- FAB_CTR_CLEAR (R349): A write of 1 to FAB_CTR_CLEAR zeroes the fabric counters. -/
  | fabCtrClear
  /-- COL_GROUP_DEFINE (R384): A write of COL_GROUP_CTL.DEFINE reads a group record and defines the group. -/
  | colGroupDefine
  /-- COL_GROUP_UNDEFINE (R384): A write of COL_GROUP_CTL.UNDEFINE removes a group definition. -/
  | colGroupUndefine
  /-- GROUP_DEFINE_DONE (R384): A group definition finishes within 100 µs, showing DEFINED or DEF_FAILED. -/
  | groupDefineDone
  /-- COL_CTR_CLEAR (R419): A write of 1 to COL_CTR_CLEAR zeroes the collective counters. -/
  | colCtrClear
  /-- COLL_RS_SEGMENT (R392): A reduce-scatter segment (phase 0) arrives, is reduced and is forwarded. -/
  | collRsSegment
  /-- COLL_AG_SEGMENT (R392): An all-gather segment (phase 1) arrives, is written and is forwarded. -/
  | collAgSegment
  /-- COLL_ROW_COUNT (R396): A source's row count (phase 2) arrives, and the destination grants it rows. -/
  | collRowCount
  /-- COLL_GRANT (R396): A destination's grant (phase 3) arrives, and the source sends its granted rows. -/
  | collGrant
  /-- COLL_ROW_DATA (R396): Row data (phase 4) arrives and is written at DST. -/
  | collRowData
  /-- COLL_READY_GRANT (R403): A readiness and space grant (phase 5) arrives, and its hash and fingerprint are compared. -/
  | collReadyGrant
  /-- MC_WRITE_RECEIVED (R398): A broadcast MC_WRITE packet arrives and is written at DST. -/
  | mcWriteReceived
  /-- REVOKE_TO_ROOT_RECEIVED (R413): Member 0 receives REVOKE_TO_ROOT and multicasts REVOKE once. -/
  | revokeToRootReceived
  /-- REVOKE_RECEIVED (R413): A REVOKE arrives, and the member posts REVOKED or counts a late revoke. -/
  | revokeReceived
  /-- PWR_CTR_CLEAR (R443): A write of 1 to PWR_CTR_CLEAR zeroes the throttle duration counters. -/
  | pwrCtrClear
  /-- THROTTLE_SAMPLE_TICK (R443): Every 100 samples of 10 ns, each throttle-reason counter advances if its reason was active. -/
  | throttleSampleTick
  /-- BRAKE_ASSERT (R434): PWR_BRAKE_N is asserted, and the Tamp imposes 50 % clock duty within 5 µs. -/
  | brakeAssert
  /-- BRAKE_RELEASE (R434): PWR_BRAKE_N is released, and the duty returns to 100 % over 20 µs. -/
  | brakeRelease
  /-- TAMP_TDP_CLAMP (R435): The 100 µs average of P_est passes 105 % of the fused TDP, or falls back below it, and the Tamp duty is imposed or released. -/
  | tampTdpClamp
  /-- INPUT_CURRENT_LIMIT (R435): The input current exceeds its fused limit for 20 µs, and the Tamp imposes 50 % duty. -/
  | inputCurrentLimit
  /-- INPUT_CURRENT_RELEASE (R435): The input current stays below its limit for 100 µs, and the Tamp duty is released. -/
  | inputCurrentRelease
  /-- AGEING_CALIBRATION (R440): Every 24 h the ageing monitors measure margin and raise the trim or lower FMAX. -/
  | ageingCalibration
  /-- COOLANT_OK_DEASSERT (R450): COOLANT_OK_N stays deasserted for 1 ms, a 900 W coolant limit applies and the grace delay starts. -/
  | coolantOkDeassert
  /-- COOLANT_OK_ASSERT (R454): COOLANT_OK_N is asserted, which ends the coolant limit or lets the rails come on. -/
  | coolantOkAssert
  /-- COOLANT_GRACE_EXPIRE (R454): The grace delay runs out with COOLANT_OK_N still deasserted, and the rails go off. -/
  | coolantGraceExpire
  /-- LEAK_OFF_EXPIRE (R452): The leak delay runs out with the loop still in LEAK, and the rails go off and stay held off. -/
  | leakOffExpire
  /-- COOLANT_SENSOR_CROSSCHECK (R453): The outlet reads more than 2 °C below the inlet for 10 s at load, and both sensors are failed. -/
  | coolantSensorCrosscheck
  /-- CLN_CTR_CLEAR (R460): A write of 1 to CLN_CTR_CLEAR zeroes the coolant event counters. -/
  | clnCtrClear
  /-- RAILS_ON (R454): All the rail conditions hold again, and the compute rails come on and follow the warm path. -/
  | railsOn
  /-- RACK_REFRESH_TIMEOUT (R456): 3 s pass without a rack-cap refresh, so LOST is set and RACK_MANAGER_LOST is logged. -/
  | rackRefreshTimeout
  /-- ORPHAN_TIMEOUT (R456): 10 s more pass without a refresh, so the orphan cap applies and ORPHAN is set. -/
  | orphanTimeout
  /-- INPUT_SAG (R457): The input falls below 40 V, and a 900 W input-voltage limit applies within 10 µs. -/
  | inputSag
  /-- INPUT_RECOVER (R457): The input stays at or above 40 V for 10 ms, and the input-voltage limit is released. -/
  | inputRecover
  /-- UNDERVOLTAGE (R457): The input stays below 36 V for 100 µs, and the rails go off with cause UNDERVOLTAGE. -/
  | undervoltage
  /-- OVERVOLTAGE (R457): The input stays above 62 V for 10 µs, and the rails go off with cause OVERVOLTAGE. -/
  | overvoltage
  /-- FELMOS_CHECKPOINT (R515): Every 10 ms the active core writes a checkpoint into the alternate buffer. -/
  | felmosCheckpoint
  /-- FATAL_ERROR_SIGNAL (R516): The active core signals a fatal error to the watchdog, which starts a switchover. -/
  | fatalErrorSignal
  /-- STAGE_ERASE_DONE (R529): A slot erase completes. -/
  | stageEraseDone
  /-- STAGING_SESSION_TIMEOUT (R530): 10 s pass with no STAGE_WRITE, and the staging session closes. -/
  | stagingSessionTimeout
  /-- FW_ACTIVATE (R537): A write of FW_ACT_CTL.ACTIVATE starts a live activation, or is refused. -/
  | fwActivate
  /-- FW_ACTIVATE_COLD (R542): A write of ACTIVATE with COLD arms the boot header and starts a warm reset. -/
  | fwActivateCold
  /-- FW_CONFIRM (R539): A write of FW_ACT_CTL.CONFIRM supplies the confirmation that CONFIRM_MODE requires. -/
  | fwConfirm
  /-- FW_ABORT (R540): A write of FW_ACT_CTL.ABORT during the trial falls back to the previous bundle. -/
  | fwAbort
  /-- ACTIVATION_VERIFY_DONE (R537): The standby core finishes verifying the inactive slot and loading its Felmos image. -/
  | activationVerifyDone
  /-- ACTIVATION_BOOT_DONE (R537): The new image boots and reads the newest checkpoint, or fails with CHECKPOINT_FORMAT. -/
  | activationBootDone
  /-- ACTIVATION_COMMIT (R538): The old core writes a final checkpoint and stops, and the new core becomes ACTIVE and the trial starts. -/
  | activationCommit
  /-- HEALTH_CONFIRM (R539): The trial conditions hold, so settings, boot header and SVN are written and the bundle is confirmed. -/
  | healthConfirm
  /-- TRIAL_TIMEOUT (R540): The 600 s trial ends without HEALTH_CONFIRM, and the module falls back. -/
  | trialTimeout
  /-- EJECT_REQUEST (R544): A write of MGT_EJECT_CTL.REQUEST starts an eject. -/
  | ejectRequest
  /-- EJECT_CANCEL (R554): A write of MGT_EJECT_CTL.CANCEL cancels an eject unless the side-band requested it. -/
  | ejectCancel
  /-- EJECT_ROUTES_CLEAR (R544): No packets are in flight and pass-through traffic is idle, so the links are put to sleep and darkened. -/
  | ejectRoutesClear
  /-- POWER_LOSS (R568): The 48 V input is removed or falls below the always-on range, so the always-on domain loses power and the event log, time base and every kept register are lost. -/
  | powerLoss
  /-- SNAPSHOT_WRITE_DONE (R279): The 16 KiB of a snapshot requested through SYS_SNAP_CTL.GO are visible at DEST, BUSY clears and the next queued snapshot request is served. -/
  | snapshotWriteDone
  /-- RECOVERY_HEARTBEAT (R526): In RECOVERY, every 4 ms the always-on domain toggles HEARTBEAT_OUT. -/
  | recoveryHeartbeat
  deriving DecidableEq, Repr

end Sys2Proof
end

