-- ==== Sys2Proof/Machine/Events.lean ====
section
/-! DEFINITION. Machine/Events.lean: the codes of the event log (R481, R510, R545). -/

namespace Sys2Proof.Machine

/-- The events of the log. -/
inductive Ev where
  | contextFaulted | ringHalted | ringCqBlocked | contextResetDone | engineReset | partitionReset
  | moduleReset | resetStepTimeout | powerCycleRequested | dumpFailed | hbmLayoutRejected | hbmUeDemand
  | hbmUeScrub | hbmHardFaultSuspect | hbmCePageThreshold | hbmRepairQueued | hbmRepairRecordFull | hbmRepairExhausted
  | hbmRepairRecordInvalid | scratchpadUe | ethCableFault | ethRdmaUe | timeStep | linkUp
  | linkDown | linkClockLaneLost | linkTrainFailed | linkPartnerChanged | linkSettingsStale | linkDegraded
  | fabricPacketDropped | collResidueFault | collLateRevoke | collParamMismatch | powerEstimateClamped | capUnmet
  | guaranteeScaled | thermalTrip | thermalSensorFailed | thermalModelDiverged | ageingFmaxReduced | rackManagerLost
  | computeRailsOff | coolantLost | coolantInletHigh | coolantInletLow | coolantRise | coolantLeak
  | coolantSensorFault | leakSenseFault | bootStarted | bootReady | bootFailed | firmwareSlotFallback
  | configInvalid | configMemoryFault | licenceInvalid | hbmTrainingFallback | tileTestFailed | tileLoadFailed
  | defectRecordInvalid | topologyHold | topologyConfirmed | topologyLinkMismatch | topologyPeerDiffers | topologyPeerSilent
  | felmosSwitchover | felmosHbPathLost | felmosHbPathRestored | felmosCoreFailed | felmosStandbyReady | sidebandRxOverflow
  | sidebandOutboxFull | firmwareStageOpened | firmwareActivationStarted | firmwareActivationFailed | firmwareHandoverDone | firmwareConfirmed
  | firmwareFallback | settingsReset | configWritten | licenceWritten | repairRequested | ejectRequested
  | ejectReady | ejectCancelled
  deriving DecidableEq, Repr

/-- The code of an event. -/
def evCode : Ev → Nat
  | .contextFaulted => 0x0101
  | .ringHalted => 0x0102
  | .ringCqBlocked => 0x0103
  | .contextResetDone => 0x0104
  | .engineReset => 0x0105
  | .partitionReset => 0x0106
  | .moduleReset => 0x0107
  | .resetStepTimeout => 0x0108
  | .powerCycleRequested => 0x0109
  | .dumpFailed => 0x010A
  | .hbmLayoutRejected => 0x0201
  | .hbmUeDemand => 0x0202
  | .hbmUeScrub => 0x0203
  | .hbmHardFaultSuspect => 0x0204
  | .hbmCePageThreshold => 0x0205
  | .hbmRepairQueued => 0x0206
  | .hbmRepairRecordFull => 0x0207
  | .hbmRepairExhausted => 0x0208
  | .hbmRepairRecordInvalid => 0x0209
  | .scratchpadUe => 0x020A
  | .ethCableFault => 0x0301
  | .ethRdmaUe => 0x0302
  | .timeStep => 0x0303
  | .linkUp => 0x0401
  | .linkDown => 0x0402
  | .linkClockLaneLost => 0x0403
  | .linkTrainFailed => 0x0404
  | .linkPartnerChanged => 0x0405
  | .linkSettingsStale => 0x0406
  | .linkDegraded => 0x0407
  | .fabricPacketDropped => 0x0408
  | .collResidueFault => 0x0501
  | .collLateRevoke => 0x0502
  | .collParamMismatch => 0x0503
  | .powerEstimateClamped => 0x0601
  | .capUnmet => 0x0602
  | .guaranteeScaled => 0x0603
  | .thermalTrip => 0x0604
  | .thermalSensorFailed => 0x0605
  | .thermalModelDiverged => 0x0606
  | .ageingFmaxReduced => 0x0607
  | .rackManagerLost => 0x0608
  | .computeRailsOff => 0x0609
  | .coolantLost => 0x0701
  | .coolantInletHigh => 0x0702
  | .coolantInletLow => 0x0703
  | .coolantRise => 0x0704
  | .coolantLeak => 0x0705
  | .coolantSensorFault => 0x0706
  | .leakSenseFault => 0x0707
  | .bootStarted => 0x0B01
  | .bootReady => 0x0B02
  | .bootFailed => 0x0B03
  | .firmwareSlotFallback => 0x0B04
  | .configInvalid => 0x0B05
  | .configMemoryFault => 0x0B06
  | .licenceInvalid => 0x0B07
  | .hbmTrainingFallback => 0x0B08
  | .tileTestFailed => 0x0B09
  | .tileLoadFailed => 0x0B0A
  | .defectRecordInvalid => 0x0B0B
  | .topologyHold => 0x0B0C
  | .topologyConfirmed => 0x0B0D
  | .topologyLinkMismatch => 0x0B0E
  | .topologyPeerDiffers => 0x0B0F
  | .topologyPeerSilent => 0x0B10
  | .felmosSwitchover => 0x0C01
  | .felmosHbPathLost => 0x0C02
  | .felmosHbPathRestored => 0x0C03
  | .felmosCoreFailed => 0x0C04
  | .felmosStandbyReady => 0x0C05
  | .sidebandRxOverflow => 0x0C06
  | .sidebandOutboxFull => 0x0C07
  | .firmwareStageOpened => 0x0C08
  | .firmwareActivationStarted => 0x0C09
  | .firmwareActivationFailed => 0x0C0A
  | .firmwareHandoverDone => 0x0C0B
  | .firmwareConfirmed => 0x0C0C
  | .firmwareFallback => 0x0C0D
  | .settingsReset => 0x0C0E
  | .configWritten => 0x0C0F
  | .licenceWritten => 0x0C10
  | .repairRequested => 0x0C11
  | .ejectRequested => 0x0C12
  | .ejectReady => 0x0C13
  | .ejectCancelled => 0x0C14

end Sys2Proof.Machine
end

