-- ==== Sys2Proof/Machine/RegBase.lean ====
section
/-! DEFINITION. Machine/RegBase.lean: the shape of the management register space (R37, R38): blocks, where each lies,
and the descriptors of fields and rows that Machine/Regs.lean lists. -/

namespace Sys2Proof.Machine

/-- Access types of R15. No register of the spec has a W1C field. -/
inductive Acc where
  | ro | rw | wo
  deriving DecidableEq, Repr

/-- The kinds of register block that occur more than once, and the rest of the space. -/
inductive Blk where
  | glob | tile | kvw | stk | rrc | part | eth | lnk
  deriving DecidableEq, Repr

/-- A field: offset of its register within its block, low bit, width and reset value. -/
structure Fld where
  off : Nat
  lo : Nat
  w : Nat
  rst : Nat
  deriving DecidableEq, Repr

/-- A row of a register table: element 0's field, the byte stride and count of an array of registers, the bit stride
and count of an array of fields within one register, and the access type. -/
structure RegRow where
  f : Fld
  stride : Nat
  count : Nat
  lane : Nat
  lanes : Nat
  acc : Acc
  deriving DecidableEq, Repr

/-- The key of a field in the register store: its bit address. -/
def fldKey (f : Fld) : Nat := f.off * 64 + f.lo

/-- The same field of the block that starts at `base`. -/
def fldAt (f : Fld) (base : Nat) : Fld := { f with off := base + f.off }

/-- Element `n` of an array of 8-byte registers. -/
def fldNth (f : Fld) (n : Nat) : Fld := { f with off := f.off + 8 * n }

/-- Element `n` of an array of fields `lane` bits apart within one register. -/
def fldLane (f : Fld) (lane n : Nat) : Fld := { f with lo := f.lo + lane * n }

/-- R37, R198, R238, R284, R285, R321, R381: where block `n` of each kind lies in register space. -/
def blkBase : Blk → Nat → Nat
  | .glob, _ => 0
  | .tile, t => 0x100000 + t / 136 * 0x80000 + t % 136 * 0x800
  | .kvw, w => 0x2F000 + w / 8 * 0x400 + w % 8 * 0x80
  | .stk, k => 0x71000 + k * 0x100
  | .rrc, d => 0x70400 + d * 0x40
  | .part, n => 0x2E000 + n * 0x100
  | .eth, p => 0x30000 + p * 0x1000
  | .lnk, l => 0x40000 + l * 0x1000

/-- A field of tile `t`'s slot. -/
abbrev tileF (t : Nat) (f : Fld) : Fld := fldAt f (blkBase .tile t)
/-- A field of walker `w`'s block (walker w % 8 of die w / 8). -/
abbrev kvwF (w : Nat) (f : Fld) : Fld := fldAt f (blkBase .kvw w)
/-- A field of stack `k`'s block. -/
abbrev stkF (k : Nat) (f : Fld) : Fld := fldAt f (blkBase .stk k)
/-- A field of die `d`'s remote-read cache block. -/
abbrev rrcF (d : Nat) (f : Fld) : Fld := fldAt f (blkBase .rrc d)
/-- A field of partition `n`'s block. -/
abbrev partF (n : Nat) (f : Fld) : Fld := fldAt f (blkBase .part n)
/-- A field of Ethernet port `p`'s block. -/
abbrev ethF (p : Nat) (f : Fld) : Fld := fldAt f (blkBase .eth p)
/-- A field of link `l`'s block. -/
abbrev lnkF (l : Nat) (f : Fld) : Fld := fldAt f (blkBase .lnk l)

/-- R37, R38: the blocks that register space holds; any other offset is refused. -/
def regSpaceBacked (off : Nat) : Bool :=
  off < 0x4000 || (0x10000 ≤ off && off < 0x13000) || (0x20000 ≤ off && off < 0x34000) ||
  (0x40000 ≤ off && off < 0x46000) || (0x50000 ≤ off && off < 0x80000) ||
  (0x100000 ≤ off && off < 0x200000)

/-- Which block holds register offset `off`: its kind, its number and the offset within it. An offset in a tile half
past slot 135, or of a per-instance area that no instance occupies, belongs to no block (R16, R38: reads zero). -/
def locate (off : Nat) : Option (Blk × Nat × Nat) :=
  if 0x100000 ≤ off then
    let o := off - 0x100000
    let slot := o % 0x80000 / 0x800
    if o / 0x80000 < 2 ∧ slot < 136 then some (.tile, o / 0x80000 * 136 + slot, o % 0x800) else none
  else if 0x71000 ≤ off ∧ off < 0x71800 then some (.stk, (off - 0x71000) / 0x100, off % 0x100)
  else if 0x70400 ≤ off ∧ off < 0x70480 then some (.rrc, (off - 0x70400) / 0x40, off % 0x40)
  else if 0x40000 ≤ off ∧ off < 0x46000 then some (.lnk, (off - 0x40000) / 0x1000, off % 0x1000)
  else if 0x30000 ≤ off ∧ off < 0x34000 then some (.eth, (off - 0x30000) / 0x1000, off % 0x1000)
  else if 0x2F000 ≤ off ∧ off < 0x2F800 then some (.kvw, (off - 0x2F000) / 0x80, off % 0x80)
  else if 0x2E000 ≤ off ∧ off < 0x2E800 then some (.part, (off - 0x2E000) / 0x100, off % 0x100)
  else some (.glob, 0, off)

end Sys2Proof.Machine
end

