-- ==== Sys2Proof/Machine/Regs.lean ====
section
/-! DEFINITION. Machine/Regs.lean: every field of every management register, from the register tables of the spec
(R39, R40, R84, R120, R124, R168, R198, R235, R237, R238, R282 to R285, R321, R349, R381, R419, R458 to R460, R483,
R511 to R513, R546, R547, R557). A field is an offset within its block (the whole register space for a global
register), its low bit, its width and its reset value; an array's field is that of element 0. -/

namespace Sys2Proof.Machine.Reg

/-- R39 `SYS_ID.VENDOR` [15:0], RO, reset 0x5058. -/
def SYS_ID_VENDOR : Fld := ⟨0x0, 0, 16, 0x5058⟩
/-- R39 `SYS_ID.PART` [31:16], RO, reset 0x0009. -/
def SYS_ID_PART : Fld := ⟨0x0, 16, 16, 9⟩
/-- R39 `SYS_ID.VARIANT` [35:32], RO, reset 0x0. -/
def SYS_ID_VARIANT : Fld := ⟨0x0, 32, 4, 0⟩
/-- R39 `SYS_ID.STEPPING` [39:36], RO, reset fused. -/
def SYS_ID_STEPPING : Fld := ⟨0x0, 36, 4, 0⟩
/-- R40 `SYS_CHIP.Z` [4:0], RO, reset 0. -/
def SYS_CHIP_Z : Fld := ⟨0x8, 0, 5, 0⟩
/-- R40 `SYS_CHIP.Y` [9:5], RO, reset 0. -/
def SYS_CHIP_Y : Fld := ⟨0x8, 5, 5, 0⟩
/-- R40 `SYS_CHIP.X` [14:10], RO, reset 0. -/
def SYS_CHIP_X : Fld := ⟨0x8, 10, 5, 0⟩
/-- R40 `SYS_CHIP.VALID` [15], RO, reset 0. -/
def SYS_CHIP_VALID : Fld := ⟨0x8, 15, 1, 0⟩
/-- R40 `SYS_CHIP.CONFIRMED` [16], RO, reset 0. -/
def SYS_CHIP_CONFIRMED : Fld := ⟨0x8, 16, 1, 0⟩
/-- R84 `TILE_PREC_CTL` [63:0], RO, reset 0. -/
def TILE_PREC_CTL : Fld := ⟨0x600, 0, 64, 0⟩
/-- R84 `TILE_SR_STATE` [31:0], RO, reset 0x0000_0001. -/
def TILE_SR_STATE : Fld := ⟨0x608, 0, 32, 1⟩
/-- R84 `TILE_PREC_SAMPLES` [63:0], RO, reset 0. -/
def TILE_PREC_SAMPLES : Fld := ⟨0x610, 0, 64, 0⟩
/-- R84 `TILE_PREC_EXCURSIONS` [63:0], RO, reset 0. -/
def TILE_PREC_EXCURSIONS : Fld := ⟨0x618, 0, 64, 0⟩
/-- R84 `TILE_PREC_ESCALATIONS` [63:0], RO, reset 0. -/
def TILE_PREC_ESCALATIONS : Fld := ⟨0x620, 0, 64, 0⟩
/-- R84 `TILE_PREC_SAT_QUANT` [63:0], RO, reset 0. -/
def TILE_PREC_SAT_QUANT : Fld := ⟨0x628, 0, 64, 0⟩
/-- R84 `TILE_PREC_SAT_OUT` [63:0], RO, reset 0. -/
def TILE_PREC_SAT_OUT : Fld := ⟨0x630, 0, 64, 0⟩
/-- R84 `TILE_PREC_NAN_ZEROED` [63:0], RO, reset 0. -/
def TILE_PREC_NAN_ZEROED : Fld := ⟨0x638, 0, 64, 0⟩
/-- R84 `TILE_PREC_MAX_ERR` [31:0], RO, reset 0. -/
def TILE_PREC_MAX_ERR : Fld := ⟨0x640, 0, 32, 0⟩
/-- R84 `TILE_PREC_CLEAR` [0], WO, reset 0. -/
def TILE_PREC_CLEAR : Fld := ⟨0x648, 0, 1, 0⟩
/-- R120 `PWR_DRILL_CTL.WAVE_SIZE` [4:0], RW, reset 16. -/
def PWR_DRILL_CTL_WAVE_SIZE : Fld := ⟨0x10800, 0, 5, 16⟩
/-- R120 `PWR_DRILL_CTL.WAVE_GAP` [15:8], RW, reset 64. -/
def PWR_DRILL_CTL_WAVE_GAP : Fld := ⟨0x10800, 8, 8, 64⟩
/-- R120 `PWR_DRILL_CTL.OFFSET_EN` [16], RW, reset 0. -/
def PWR_DRILL_CTL_OFFSET_EN : Fld := ⟨0x10800, 16, 1, 0⟩
/-- R120 `PWR_DRILL_STAT_D0, _D1.HELD` [8:0], RO, reset 0. -/
def PWR_DRILL_STAT_HELD : Fld := ⟨0x10808, 0, 9, 0⟩
/-- R120 `PWR_DRILL_STAT_D0, _D1.BURSTS` [63:32], RO, reset 0. -/
def PWR_DRILL_STAT_BURSTS : Fld := ⟨0x10808, 32, 32, 0⟩
/-- R124 `TILE_STATUS.STATE` [2:0], RO, reset 0. -/
def TILE_STATUS_STATE : Fld := ⟨0x0, 0, 3, 0⟩
/-- R124 `TILE_STATUS.WAVE_HELD` [3], RO, reset 0. -/
def TILE_STATUS_WAVE_HELD : Fld := ⟨0x0, 3, 1, 0⟩
/-- R124 `TILE_STATUS.CTX` [21:8], RO, reset 0. -/
def TILE_STATUS_CTX : Fld := ⟨0x0, 8, 14, 0⟩
/-- R124 `TILE_STATUS.LOGICAL` [40:32], RO, reset 0. -/
def TILE_STATUS_LOGICAL : Fld := ⟨0x0, 32, 9, 0⟩
/-- R124 `TILE_STATUS.PHYS` [56:48], RO, reset Own number. -/
def TILE_STATUS_PHYS : Fld := ⟨0x0, 48, 9, 0⟩
/-- R124 `TILE_KERNEL.RING` [17:0], RO, reset 0. -/
def TILE_KERNEL_RING : Fld := ⟨0x8, 0, 18, 0⟩
/-- R124 `TILE_KERNEL.INDEX` [63:32], RO, reset 0. -/
def TILE_KERNEL_INDEX : Fld := ⟨0x8, 32, 32, 0⟩
/-- R124 `TILE_BUSY_CYCLES` [63:0], RO, reset 0. -/
def TILE_BUSY_CYCLES : Fld := ⟨0x10, 0, 64, 0⟩
/-- R124 `TILE_MATRIX_CYCLES` [63:0], RO, reset 0. -/
def TILE_MATRIX_CYCLES : Fld := ⟨0x18, 0, 64, 0⟩
/-- R124 `TILE_MATRIX_MACS` [63:0], RO, reset 0. -/
def TILE_MATRIX_MACS : Fld := ⟨0x20, 0, 64, 0⟩
/-- R124 `TILE_WLOAD_STALL_CYCLES` [63:0], RO, reset 0. -/
def TILE_WLOAD_STALL_CYCLES : Fld := ⟨0x28, 0, 64, 0⟩
/-- R124 `TILE_BANK_WAIT_CYCLES` [63:0], RO, reset 0. -/
def TILE_BANK_WAIT_CYCLES : Fld := ⟨0x30, 0, 64, 0⟩
/-- R124 `TILE_RAMP_CYCLES` [63:0], RO, reset 0. -/
def TILE_RAMP_CYCLES : Fld := ⟨0x38, 0, 64, 0⟩
/-- R124 `TILE_WAVE_HOLD_CYCLES` [63:0], RO, reset 0. -/
def TILE_WAVE_HOLD_CYCLES : Fld := ⟨0x40, 0, 64, 0⟩
/-- R124 `TILE_VECTOR_CYCLES` [63:0], RO, reset 0. -/
def TILE_VECTOR_CYCLES : Fld := ⟨0x48, 0, 64, 0⟩
/-- R124 `TILE_DMA_READ_BYTES` [63:0], RO, reset 0. -/
def TILE_DMA_READ_BYTES : Fld := ⟨0x50, 0, 64, 0⟩
/-- R124 `TILE_DMA_WRITE_BYTES` [63:0], RO, reset 0. -/
def TILE_DMA_WRITE_BYTES : Fld := ⟨0x58, 0, 64, 0⟩
/-- R124 `TILE_CLEAR_COUNT` [63:0], RO, reset 0. -/
def TILE_CLEAR_COUNT : Fld := ⟨0x60, 0, 64, 0⟩
/-- R124 `TILE_CTR_CLEAR` [0], WO, reset 0. -/
def TILE_CTR_CLEAR : Fld := ⟨0x80, 0, 1, 0⟩
/-- R168 `TILE_SEQ_PC.PC` [19:0], RO, reset 0. -/
def TILE_SEQ_PC_PC : Fld := ⟨0x400, 0, 20, 0⟩
/-- R168 `TILE_SEQ_STAT.WAIT_KIND` [3:0], RO, reset 0. -/
def TILE_SEQ_STAT_WAIT_KIND : Fld := ⟨0x408, 0, 4, 0⟩
/-- R168 `TILE_SEQ_STAT.FAULTED` [4], RO, reset 0. -/
def TILE_SEQ_STAT_FAULTED : Fld := ⟨0x408, 4, 1, 0⟩
/-- R168 `TILE_SEQ_STAT.STOPPED` [5], RO, reset 0. -/
def TILE_SEQ_STAT_STOPPED : Fld := ⟨0x408, 5, 1, 0⟩
/-- R168 `TILE_SEQ_STAT.FAULT_CAUSE` [15:8], RO, reset 0. -/
def TILE_SEQ_STAT_FAULT_CAUSE : Fld := ⟨0x408, 8, 8, 0⟩
/-- R168 `TILE_SEQ_STAT.PRED` [23:16], RO, reset 0x01. -/
def TILE_SEQ_STAT_PRED : Fld := ⟨0x408, 16, 8, 1⟩
/-- R168 `TILE_SEQ_STAT.DMA_QUEUED` [28:24], RO, reset 0. -/
def TILE_SEQ_STAT_DMA_QUEUED : Fld := ⟨0x408, 24, 5, 0⟩
/-- R168 `TILE_SEQ_STAT.GROUP_BUSY` [39:32], RO, reset 0. -/
def TILE_SEQ_STAT_GROUP_BUSY : Fld := ⟨0x408, 32, 8, 0⟩
/-- R168 `TILE_SEQ_FAULT_PC.PC` [19:0], RO, reset 0. -/
def TILE_SEQ_FAULT_PC_PC : Fld := ⟨0x410, 0, 20, 0⟩
/-- R168 `TILE_SEQ_FAULT_INFO` [63:0], RO, reset 0. -/
def TILE_SEQ_FAULT_INFO : Fld := ⟨0x418, 0, 64, 0⟩
/-- R168 `TILE_SEQ_RETIRED` [63:0], RO, reset 0. -/
def TILE_SEQ_RETIRED : Fld := ⟨0x420, 0, 64, 0⟩
/-- R168 `TILE_SEQ_A0 to TILE_SEQ_A15` [63:0], RO, reset 0. -/
def TILE_SEQ_A : Fld := ⟨0x480, 0, 64, 0⟩
/-- R168 `TILE_SEQ_S0 to TILE_SEQ_S31` [63:0], RO, reset 0. -/
def TILE_SEQ_S : Fld := ⟨0x500, 0, 64, 0⟩
/-- R198 `KVW_STATUS.STATE` [1:0], RO, reset 0. -/
def KVW_STATUS_STATE : Fld := ⟨0x0, 0, 2, 0⟩
/-- R198 `KVW_STATUS.PRESENT` [2], RO, reset 0. -/
def KVW_STATUS_PRESENT : Fld := ⟨0x0, 2, 1, 0⟩
/-- R198 `KVW_STATUS.ACTIVE` [12:8], RO, reset 0. -/
def KVW_STATUS_ACTIVE : Fld := ⟨0x0, 8, 5, 0⟩
/-- R198 `KVW_PAGES` [63:0], RO, reset 0. -/
def KVW_PAGES : Fld := ⟨0x8, 0, 64, 0⟩
/-- R198 `KVW_BYTES_LOCAL` [63:0], RO, reset 0. -/
def KVW_BYTES_LOCAL : Fld := ⟨0x10, 0, 64, 0⟩
/-- R198 `KVW_BYTES_REMOTE` [63:0], RO, reset 0. -/
def KVW_BYTES_REMOTE : Fld := ⟨0x18, 0, 64, 0⟩
/-- R198 `KVW_SUMMARIES` [63:0], RO, reset 0. -/
def KVW_SUMMARIES : Fld := ⟨0x20, 0, 64, 0⟩
/-- R198 `KVW_CREDIT_STALL_CYCLES` [63:0], RO, reset 0. -/
def KVW_CREDIT_STALL_CYCLES : Fld := ⟨0x28, 0, 64, 0⟩
/-- R198 `KVW_APPEND_TOKENS` [63:0], RO, reset 0. -/
def KVW_APPEND_TOKENS : Fld := ⟨0x30, 0, 64, 0⟩
/-- R198 `KVW_CTR_CLEAR` [0], WO, reset 0. -/
def KVW_CTR_CLEAR : Fld := ⟨0x38, 0, 1, 0⟩
/-- R235 `TILE_SP_CE` [63:0], RO, reset 0. -/
def TILE_SP_CE : Fld := ⟨0x700, 0, 64, 0⟩
/-- R235 `TILE_SP_UE` [63:0], RO, reset 0. -/
def TILE_SP_UE : Fld := ⟨0x708, 0, 64, 0⟩
/-- R235 `TILE_SP_LAST_CE.OFFSET` [20:0], RO, reset 0. -/
def TILE_SP_LAST_CE_OFFSET : Fld := ⟨0x710, 0, 21, 0⟩
/-- R235 `TILE_SP_LAST_CE.BITS` [22:21], RO, reset 0. -/
def TILE_SP_LAST_CE_BITS : Fld := ⟨0x710, 21, 2, 0⟩
/-- R235 `TILE_SP_LAST_CE.VALID` [63], RO, reset 0. -/
def TILE_SP_LAST_CE_VALID : Fld := ⟨0x710, 63, 1, 0⟩
/-- R235 `TILE_SP_LAST_UE.OFFSET` [20:0], RO, reset 0. -/
def TILE_SP_LAST_UE_OFFSET : Fld := ⟨0x718, 0, 21, 0⟩
/-- R235 `TILE_SP_LAST_UE.VALID` [63], RO, reset 0. -/
def TILE_SP_LAST_UE_VALID : Fld := ⟨0x718, 63, 1, 0⟩
/-- R235 `TILE_SP_CLEAR` [0], WO, reset 0. -/
def TILE_SP_CLEAR : Fld := ⟨0x720, 0, 1, 0⟩
/-- R237 `MEM_STATUS.STACKS_PRESENT` [7:0], RO, reset 0. -/
def MEM_STATUS_STACKS_PRESENT : Fld := ⟨0x70000, 0, 8, 0⟩
/-- R237 `MEM_STATUS.STACKS_FAILED` [15:8], RO, reset 0. -/
def MEM_STATUS_STACKS_FAILED : Fld := ⟨0x70000, 8, 8, 0⟩
/-- R237 `MEM_STATUS.LAYOUT_DEFAULT` [16], RO, reset 0. -/
def MEM_STATUS_LAYOUT_DEFAULT : Fld := ⟨0x70000, 16, 1, 0⟩
/-- R237 `MEM_USABLE` [39:0], RO, reset 0. -/
def MEM_USABLE : Fld := ⟨0x70008, 0, 40, 0⟩
/-- R237 `MEM_REGION_n.VALID` [0], RO, reset 0. -/
def MEM_REGION_VALID : Fld := ⟨0x70100, 0, 1, 0⟩
/-- R237 `MEM_REGION_n.LEVEL` [3:1], RO, reset 0. -/
def MEM_REGION_LEVEL : Fld := ⟨0x70100, 1, 3, 0⟩
/-- R237 `MEM_REGION_n.SET` [5:4], RO, reset 0. -/
def MEM_REGION_SET : Fld := ⟨0x70100, 4, 2, 0⟩
/-- R237 `MEM_REGION_n.RAW_GIB` [14:8], RO, reset 0. -/
def MEM_REGION_RAW_GIB : Fld := ⟨0x70100, 8, 7, 0⟩
/-- R237 `MEM_REGION_n.BASE` [43:16], RO, reset 0. -/
def MEM_REGION_BASE : Fld := ⟨0x70100, 16, 28, 0⟩
/-- R237 `MEM_GLN_CTL.PERIOD` [7:0], RW, reset 24. -/
def MEM_GLN_CTL_PERIOD : Fld := ⟨0x70200, 0, 8, 24⟩
/-- R237 `MEM_GLN_CTL.PAGE_THRESH` [23:8], RW, reset 16. -/
def MEM_GLN_CTL_PAGE_THRESH : Fld := ⟨0x70200, 8, 16, 16⟩
/-- R237 `MEM_GLN_STAT.PASSES` [31:0], RO, reset 0. -/
def MEM_GLN_STAT_PASSES : Fld := ⟨0x70208, 0, 32, 0⟩
/-- R237 `MEM_GLN_STAT.PROGRESS` [38:32], RO, reset 0. -/
def MEM_GLN_STAT_PROGRESS : Fld := ⟨0x70208, 32, 7, 0⟩
/-- R237 `MEM_GLN_REWRITES` [63:0], RO, reset 0. -/
def MEM_GLN_REWRITES : Fld := ⟨0x70210, 0, 64, 0⟩
/-- R237 `MEM_GLN_PAGE_SEL` [17:0], RW, reset 0. -/
def MEM_GLN_PAGE_SEL : Fld := ⟨0x70218, 0, 18, 0⟩
/-- R237 `MEM_GLN_PAGE_DATA.COUNT` [15:0], RO, reset 0. -/
def MEM_GLN_PAGE_DATA_COUNT : Fld := ⟨0x70220, 0, 16, 0⟩
/-- R237 `MEM_GLN_PAGE_DATA.OVER` [16], RO, reset 0. -/
def MEM_GLN_PAGE_DATA_OVER : Fld := ⟨0x70220, 16, 1, 0⟩
/-- R237 `MEM_GLN_PAGE_CLEAR` [0], WO, reset 0. -/
def MEM_GLN_PAGE_CLEAR : Fld := ⟨0x70228, 0, 1, 0⟩
/-- R237 `MEM_INIT_WRITTEN.D0` [31:0], RO, reset 0. -/
def MEM_INIT_WRITTEN_D0 : Fld := ⟨0x70300, 0, 32, 0⟩
/-- R237 `MEM_INIT_WRITTEN.D1` [63:32], RO, reset 0. -/
def MEM_INIT_WRITTEN_D1 : Fld := ⟨0x70300, 32, 32, 0⟩
/-- R237 `MEM_COPY_REFETCH` [63:0], RO, reset 0. -/
def MEM_COPY_REFETCH : Fld := ⟨0x70308, 0, 64, 0⟩
/-- R237 `MEM_REPAIR_STAT.APPLIED` [15:0], RO, reset 0. -/
def MEM_REPAIR_STAT_APPLIED : Fld := ⟨0x70310, 0, 16, 0⟩
/-- R237 `MEM_REPAIR_STAT.QUEUED` [31:16], RO, reset 0. -/
def MEM_REPAIR_STAT_QUEUED : Fld := ⟨0x70310, 16, 16, 0⟩
/-- R237 `MEM_REPAIR_STAT.SKIPPED` [47:32], RO, reset 0. -/
def MEM_REPAIR_STAT_SKIPPED : Fld := ⟨0x70310, 32, 16, 0⟩
/-- R238 `MEM_STK_STATE.PRESENT` [0], RO, reset 0. -/
def MEM_STK_STATE_PRESENT : Fld := ⟨0x0, 0, 1, 0⟩
/-- R238 `MEM_STK_STATE.TRAINED` [1], RO, reset 0. -/
def MEM_STK_STATE_TRAINED : Fld := ⟨0x0, 1, 1, 0⟩
/-- R238 `MEM_STK_STATE.SPARE_ROWS` [31:16], RO, reset 0. -/
def MEM_STK_STATE_SPARE_ROWS : Fld := ⟨0x0, 16, 16, 0⟩
/-- R238 `MEM_STK_STATE.SPARE_COLS` [47:32], RO, reset 0. -/
def MEM_STK_STATE_SPARE_COLS : Fld := ⟨0x0, 32, 16, 0⟩
/-- R238 `MEM_STK_CE_DEMAND` [63:0], RO, reset 0. -/
def MEM_STK_CE_DEMAND : Fld := ⟨0x8, 0, 64, 0⟩
/-- R238 `MEM_STK_CE_SCRUB` [63:0], RO, reset 0. -/
def MEM_STK_CE_SCRUB : Fld := ⟨0x10, 0, 64, 0⟩
/-- R238 `MEM_STK_UE_DEMAND` [63:0], RO, reset 0. -/
def MEM_STK_UE_DEMAND : Fld := ⟨0x18, 0, 64, 0⟩
/-- R238 `MEM_STK_UE_SCRUB` [63:0], RO, reset 0. -/
def MEM_STK_UE_SCRUB : Fld := ⟨0x20, 0, 64, 0⟩
/-- R238 `MEM_STK_CE_HIST.ONE` [15:0], RO, reset 0. -/
def MEM_STK_CE_HIST_ONE : Fld := ⟨0x28, 0, 16, 0⟩
/-- R238 `MEM_STK_CE_HIST.TWO` [31:16], RO, reset 0. -/
def MEM_STK_CE_HIST_TWO : Fld := ⟨0x28, 16, 16, 0⟩
/-- R238 `MEM_STK_CE_HIST.MID` [47:32], RO, reset 0. -/
def MEM_STK_CE_HIST_MID : Fld := ⟨0x28, 32, 16, 0⟩
/-- R238 `MEM_STK_CE_HIST.FULL` [63:48], RO, reset 0. -/
def MEM_STK_CE_HIST_FULL : Fld := ⟨0x28, 48, 16, 0⟩
/-- R238 `MEM_STK_HARD_SUSPECT` [63:0], RO, reset 0. -/
def MEM_STK_HARD_SUSPECT : Fld := ⟨0x30, 0, 64, 0⟩
/-- R238 `MEM_STK_LAST_CE.OFFSET` [39:0], RO, reset 0. -/
def MEM_STK_LAST_CE_OFFSET : Fld := ⟨0x38, 0, 40, 0⟩
/-- R238 `MEM_STK_LAST_CE.SYMBOLS` [47:40], RO, reset 0. -/
def MEM_STK_LAST_CE_SYMBOLS : Fld := ⟨0x38, 40, 8, 0⟩
/-- R238 `MEM_STK_LAST_CE.VALID` [63], RO, reset 0. -/
def MEM_STK_LAST_CE_VALID : Fld := ⟨0x38, 63, 1, 0⟩
/-- R238 `MEM_STK_LAST_UE.OFFSET` [39:0], RO, reset 0. -/
def MEM_STK_LAST_UE_OFFSET : Fld := ⟨0x40, 0, 40, 0⟩
/-- R238 `MEM_STK_LAST_UE.SCRUB` [62], RO, reset 0. -/
def MEM_STK_LAST_UE_SCRUB : Fld := ⟨0x40, 62, 1, 0⟩
/-- R238 `MEM_STK_LAST_UE.VALID` [63], RO, reset 0. -/
def MEM_STK_LAST_UE_VALID : Fld := ⟨0x40, 63, 1, 0⟩
/-- R238 `MEM_STK_CLEAR` [0], WO, reset 0. -/
def MEM_STK_CLEAR : Fld := ⟨0x48, 0, 1, 0⟩
/-- R282 `SYS_TIME` [63:0], RO, reset 0. -/
def SYS_TIME : Fld := ⟨0x10, 0, 64, 0⟩
/-- R282 `SYS_TIME_STAT.LOCKED` [0], RO, reset 0. -/
def SYS_TIME_STAT_LOCKED : Fld := ⟨0x18, 0, 1, 0⟩
/-- R282 `SYS_TIME_STAT.EVER_LOCKED` [1], RO, reset 0. -/
def SYS_TIME_STAT_EVER_LOCKED : Fld := ⟨0x18, 1, 1, 0⟩
/-- R282 `SYS_TIME_STAT.BACKWARD_SLEW` [2], RO, reset 0. -/
def SYS_TIME_STAT_BACKWARD_SLEW : Fld := ⟨0x18, 2, 1, 0⟩
/-- R282 `SYS_SNAP_DEST` [63:0], RW, reset 0. -/
def SYS_SNAP_DEST : Fld := ⟨0x20, 0, 64, 0⟩
/-- R282 `SYS_SNAP_CTL.GO` [0], WO, reset 0. -/
def SYS_SNAP_CTL_GO : Fld := ⟨0x28, 0, 1, 0⟩
/-- R282 `SYS_SNAP_CTL.BUSY` [1], RO, reset 0. -/
def SYS_SNAP_CTL_BUSY : Fld := ⟨0x28, 1, 1, 0⟩
/-- R282 `SYS_SNAP_CTL.FAILED` [2], RO, reset 0. -/
def SYS_SNAP_CTL_FAILED : Fld := ⟨0x28, 2, 1, 0⟩
/-- R282 `SYS_SNAP_EPOCH` [63:0], RO, reset 0. -/
def SYS_SNAP_EPOCH : Fld := ⟨0x30, 0, 64, 0⟩
/-- R283 `CMD_RING_SEL` [17:0], RW, reset 0. -/
def CMD_RING_SEL : Fld := ⟨0x20000, 0, 18, 0⟩
/-- R283 `CMD_RING_CFG0.BASE` [39:0], RW, reset 0. -/
def CMD_RING_CFG0_BASE : Fld := ⟨0x20008, 0, 40, 0⟩
/-- R283 `CMD_RING_CFG0.LOG2_SIZE` [44:40], RW, reset 0. -/
def CMD_RING_CFG0_LOG2_SIZE : Fld := ⟨0x20008, 40, 5, 0⟩
/-- R283 `CMD_RING_CFG0.ORDER` [45], RW, reset 0. -/
def CMD_RING_CFG0_ORDER : Fld := ⟨0x20008, 45, 1, 0⟩
/-- R283 `CMD_RING_CFG0.DIE` [46], RW, reset 0. -/
def CMD_RING_CFG0_DIE : Fld := ⟨0x20008, 46, 1, 0⟩
/-- R283 `CMD_RING_CFG0.ENABLE` [47], RW, reset 0. -/
def CMD_RING_CFG0_ENABLE : Fld := ⟨0x20008, 47, 1, 0⟩
/-- R283 `CMD_RING_CFG0.CTX` [61:48], RW, reset 0. -/
def CMD_RING_CFG0_CTX : Fld := ⟨0x20008, 48, 14, 0⟩
/-- R283 `CMD_RING_CFG1.TIMEOUT_MS` [15:0], RW, reset 1,000. -/
def CMD_RING_CFG1_TIMEOUT_MS : Fld := ⟨0x20010, 0, 16, 1000⟩
/-- R283 `CMD_RING_CFG1.CQ_LOG2_SIZE` [20:16], RW, reset 0. -/
def CMD_RING_CFG1_CQ_LOG2_SIZE : Fld := ⟨0x20010, 16, 5, 0⟩
/-- R283 `CMD_RING_CFG1.CQ_HOST` [21], RW, reset 0. -/
def CMD_RING_CFG1_CQ_HOST : Fld := ⟨0x20010, 21, 1, 0⟩
/-- R283 `CMD_RING_CFG1.CQ_QPN` [47:24], RW, reset 0. -/
def CMD_RING_CFG1_CQ_QPN : Fld := ⟨0x20010, 24, 24, 0⟩
/-- R283 `CMD_RING_CQ_ADDR` [63:0], RW, reset 0. -/
def CMD_RING_CQ_ADDR : Fld := ⟨0x20018, 0, 64, 0⟩
/-- R283 `CMD_RING_CQ_RKEY` [31:0], RW, reset 0. -/
def CMD_RING_CQ_RKEY : Fld := ⟨0x20020, 0, 32, 0⟩
/-- R283 `CMD_RING_STAT.STATE` [2:0], RO, reset 0. -/
def CMD_RING_STAT_STATE : Fld := ⟨0x20028, 0, 3, 0⟩
/-- R283 `CMD_RING_STAT.LAST_STATUS` [31:16], RO, reset 0. -/
def CMD_RING_STAT_LAST_STATUS : Fld := ⟨0x20028, 16, 16, 0⟩
/-- R283 `CMD_RING_IDX.PRODUCER` [31:0], RO, reset 0. -/
def CMD_RING_IDX_PRODUCER : Fld := ⟨0x20030, 0, 32, 0⟩
/-- R283 `CMD_RING_IDX.CONSUMED` [63:32], RO, reset 0. -/
def CMD_RING_IDX_CONSUMED : Fld := ⟨0x20030, 32, 32, 0⟩
/-- R283 `CMD_RING_CQ_IDX.CQ_PRODUCED` [31:0], RO, reset 0. -/
def CMD_RING_CQ_IDX_CQ_PRODUCED : Fld := ⟨0x20038, 0, 32, 0⟩
/-- R283 `CMD_RING_CQ_IDX.CQ_CONSUMED` [63:32], RO, reset 0. -/
def CMD_RING_CQ_IDX_CQ_CONSUMED : Fld := ⟨0x20038, 32, 32, 0⟩
/-- R283 `CTX_SEL` [13:0], RW, reset 0. -/
def CTX_SEL : Fld := ⟨0x20100, 0, 14, 0⟩
/-- R283 `CTX_CFG.PARTITION` [2:0], RW, reset 0. -/
def CTX_CFG_PARTITION : Fld := ⟨0x20108, 0, 3, 0⟩
/-- R283 `CTX_CFG.ENABLE` [3], RW, reset 0. -/
def CTX_CFG_ENABLE : Fld := ⟨0x20108, 3, 1, 0⟩
/-- R283 `CTX_STAT.STATE` [1:0], RO, reset 0. -/
def CTX_STAT_STATE : Fld := ⟨0x20110, 0, 2, 0⟩
/-- R283 `CTX_STAT.FAULT_STATUS` [31:16], RO, reset 0. -/
def CTX_STAT_FAULT_STATUS : Fld := ⟨0x20110, 16, 16, 0⟩
/-- R283 `CTX_STAT.RINGS` [63:32], RO, reset 0. -/
def CTX_STAT_RINGS : Fld := ⟨0x20110, 32, 32, 0⟩
/-- R283 `CMD_DOORBELL_DISCARDS` [63:0], RO, reset 0. -/
def CMD_DOORBELL_DISCARDS : Fld := ⟨0x20200, 0, 64, 0⟩
/-- R283 `CMD_STALE_DOORBELLS` [63:0], RO, reset 0. -/
def CMD_STALE_DOORBELLS : Fld := ⟨0x20208, 0, 64, 0⟩
/-- R283 `CMD_CFG_REJECTS` [63:0], RO, reset 0. -/
def CMD_CFG_REJECTS : Fld := ⟨0x20210, 0, 64, 0⟩
/-- R283 `CMD_REG_MISALIGNED` [63:0], RO, reset 0. -/
def CMD_REG_MISALIGNED : Fld := ⟨0x20218, 0, 64, 0⟩
/-- R284 `PART_CFG.ENABLE` [0], RW, reset 0; 1 for partition 0. -/
def PART_CFG_ENABLE : Fld := ⟨0x0, 0, 1, 0⟩
/-- R284 `PART_CFG.PKEY` [31:16], RW, reset 0. -/
def PART_CFG_PKEY : Fld := ⟨0x0, 16, 16, 0⟩
/-- R284 `PART_CFG.RKEY` [63:32], RW, reset 0. -/
def PART_CFG_RKEY : Fld := ⟨0x0, 32, 32, 0⟩
/-- R284 `PART_TILES_0 to PART_TILES_4` [63:0], RW, reset 0. -/
def PART_TILES : Fld := ⟨0x8, 0, 64, 0⟩
/-- R284 `PART_NOTIFY.QPN` [23:0], RW, reset 0. -/
def PART_NOTIFY_QPN : Fld := ⟨0x30, 0, 24, 0⟩
/-- R284 `PART_NOTIFY.DROPS` [63:32], RO, reset 0. -/
def PART_NOTIFY_DROPS : Fld := ⟨0x30, 32, 32, 0⟩
/-- R284 `PART_CFG2.DSCP` [5:0], RW, reset 0. -/
def PART_CFG2_DSCP : Fld := ⟨0x38, 0, 6, 0⟩
/-- R284 `PART_WIN_w_BASE.OFFSET` [39:0], RW, reset 0. -/
def PART_WIN_BASE_OFFSET : Fld := ⟨0x40, 0, 40, 0⟩
/-- R284 `PART_WIN_w_BASE.RD` [62], RW, reset 0. -/
def PART_WIN_BASE_RD : Fld := ⟨0x40, 62, 1, 0⟩
/-- R284 `PART_WIN_w_BASE.WR` [63], RW, reset 0. -/
def PART_WIN_BASE_WR : Fld := ⟨0x40, 63, 1, 0⟩
/-- R284 `PART_WIN_w_LIMIT` [39:0], RW, reset 0. -/
def PART_WIN_LIMIT : Fld := ⟨0x48, 0, 40, 0⟩
/-- R284 `PART_STAT.GUARANTEE_SCALED` [0], RO, reset 0. -/
def PART_STAT_GUARANTEE_SCALED : Fld := ⟨0x80, 0, 1, 0⟩
/-- R284 `PART_STAT.CONTEXTS` [31:16], RO, reset 0. -/
def PART_STAT_CONTEXTS : Fld := ⟨0x80, 16, 16, 0⟩
/-- R285 `ETH_CFG.SPLIT` [0], RW, reset 0. -/
def ETH_CFG_SPLIT : Fld := ⟨0x0, 0, 1, 0⟩
/-- R285 `ETH_CFG.PFC_EN` [1], RW, reset 0. -/
def ETH_CFG_PFC_EN : Fld := ⟨0x0, 1, 1, 0⟩
/-- R285 `ETH_CFG.PFC_PRIO` [4:2], RW, reset 3. -/
def ETH_CFG_PFC_PRIO : Fld := ⟨0x0, 2, 3, 3⟩
/-- R285 `ETH_CFG.ECN_EN` [5], RW, reset 1. -/
def ETH_CFG_ECN_EN : Fld := ⟨0x0, 5, 1, 1⟩
/-- R285 `ETH_CFG.MAX_FRAME` [21:8], RW, reset 9,216. -/
def ETH_CFG_MAX_FRAME : Fld := ⟨0x0, 8, 14, 0x2400⟩
/-- R285 `ETH_STAT.UP_A` [0], RO, reset 0. -/
def ETH_STAT_UP_A : Fld := ⟨0x8, 0, 1, 0⟩
/-- R285 `ETH_STAT.UP_B` [1], RO, reset 0. -/
def ETH_STAT_UP_B : Fld := ⟨0x8, 1, 1, 0⟩
/-- R285 `ETH_STAT.CABLE_PRESENT` [2], RO, reset 0. -/
def ETH_STAT_CABLE_PRESENT : Fld := ⟨0x8, 2, 1, 0⟩
/-- R285 `ETH_STAT.CMIS_FAULT` [3], RO, reset 0. -/
def ETH_STAT_CMIS_FAULT : Fld := ⟨0x8, 3, 1, 0⟩
/-- R285 `ETH_STAT.CMIS_STATE` [15:8], RO, reset 0. -/
def ETH_STAT_CMIS_STATE : Fld := ⟨0x8, 8, 8, 0⟩
/-- R285 `ETH_FEC_CORR` [63:0], RO, reset 0. -/
def ETH_FEC_CORR : Fld := ⟨0x10, 0, 64, 0⟩
/-- R285 `ETH_FEC_UNCORR` [63:0], RO, reset 0. -/
def ETH_FEC_UNCORR : Fld := ⟨0x18, 0, 64, 0⟩
/-- R285 `ETH_CNP_RX` [63:0], RO, reset 0. -/
def ETH_CNP_RX : Fld := ⟨0x20, 0, 64, 0⟩
/-- R285 `ETH_CNP_TX` [63:0], RO, reset 0. -/
def ETH_CNP_TX : Fld := ⟨0x28, 0, 64, 0⟩
/-- R285 `ETH_NAK_TX` [63:0], RO, reset 0. -/
def ETH_NAK_TX : Fld := ⟨0x30, 0, 64, 0⟩
/-- R285 `ETH_PTP_CFG.EN` [0], RW, reset 1. -/
def ETH_PTP_CFG_EN : Fld := ⟨0x100, 0, 1, 1⟩
/-- R285 `ETH_PTP_CFG.TRANSPORT` [2:1], RW, reset 0. -/
def ETH_PTP_CFG_TRANSPORT : Fld := ⟨0x100, 1, 2, 0⟩
/-- R285 `ETH_PTP_CFG.DOMAIN` [15:8], RW, reset 0. -/
def ETH_PTP_CFG_DOMAIN : Fld := ⟨0x100, 8, 8, 0⟩
/-- R285 `ETH_PTP_OFFSET` [63:0], RO, reset 0. -/
def ETH_PTP_OFFSET : Fld := ⟨0x108, 0, 64, 0⟩
/-- R321 `LNK_CFG.ENABLE` [0], RW, reset 0. -/
def LNK_CFG_ENABLE : Fld := ⟨0x0, 0, 1, 0⟩
/-- R321 `LNK_CFG.PARTNER` [2:1], RW, reset 0. -/
def LNK_CFG_PARTNER : Fld := ⟨0x0, 1, 2, 0⟩
/-- R321 `LNK_CFG.FAST` [3], RW, reset 1. -/
def LNK_CFG_FAST : Fld := ⟨0x0, 3, 1, 1⟩
/-- R321 `LNK_CFG.FALLOW_EN` [4], RW, reset 1. -/
def LNK_CFG_FALLOW_EN : Fld := ⟨0x0, 4, 1, 1⟩
/-- R321 `LNK_CFG.ALLOW_FAR` [5], RW, reset 0. -/
def LNK_CFG_ALLOW_FAR : Fld := ⟨0x0, 5, 1, 0⟩
/-- R321 `LNK_CFG.IDLE_NS` [27:8], RW, reset 20,000. -/
def LNK_CFG_IDLE_NS : Fld := ⟨0x0, 8, 20, 0x4E20⟩
/-- R321 `LNK_CFG.RETRAIN_THRESH` [39:32], RW, reset 64. -/
def LNK_CFG_RETRAIN_THRESH : Fld := ⟨0x0, 32, 8, 64⟩
/-- R321 `LNK_STATE.STATE` [3:0], RO, reset 0. -/
def LNK_STATE_STATE : Fld := ⟨0x8, 0, 4, 0⟩
/-- R321 `LNK_STATE.FALLOW_TX` [4], RO, reset 0. -/
def LNK_STATE_FALLOW_TX : Fld := ⟨0x8, 4, 1, 0⟩
/-- R321 `LNK_STATE.FALLOW_RX` [5], RO, reset 0. -/
def LNK_STATE_FALLOW_RX : Fld := ⟨0x8, 5, 1, 0⟩
/-- R321 `LNK_STATE.CLOCK_LANES` [7:6], RO, reset 0. -/
def LNK_STATE_CLOCK_LANES : Fld := ⟨0x8, 6, 2, 0⟩
/-- R321 `LNK_STATE.REVERSED` [8], RO, reset 0. -/
def LNK_STATE_REVERSED : Fld := ⟨0x8, 8, 1, 0⟩
/-- R321 `LNK_STATE.FAST_USED` [9], RO, reset 0. -/
def LNK_STATE_FAST_USED : Fld := ⟨0x8, 9, 1, 0⟩
/-- R321 `LNK_STATE.LX7` [10], RO, reset 0. -/
def LNK_STATE_LX7 : Fld := ⟨0x8, 10, 1, 0⟩
/-- R321 `LNK_STATE.NO_PARTNER` [11], RO, reset 0. -/
def LNK_STATE_NO_PARTNER : Fld := ⟨0x8, 11, 1, 0⟩
/-- R321 `LNK_STATE.SETTINGS_VALID` [12], RO, reset 0. -/
def LNK_STATE_SETTINGS_VALID : Fld := ⟨0x8, 12, 1, 0⟩
/-- R321 `LNK_STATE.LAST_FAIL` [23:16], RO, reset 0. -/
def LNK_STATE_LAST_FAIL : Fld := ⟨0x8, 16, 8, 0⟩
/-- R321 `LNK_CTL.RETRAIN` [0], WO, reset 0. -/
def LNK_CTL_RETRAIN : Fld := ⟨0x10, 0, 1, 0⟩
/-- R321 `LNK_CTL.SAVE` [1], WO, reset 0. -/
def LNK_CTL_SAVE : Fld := ⟨0x10, 1, 1, 0⟩
/-- R321 `LNK_CTL.WAKE` [2], WO, reset 0. -/
def LNK_CTL_WAKE : Fld := ⟨0x10, 2, 1, 0⟩
/-- R321 `LNK_CTL.RETRY` [3], WO, reset 0. -/
def LNK_CTL_RETRY : Fld := ⟨0x10, 3, 1, 0⟩
/-- R321 `LNK_CTL.FORGET` [4], WO, reset 0. -/
def LNK_CTL_FORGET : Fld := ⟨0x10, 4, 1, 0⟩
/-- R321 `LNK_PARTNER.CHIP` [14:0], RO, reset 0. -/
def LNK_PARTNER_CHIP : Fld := ⟨0x18, 0, 15, 0⟩
/-- R321 `LNK_PARTNER.VALID` [15], RO, reset 0. -/
def LNK_PARTNER_VALID : Fld := ⟨0x18, 15, 1, 0⟩
/-- R321 `LNK_PARTNER.LINK` [18:16], RO, reset 0. -/
def LNK_PARTNER_LINK : Fld := ⟨0x18, 16, 3, 0⟩
/-- R321 `LNK_PARTNER.LX7` [19], RO, reset 0. -/
def LNK_PARTNER_LX7 : Fld := ⟨0x18, 19, 1, 0⟩
/-- R321 `LNK_PARTNER.KNOWN` [20], RO, reset 0. -/
def LNK_PARTNER_KNOWN : Fld := ⟨0x18, 20, 1, 0⟩
/-- R321 `LNK_PARTNER_SERIAL` [63:0], RO, reset 0. -/
def LNK_PARTNER_SERIAL : Fld := ⟨0x20, 0, 64, 0⟩
/-- R321 `LNK_FEC_CORR_CW` [63:0], RO, reset 0. -/
def LNK_FEC_CORR_CW : Fld := ⟨0x100, 0, 64, 0⟩
/-- R321 `LNK_FEC_CORR_BYTES` [63:0], RO, reset 0. -/
def LNK_FEC_CORR_BYTES : Fld := ⟨0x108, 0, 64, 0⟩
/-- R321 `LNK_FEC_UNCORR_CW` [63:0], RO, reset 0. -/
def LNK_FEC_UNCORR_CW : Fld := ⟨0x110, 0, 64, 0⟩
/-- R321 `LNK_CRC_FAIL` [63:0], RO, reset 0. -/
def LNK_CRC_FAIL : Fld := ⟨0x118, 0, 64, 0⟩
/-- R321 `LNK_NAK_TX` [63:0], RO, reset 0. -/
def LNK_NAK_TX : Fld := ⟨0x120, 0, 64, 0⟩
/-- R321 `LNK_REPLAYED` [63:0], RO, reset 0. -/
def LNK_REPLAYED : Fld := ⟨0x128, 0, 64, 0⟩
/-- R321 `LNK_REPLAY_FULL` [63:0], RO, reset 0. -/
def LNK_REPLAY_FULL : Fld := ⟨0x130, 0, 64, 0⟩
/-- R321 `LNK_RETRAINS` [31:0], RO, reset 0. -/
def LNK_RETRAINS : Fld := ⟨0x138, 0, 32, 0⟩
/-- R321 `LNK_TRAIN_FAILS` [63:32], RO, reset 0. -/
def LNK_TRAIN_FAILS : Fld := ⟨0x138, 32, 32, 0⟩
/-- R321 `LNK_DROPPED_GROUPS` [63:0], RO, reset 0. -/
def LNK_DROPPED_GROUPS : Fld := ⟨0x140, 0, 64, 0⟩
/-- R321 `LNK_BAD_CONTROL` [63:0], RO, reset 0. -/
def LNK_BAD_CONTROL : Fld := ⟨0x148, 0, 64, 0⟩
/-- R321 `LNK_FALLOW_ENTRIES` [31:0], RO, reset 0. -/
def LNK_FALLOW_ENTRIES : Fld := ⟨0x150, 0, 32, 0⟩
/-- R321 `LNK_WAKE_FAILS` [63:32], RO, reset 0. -/
def LNK_WAKE_FAILS : Fld := ⟨0x150, 32, 32, 0⟩
/-- R321 `LNK_FALLOW_NS` [63:0], RO, reset 0. -/
def LNK_FALLOW_NS : Fld := ⟨0x158, 0, 64, 0⟩
/-- R321 `LNK_CTR_CLEAR` [0], WO, reset 0. -/
def LNK_CTR_CLEAR : Fld := ⟨0x160, 0, 1, 0⟩
/-- R321 `LNK_LANE_SEL` [4:0], RW, reset 0. -/
def LNK_LANE_SEL : Fld := ⟨0x200, 0, 5, 0⟩
/-- R321 `LNK_LANE_STAT.LOCKED` [0], RO, reset 0. -/
def LNK_LANE_STAT_LOCKED : Fld := ⟨0x208, 0, 1, 0⟩
/-- R321 `LNK_LANE_STAT.EYE` [15:8], RO, reset 0. -/
def LNK_LANE_STAT_EYE : Fld := ⟨0x208, 8, 8, 0⟩
/-- R321 `LNK_LANE_CORR_BYTES` [63:0], RO, reset 0. -/
def LNK_LANE_CORR_BYTES : Fld := ⟨0x210, 0, 64, 0⟩
/-- R321 `LNK_LANE_PRBS_ERR` [31:0], RO, reset 0. -/
def LNK_LANE_PRBS_ERR : Fld := ⟨0x218, 0, 32, 0⟩
/-- R321 `LNK_TEST_CTL.MODE` [1:0], RW, reset 0. -/
def LNK_TEST_CTL_MODE : Fld := ⟨0x300, 0, 2, 0⟩
/-- R321 `LNK_TEST_CTL.PATTERN` [3:2], RW, reset 0. -/
def LNK_TEST_CTL_PATTERN : Fld := ⟨0x300, 2, 2, 0⟩
/-- R321 `LNK_TEST_STAT.RUNNING` [0], RO, reset 0. -/
def LNK_TEST_STAT_RUNNING : Fld := ⟨0x308, 0, 1, 0⟩
/-- R321 `LNK_TEST_STAT.PARTNER_REFUSED` [1], RO, reset 0. -/
def LNK_TEST_STAT_PARTNER_REFUSED : Fld := ⟨0x308, 1, 1, 0⟩
/-- R321 `LNK_TEST_STAT.SYNC` [31:8], RO, reset 0. -/
def LNK_TEST_STAT_SYNC : Fld := ⟨0x308, 8, 24, 0⟩
/-- R349 `FAB_TOPO.SX` [5:0], RO, reset 0. -/
def FAB_TOPO_SX : Fld := ⟨0x50000, 0, 6, 0⟩
/-- R349 `FAB_TOPO.SY` [13:8], RO, reset 0. -/
def FAB_TOPO_SY : Fld := ⟨0x50000, 8, 6, 0⟩
/-- R349 `FAB_TOPO.SZ` [21:16], RO, reset 0. -/
def FAB_TOPO_SZ : Fld := ⟨0x50000, 16, 6, 0⟩
/-- R349 `FAB_TOPO.DATELINE` [29:24], RO, reset 0. -/
def FAB_TOPO_DATELINE : Fld := ⟨0x50000, 24, 6, 0⟩
/-- R349 `FAB_CFG.HL_WAIT_NS` [15:0], RW, reset 1,000. -/
def FAB_CFG_HL_WAIT_NS : Fld := ⟨0x50008, 0, 16, 1000⟩
/-- R349 `FAB_CFG.DOWN_HOLD_MS` [25:16], RW, reset 25. -/
def FAB_CFG_DOWN_HOLD_MS : Fld := ⟨0x50008, 16, 10, 25⟩
/-- R349 `FAB_EPOCH.CURRENT` [0], RW, reset 0. -/
def FAB_EPOCH_CURRENT : Fld := ⟨0x50010, 0, 1, 0⟩
/-- R349 `FAB_EPOCH.SWITCHES` [63:32], RO, reset 0. -/
def FAB_EPOCH_SWITCHES : Fld := ⟨0x50010, 32, 32, 0⟩
/-- R349 `FAB_EPOCH_STAT.INFLIGHT_0` [31:0], RO, reset 0. -/
def FAB_EPOCH_STAT_INFLIGHT_0 : Fld := ⟨0x50018, 0, 32, 0⟩
/-- R349 `FAB_EPOCH_STAT.INFLIGHT_1` [63:32], RO, reset 0. -/
def FAB_EPOCH_STAT_INFLIGHT_1 : Fld := ⟨0x50018, 32, 32, 0⟩
/-- R349 `FAB_RT_SEL.INDEX` [11:0], RW, reset 0. -/
def FAB_RT_SEL_INDEX : Fld := ⟨0x50020, 0, 12, 0⟩
/-- R349 `FAB_RT_SEL.VERSION` [16], RW, reset 0. -/
def FAB_RT_SEL_VERSION : Fld := ⟨0x50020, 16, 1, 0⟩
/-- R349 `FAB_RT_SEL.MCAST` [17], RW, reset 0. -/
def FAB_RT_SEL_MCAST : Fld := ⟨0x50020, 17, 1, 0⟩
/-- R349 `FAB_RT_DATA` [63:0], RW, reset 0x3F3F_3F3F_3F3F_3F3F for unicast words; 0 for multicast words. -/
def FAB_RT_DATA : Fld := ⟨0x50028, 0, 64, 0x3F3F3F3F3F3F3F3F⟩
/-- R349 `FAB_PART_WEIGHT` [63:0], RW, reset 0x1010_1010_1010_1010. -/
def FAB_PART_WEIGHT : Fld := ⟨0x50030, 0, 64, 0x1010101010101010⟩
/-- R349 `FAB_DROP_MALFORMED` [63:0], RO, reset 0. -/
def FAB_DROP_MALFORMED : Fld := ⟨0x50100, 0, 64, 0⟩
/-- R349 `FAB_DROP_HOPS` [63:0], RO, reset 0. -/
def FAB_DROP_HOPS : Fld := ⟨0x50108, 0, 64, 0⟩
/-- R349 `FAB_DROP_NOROUTE` [63:0], RO, reset 0. -/
def FAB_DROP_NOROUTE : Fld := ⟨0x50110, 0, 64, 0⟩
/-- R349 `FAB_DROP_LINKDOWN` [63:0], RO, reset 0. -/
def FAB_DROP_LINKDOWN : Fld := ⟨0x50118, 0, 64, 0⟩
/-- R349 `FAB_HL_ENTRIES` [63:0], RO, reset 0. -/
def FAB_HL_ENTRIES : Fld := ⟨0x50120, 0, 64, 0⟩
/-- R349 `FAB_FENCE_HOLD_NS` [63:0], RO, reset 0. -/
def FAB_FENCE_HOLD_NS : Fld := ⟨0x50128, 0, 64, 0⟩
/-- R349 `FAB_PASS_BYTES` [63:0], RO, reset 0. -/
def FAB_PASS_BYTES : Fld := ⟨0x50130, 0, 64, 0⟩
/-- R349 `FAB_RT_REJECTS` [63:0], RO, reset 0. -/
def FAB_RT_REJECTS : Fld := ⟨0x50138, 0, 64, 0⟩
/-- R349 `FAB_CTR_CLEAR` [0], WO, reset 0. -/
def FAB_CTR_CLEAR : Fld := ⟨0x50140, 0, 1, 0⟩
/-- R381 `MEM_RRC_CTL.BYPASS` [0], RW, reset 0. -/
def MEM_RRC_CTL_BYPASS : Fld := ⟨0x0, 0, 1, 0⟩
/-- R381 `MEM_RRC_CTL.INVALIDATE` [1], WO, reset 0. -/
def MEM_RRC_CTL_INVALIDATE : Fld := ⟨0x0, 1, 1, 0⟩
/-- R381 `MEM_RRC_HITS` [63:0], RO, reset 0. -/
def MEM_RRC_HITS : Fld := ⟨0x8, 0, 64, 0⟩
/-- R381 `MEM_RRC_MISSES` [63:0], RO, reset 0. -/
def MEM_RRC_MISSES : Fld := ⟨0x10, 0, 64, 0⟩
/-- R381 `MEM_RRC_FILLS_DROPPED` [63:0], RO, reset 0. -/
def MEM_RRC_FILLS_DROPPED : Fld := ⟨0x18, 0, 64, 0⟩
/-- R381 `MEM_RRC_INVALIDATED` [63:0], RO, reset 0. -/
def MEM_RRC_INVALIDATED : Fld := ⟨0x20, 0, 64, 0⟩
/-- R381 `MEM_RRC_EVICTIONS` [63:0], RO, reset 0. -/
def MEM_RRC_EVICTIONS : Fld := ⟨0x28, 0, 64, 0⟩
/-- R381 `MEM_RRC_CLEAR` [0], WO, reset 0. -/
def MEM_RRC_CLEAR : Fld := ⟨0x30, 0, 1, 0⟩
/-- R419 `COL_GROUP_SEL` [11:0], RW, reset 0. -/
def COL_GROUP_SEL : Fld := ⟨0x60000, 0, 12, 0⟩
/-- R419 `COL_GROUP_ADDR` [39:0], RW, reset 0. -/
def COL_GROUP_ADDR : Fld := ⟨0x60008, 0, 40, 0⟩
/-- R419 `COL_GROUP_CTL.DEFINE` [0], WO, reset 0. -/
def COL_GROUP_CTL_DEFINE : Fld := ⟨0x60010, 0, 1, 0⟩
/-- R419 `COL_GROUP_CTL.UNDEFINE` [1], WO, reset 0. -/
def COL_GROUP_CTL_UNDEFINE : Fld := ⟨0x60010, 1, 1, 0⟩
/-- R419 `COL_GROUP_STAT.DEFINED` [0], RO, reset 0. -/
def COL_GROUP_STAT_DEFINED : Fld := ⟨0x60018, 0, 1, 0⟩
/-- R419 `COL_GROUP_STAT.DEF_FAILED` [1], RO, reset 0. -/
def COL_GROUP_STAT_DEF_FAILED : Fld := ⟨0x60018, 1, 1, 0⟩
/-- R419 `COL_GROUP_STAT.PARTITION` [4:2], RO, reset 0. -/
def COL_GROUP_STAT_PARTITION : Fld := ⟨0x60018, 2, 3, 0⟩
/-- R419 `COL_GROUP_STAT.MEMBERS` [20:8], RO, reset 0. -/
def COL_GROUP_STAT_MEMBERS : Fld := ⟨0x60018, 8, 13, 0⟩
/-- R419 `COL_GROUP_STAT.POSITION` [35:24], RO, reset 0. -/
def COL_GROUP_STAT_POSITION : Fld := ⟨0x60018, 24, 12, 0⟩
/-- R419 `COL_GROUP_STAT.FAIL_CAUSE` [39:36], RO, reset 0. -/
def COL_GROUP_STAT_FAIL_CAUSE : Fld := ⟨0x60018, 36, 4, 0⟩
/-- R419 `COL_GROUP_HASH.HASH` [31:0], RO, reset 0. -/
def COL_GROUP_HASH_HASH : Fld := ⟨0x60020, 0, 32, 0⟩
/-- R419 `COL_GROUP_HASH.WINDOW_NS` [63:32], RO, reset 0. -/
def COL_GROUP_HASH_WINDOW_NS : Fld := ⟨0x60020, 32, 32, 0⟩
/-- R419 `COL_QUOTA.QUOTA_p` [8p+6:8p], RW, reset 96 for p = 0; 0 otherwise. -/
def COL_QUOTA : Fld := ⟨0x60100, 0, 7, 0⟩
/-- R419 `COL_QUOTA_USED.USED_p` [8p+6:8p], RO, reset 0. -/
def COL_QUOTA_USED : Fld := ⟨0x60108, 0, 7, 0⟩
/-- R419 `COL_SLOTS_LO.SLOTS_q` [16q+12:16q], RW, reset 512. -/
def COL_SLOTS_LO : Fld := ⟨0x60110, 0, 13, 512⟩
/-- R419 `COL_SLOTS_HI.SLOTS_(4+q)` [16q+12:16q], RW, reset 512. -/
def COL_SLOTS_HI : Fld := ⟨0x60118, 0, 13, 512⟩
/-- R419 `COL_INFLIGHT.ADMITTED` [12:0], RO, reset 0. -/
def COL_INFLIGHT_ADMITTED : Fld := ⟨0x60120, 0, 13, 0⟩
/-- R419 `COL_INFLIGHT.WAITING` [25:13], RO, reset 0. -/
def COL_INFLIGHT_WAITING : Fld := ⟨0x60120, 13, 13, 0⟩
/-- R419 `COL_INFLIGHT.STRIP` [38:26], RO, reset 0. -/
def COL_INFLIGHT_STRIP : Fld := ⟨0x60120, 26, 13, 0⟩
/-- R419 `COL_LAST_SEQ_p` [63:0], RO, reset 0. -/
def COL_LAST_SEQ : Fld := ⟨0x60200, 0, 64, 0⟩
/-- R419 `COL_COMPLETED` [63:0], RO, reset 0. -/
def COL_COMPLETED : Fld := ⟨0x60300, 0, 64, 0⟩
/-- R419 `COL_STRIP_RUNS` [63:0], RO, reset 0. -/
def COL_STRIP_RUNS : Fld := ⟨0x60308, 0, 64, 0⟩
/-- R419 `COL_RESIDUE_FAULTS` [63:0], RO, reset 0. -/
def COL_RESIDUE_FAULTS : Fld := ⟨0x60310, 0, 64, 0⟩
/-- R419 `COL_REVOKES_SENT` [63:0], RO, reset 0. -/
def COL_REVOKES_SENT : Fld := ⟨0x60318, 0, 64, 0⟩
/-- R419 `COL_REVOKES_RECEIVED` [63:0], RO, reset 0. -/
def COL_REVOKES_RECEIVED : Fld := ⟨0x60320, 0, 64, 0⟩
/-- R419 `COL_LATE_REVOKES` [63:0], RO, reset 0. -/
def COL_LATE_REVOKES : Fld := ⟨0x60328, 0, 64, 0⟩
/-- R419 `COL_STRAY_PACKETS` [63:0], RO, reset 0. -/
def COL_STRAY_PACKETS : Fld := ⟨0x60330, 0, 64, 0⟩
/-- R419 `COL_A2A_DROPPED_ROWS` [63:0], RO, reset 0. -/
def COL_A2A_DROPPED_ROWS : Fld := ⟨0x60338, 0, 64, 0⟩
/-- R419 `COL_ADMIT_WAIT_NS` [63:0], RO, reset 0. -/
def COL_ADMIT_WAIT_NS : Fld := ⟨0x60340, 0, 64, 0⟩
/-- R419 `COL_CTR_CLEAR` [0], WO, reset 0. -/
def COL_CTR_CLEAR : Fld := ⟨0x60348, 0, 1, 0⟩
/-- R458 `PWR_CAP_EFF.WATTS` [15:0], RO, reset Fused TDP. -/
def PWR_CAP_EFF_WATTS : Fld := ⟨0x10000, 0, 16, 2400⟩
/-- R458 `PWR_CAP_EFF.SOURCES` [18:16], RO, reset 0. -/
def PWR_CAP_EFF_SOURCES : Fld := ⟨0x10000, 16, 3, 0⟩
/-- R458 `PWR_CAP_EFF.TDP` [19], RO, reset 1. -/
def PWR_CAP_EFF_TDP : Fld := ⟨0x10000, 19, 1, 1⟩
/-- R458 `PWR_CAP_RACK.WATTS` [15:0], RO, reset 0. -/
def PWR_CAP_RACK_WATTS : Fld := ⟨0x10008, 0, 16, 0⟩
/-- R458 `PWR_CAP_RACK.VALID` [16], RO, reset 0. -/
def PWR_CAP_RACK_VALID : Fld := ⟨0x10008, 16, 1, 0⟩
/-- R458 `PWR_CAP_RACK.LOST` [17], RO, reset 0. -/
def PWR_CAP_RACK_LOST : Fld := ⟨0x10008, 17, 1, 0⟩
/-- R458 `PWR_CAP_RACK.ORPHAN` [18], RO, reset 0. -/
def PWR_CAP_RACK_ORPHAN : Fld := ⟨0x10008, 18, 1, 0⟩
/-- R458 `PWR_CAP_HOST.WATTS` [15:0], RW, reset 0. -/
def PWR_CAP_HOST_WATTS : Fld := ⟨0x10010, 0, 16, 0⟩
/-- R458 `PWR_CAP_HOST.VALID` [16], RW, reset 0. -/
def PWR_CAP_HOST_VALID : Fld := ⟨0x10010, 16, 1, 0⟩
/-- R458 `PWR_CAP_FW.WATTS` [15:0], RO, reset 0. -/
def PWR_CAP_FW_WATTS : Fld := ⟨0x10018, 0, 16, 0⟩
/-- R458 `PWR_CAP_FW.VALID` [16], RO, reset 0. -/
def PWR_CAP_FW_VALID : Fld := ⟨0x10018, 16, 1, 0⟩
/-- R458 `PWR_CAP_UNMET.SHORTFALL_W` [15:0], RO, reset 0. -/
def PWR_CAP_UNMET_SHORTFALL_W : Fld := ⟨0x10020, 0, 16, 0⟩
/-- R458 `PWR_CAP_UNMET.UNMET` [16], RO, reset 0. -/
def PWR_CAP_UNMET_UNMET : Fld := ⟨0x10020, 16, 1, 0⟩
/-- R458 `PWR_LIMIT.L_W` [15:0], RO, reset Fused TDP. -/
def PWR_LIMIT_L_W : Fld := ⟨0x10028, 0, 16, 2400⟩
/-- R458 `PWR_LIMIT.COOLANT_W` [31:16], RO, reset 0. -/
def PWR_LIMIT_COOLANT_W : Fld := ⟨0x10028, 16, 16, 0⟩
/-- R458 `PWR_LIMIT.THERMAL_W` [47:32], RO, reset 0. -/
def PWR_LIMIT_THERMAL_W : Fld := ⟨0x10028, 32, 16, 0⟩
/-- R458 `PWR_LIMIT.VOLTAGE_W` [63:48], RO, reset 0. -/
def PWR_LIMIT_VOLTAGE_W : Fld := ⟨0x10028, 48, 16, 0⟩
/-- R458 `PWR_THROTTLE.REASONS` [10:0], RO, reset 0. -/
def PWR_THROTTLE_REASONS : Fld := ⟨0x10030, 0, 11, 0⟩
/-- R458 `PWR_EST.EST_W` [15:0], RO, reset 0. -/
def PWR_EST_EST_W : Fld := ⟨0x10038, 0, 16, 0⟩
/-- R458 `PWR_EST.INPUT_W` [31:16], RO, reset 0. -/
def PWR_EST_INPUT_W : Fld := ⟨0x10038, 16, 16, 0⟩
/-- R458 `PWR_EST.INPUT_V` [47:32], RO, reset 0. -/
def PWR_EST_INPUT_V : Fld := ⟨0x10038, 32, 16, 0⟩
/-- R458 `PWR_EST.INPUT_A` [63:48], RO, reset 0. -/
def PWR_EST_INPUT_A : Fld := ⟨0x10038, 48, 16, 0⟩
/-- R458 `PWR_THR_US_0 to PWR_THR_US_10` [63:0], RO, reset 0. -/
def PWR_THR_US : Fld := ⟨0x10040, 0, 64, 0⟩
/-- R458 `PWR_ORPHAN.ORPHAN_W` [15:0], RO, reset 1,500. -/
def PWR_ORPHAN_ORPHAN_W : Fld := ⟨0x10098, 0, 16, 1500⟩
/-- R458 `PWR_FREQ.F_D0` [11:0], RO, reset 0. -/
def PWR_FREQ_F_D0 : Fld := ⟨0x100A0, 0, 12, 0⟩
/-- R458 `PWR_FREQ.F_D1` [27:16], RO, reset 0. -/
def PWR_FREQ_F_D1 : Fld := ⟨0x100A0, 16, 12, 0⟩
/-- R458 `PWR_FREQ.DUTY_D0` [35:32], RO, reset 0. -/
def PWR_FREQ_DUTY_D0 : Fld := ⟨0x100A0, 32, 4, 0⟩
/-- R458 `PWR_FREQ.DUTY_D1` [39:36], RO, reset 0. -/
def PWR_FREQ_DUTY_D1 : Fld := ⟨0x100A0, 36, 4, 0⟩
/-- R458 `PWR_FREQ.TAMP_DUTY` [40], RO, reset 0. -/
def PWR_FREQ_TAMP_DUTY : Fld := ⟨0x100A0, 40, 1, 0⟩
/-- R458 `PWR_AGEING.TRIM_D0` [3:0], RO, reset Kept. -/
def PWR_AGEING_TRIM_D0 : Fld := ⟨0x100A8, 0, 4, 0⟩
/-- R458 `PWR_AGEING.TRIM_D1` [7:4], RO, reset Kept. -/
def PWR_AGEING_TRIM_D1 : Fld := ⟨0x100A8, 4, 4, 0⟩
/-- R458 `PWR_AGEING.FMAX_D0` [19:8], RO, reset Kept. -/
def PWR_AGEING_FMAX_D0 : Fld := ⟨0x100A8, 8, 12, 0⟩
/-- R458 `PWR_AGEING.FMAX_D1` [31:20], RO, reset Kept. -/
def PWR_AGEING_FMAX_D1 : Fld := ⟨0x100A8, 20, 12, 0⟩
/-- R458 `PWR_AGEING.CALIBRATIONS` [63:32], RO, reset 0. -/
def PWR_AGEING_CALIBRATIONS : Fld := ⟨0x100A8, 32, 32, 0⟩
/-- R458 `PWR_CFG.BOOST_EN` [0], RW, reset 0. -/
def PWR_CFG_BOOST_EN : Fld := ⟨0x10100, 0, 1, 0⟩
/-- R458 `PWR_CTR_CLEAR` [0], WO, reset 0. -/
def PWR_CTR_CLEAR : Fld := ⟨0x10108, 0, 1, 0⟩
/-- R458 `PWR_PART_p.GUAR_W` [15:0], RW, reset 0. -/
def PWR_PART_GUAR_W : Fld := ⟨0x10200, 0, 16, 0⟩
/-- R458 `PWR_PART_p.WEIGHT` [23:16], RW, reset 16. -/
def PWR_PART_WEIGHT : Fld := ⟨0x10200, 16, 8, 16⟩
/-- R458 `PWR_PART_p.SCALED` [24], RO, reset 0. -/
def PWR_PART_SCALED : Fld := ⟨0x10200, 24, 1, 0⟩
/-- R458 `PWR_PART_p.ALLOC_W` [47:32], RO, reset 0. -/
def PWR_PART_ALLOC_W : Fld := ⟨0x10200, 32, 16, 0⟩
/-- R458 `PWR_PART_p.USE_W` [63:48], RO, reset 0. -/
def PWR_PART_USE_W : Fld := ⟨0x10200, 48, 16, 0⟩
/-- R458 `PWR_RAILS.RACK_OFF` [0], RO, reset 0. -/
def PWR_RAILS_RACK_OFF : Fld := ⟨0x10300, 0, 1, 0⟩
/-- R458 `PWR_RAILS.HOST_OFF` [1], RW, reset 0. -/
def PWR_RAILS_HOST_OFF : Fld := ⟨0x10300, 1, 1, 0⟩
/-- R458 `PWR_RAILS.ON` [2], RO, reset 0. -/
def PWR_RAILS_ON : Fld := ⟨0x10300, 2, 1, 0⟩
/-- R458 `PWR_RAILS.COOLANT_OK` [3], RO, reset 0. -/
def PWR_RAILS_COOLANT_OK : Fld := ⟨0x10300, 3, 1, 0⟩
/-- R458 `PWR_RAILS.BRAKE` [4], RO, reset 0. -/
def PWR_RAILS_BRAKE : Fld := ⟨0x10300, 4, 1, 0⟩
/-- R458 `PWR_RAILS.LAST_OFF_CAUSE` [11:8], RO, reset 8. -/
def PWR_RAILS_LAST_OFF_CAUSE : Fld := ⟨0x10300, 8, 4, 8⟩
/-- R459 `THM_CFG.TJ_THROTTLE` [6:0], RW, reset 95. -/
def THM_CFG_TJ_THROTTLE : Fld := ⟨0x11000, 0, 7, 95⟩
/-- R459 `THM_CFG.HBM_THROTTLE` [14:8], RW, reset 90. -/
def THM_CFG_HBM_THROTTLE : Fld := ⟨0x11000, 8, 7, 90⟩
/-- R459 `THM_STAT.TJ_MAX_D0` [11:0], RO, reset 0. -/
def THM_STAT_TJ_MAX_D0 : Fld := ⟨0x11008, 0, 12, 0⟩
/-- R459 `THM_STAT.TJ_MAX_D1` [23:12], RO, reset 0. -/
def THM_STAT_TJ_MAX_D1 : Fld := ⟨0x11008, 12, 12, 0⟩
/-- R459 `THM_STAT.TJ_MAX_HUB` [35:24], RO, reset 0. -/
def THM_STAT_TJ_MAX_HUB : Fld := ⟨0x11008, 24, 12, 0⟩
/-- R459 `THM_STAT.FAILED` [41:36], RO, reset 0. -/
def THM_STAT_FAILED : Fld := ⟨0x11008, 36, 6, 0⟩
/-- R459 `THM_STAT.MODEL_DIVERGED` [42], RO, reset 0. -/
def THM_STAT_MODEL_DIVERGED : Fld := ⟨0x11008, 42, 1, 0⟩
/-- R459 `THM_STAT.HALF_LIMIT` [43], RO, reset 0. -/
def THM_STAT_HALF_LIMIT : Fld := ⟨0x11008, 43, 1, 0⟩
/-- R459 `THM_STAT.TRIPPED` [44], RO, reset 0. -/
def THM_STAT_TRIPPED : Fld := ⟨0x11008, 44, 1, 0⟩
/-- R459 `THM_STAT.LOOP` [46:45], RO, reset 0. -/
def THM_STAT_LOOP : Fld := ⟨0x11008, 45, 2, 0⟩
/-- R459 `THM_SENSOR_n.READING` [11:0], RO, reset 0. -/
def THM_SENSOR_READING : Fld := ⟨0x11100, 0, 12, 0⟩
/-- R459 `THM_SENSOR_n.MODEL` [23:12], RO, reset 0. -/
def THM_SENSOR_MODEL : Fld := ⟨0x11100, 12, 12, 0⟩
/-- R459 `THM_SENSOR_n.PRESENT` [24], RO, reset 0. -/
def THM_SENSOR_PRESENT : Fld := ⟨0x11100, 24, 1, 0⟩
/-- R459 `THM_SENSOR_n.FAILED` [25], RO, reset 0. -/
def THM_SENSOR_FAILED : Fld := ⟨0x11100, 25, 1, 0⟩
/-- R459 `THM_SENSOR_n.SUBSTITUTED` [26], RO, reset 0. -/
def THM_SENSOR_SUBSTITUTED : Fld := ⟨0x11100, 26, 1, 0⟩
/-- R460 `CLN_STAT.COOLANT_OK` [0], RO, reset 0. -/
def CLN_STAT_COOLANT_OK : Fld := ⟨0x12000, 0, 1, 0⟩
/-- R460 `CLN_STAT.LEAK_STATE` [2:1], RO, reset 0. -/
def CLN_STAT_LEAK_STATE : Fld := ⟨0x12000, 1, 2, 0⟩
/-- R460 `CLN_STAT.INLET_HIGH` [3], RO, reset 0. -/
def CLN_STAT_INLET_HIGH : Fld := ⟨0x12000, 3, 1, 0⟩
/-- R460 `CLN_STAT.INLET_SEVERE` [4], RO, reset 0. -/
def CLN_STAT_INLET_SEVERE : Fld := ⟨0x12000, 4, 1, 0⟩
/-- R460 `CLN_STAT.INLET_LOW` [5], RO, reset 0. -/
def CLN_STAT_INLET_LOW : Fld := ⟨0x12000, 5, 1, 0⟩
/-- R460 `CLN_STAT.EXCESS_RISE` [6], RO, reset 0. -/
def CLN_STAT_EXCESS_RISE : Fld := ⟨0x12000, 6, 1, 0⟩
/-- R460 `CLN_STAT.OFF_PENDING` [7], RO, reset 0. -/
def CLN_STAT_OFF_PENDING : Fld := ⟨0x12000, 7, 1, 0⟩
/-- R460 `CLN_STAT.OFF_IN_MS` [23:8], RO, reset 0. -/
def CLN_STAT_OFF_IN_MS : Fld := ⟨0x12000, 8, 16, 0⟩
/-- R460 `CLN_STAT.LOOP_OHMS` [39:24], RO, reset 0. -/
def CLN_STAT_LOOP_OHMS : Fld := ⟨0x12000, 24, 16, 0⟩
/-- R460 `CLN_STAT.EXCESS_RATE` [55:40], RO, reset 0. -/
def CLN_STAT_EXCESS_RATE : Fld := ⟨0x12000, 40, 16, 0⟩
/-- R460 `CLN_CFG.GRACE_S` [5:0], RW, reset 5. -/
def CLN_CFG_GRACE_S : Fld := ⟨0x12008, 0, 6, 5⟩
/-- R460 `CLN_CFG.LEAK_OFF_S` [13:8], RW, reset 10. -/
def CLN_CFG_LEAK_OFF_S : Fld := ⟨0x12008, 8, 6, 10⟩
/-- R460 `CLN_EVENTS.LEAKS` [15:0], RO, reset 0. -/
def CLN_EVENTS_LEAKS : Fld := ⟨0x12010, 0, 16, 0⟩
/-- R460 `CLN_EVENTS.LOOP_FAULTS` [31:16], RO, reset 0. -/
def CLN_EVENTS_LOOP_FAULTS : Fld := ⟨0x12010, 16, 16, 0⟩
/-- R460 `CLN_EVENTS.COOLANT_LOSSES` [47:32], RO, reset 0. -/
def CLN_EVENTS_COOLANT_LOSSES : Fld := ⟨0x12010, 32, 16, 0⟩
/-- R460 `CLN_EVENTS.RISES` [63:48], RO, reset 0. -/
def CLN_EVENTS_RISES : Fld := ⟨0x12010, 48, 16, 0⟩
/-- R460 `CLN_CTR_CLEAR` [0], WO, reset 0. -/
def CLN_CTR_CLEAR : Fld := ⟨0x12018, 0, 1, 0⟩
/-- R483 `SYS_RESET_CTL.MODULE` [0], WO, reset 0. -/
def SYS_RESET_CTL_MODULE : Fld := ⟨0x38, 0, 1, 0⟩
/-- R483 `SYS_RESET_CTL.WARM` [1], WO, reset 0. -/
def SYS_RESET_CTL_WARM : Fld := ⟨0x38, 1, 1, 0⟩
/-- R483 `SYS_RESET_CTL.POWER_CYCLE` [2], WO, reset 0. -/
def SYS_RESET_CTL_POWER_CYCLE : Fld := ⟨0x38, 2, 1, 0⟩
/-- R483 `SYS_RESET_STAT.LAST_CAUSE` [3:0], RO, reset 0, kept. -/
def SYS_RESET_STAT_LAST_CAUSE : Fld := ⟨0x40, 0, 4, 0⟩
/-- R483 `SYS_RESET_STAT.MODULE_RESETS` [31:16], RO, reset 0, kept. -/
def SYS_RESET_STAT_MODULE_RESETS : Fld := ⟨0x40, 16, 16, 0⟩
/-- R483 `SYS_RESET_STAT.WARM_RESETS` [47:32], RO, reset 0, kept. -/
def SYS_RESET_STAT_WARM_RESETS : Fld := ⟨0x40, 32, 16, 0⟩
/-- R483 `LOG_HEAD` [63:0], RO, reset 0, kept. -/
def LOG_HEAD : Fld := ⟨0x3000, 0, 64, 0⟩
/-- R483 `LOG_TAIL` [63:0], RO, reset 0, kept. -/
def LOG_TAIL : Fld := ⟨0x3008, 0, 64, 0⟩
/-- R483 `LOG_SEL` [63:0], RW, reset 0. -/
def LOG_SEL : Fld := ⟨0x3010, 0, 64, 0⟩
/-- R483 `LOG_STAT.SEL_VALID` [0], RO, reset 0. -/
def LOG_STAT_SEL_VALID : Fld := ⟨0x3018, 0, 1, 0⟩
/-- R483 `LOG_STAT.SUPPRESSED` [63:32], RO, reset 0, kept. -/
def LOG_STAT_SUPPRESSED : Fld := ⟨0x3018, 32, 32, 0⟩
/-- R483 `LOG_REC_0 to LOG_REC_7` [63:0], RO, reset 0. -/
def LOG_REC : Fld := ⟨0x3040, 0, 64, 0⟩
/-- R483 `CTX_RST_CFG.AUTO_MS` [15:0], RW, reset 0. -/
def CTX_RST_CFG_AUTO_MS : Fld := ⟨0x20118, 0, 16, 0⟩
/-- R483 `CTX_RST_CFG.DUMP_ON_FAULT` [16], RW, reset 0. -/
def CTX_RST_CFG_DUMP_ON_FAULT : Fld := ⟨0x20118, 16, 1, 0⟩
/-- R483 `CTX_DUMP.ADDR` [39:0], RW, reset 0. -/
def CTX_DUMP_ADDR : Fld := ⟨0x20120, 0, 40, 0⟩
/-- R483 `CTX_RST_CTL.GO` [0], WO, reset 0. -/
def CTX_RST_CTL_GO : Fld := ⟨0x20128, 0, 1, 0⟩
/-- R483 `CTX_RST_STAT.LAST_LEVEL` [2:0], RO, reset 0. -/
def CTX_RST_STAT_LAST_LEVEL : Fld := ⟨0x20130, 0, 3, 0⟩
/-- R483 `CTX_RST_STAT.DUMP_FAILED` [3], RO, reset 0. -/
def CTX_RST_STAT_DUMP_FAILED : Fld := ⟨0x20130, 3, 1, 0⟩
/-- R483 `CTX_RST_STAT.RESETS` [31:16], RO, reset 0. -/
def CTX_RST_STAT_RESETS : Fld := ⟨0x20130, 16, 16, 0⟩
/-- R483 `CTX_RST_STAT.UNACKED_WRITES` [63:32], RO, reset 0. -/
def CTX_RST_STAT_UNACKED_WRITES : Fld := ⟨0x20130, 32, 32, 0⟩
/-- R483 `RST_CFG.AUTO_ESCALATE` [0], RW, reset 1. -/
def RST_CFG_AUTO_ESCALATE : Fld := ⟨0x20300, 0, 1, 1⟩
/-- R483 `RST_STAT.IN_PROGRESS` [15:0], RO, reset 0. -/
def RST_STAT_IN_PROGRESS : Fld := ⟨0x20308, 0, 16, 0⟩
/-- R483 `RST_STAT.STEP` [18:16], RO, reset 0. -/
def RST_STAT_STEP : Fld := ⟨0x20308, 16, 3, 0⟩
/-- R483 `RST_PART_CTL.GO` [7:0], WO, reset 0. -/
def RST_PART_CTL_GO : Fld := ⟨0x20310, 0, 8, 0⟩
/-- R483 `RST_COUNTS.CONTEXT` [31:0], RO, reset 0. -/
def RST_COUNTS_CONTEXT : Fld := ⟨0x20318, 0, 32, 0⟩
/-- R483 `RST_COUNTS.ENGINE` [47:32], RO, reset 0. -/
def RST_COUNTS_ENGINE : Fld := ⟨0x20318, 32, 16, 0⟩
/-- R483 `RST_COUNTS.PARTITION` [63:48], RO, reset 0. -/
def RST_COUNTS_PARTITION : Fld := ⟨0x20318, 48, 16, 0⟩
/-- R483 `RST_STEP_TIMEOUTS` [31:0], RO, reset 0. -/
def RST_STEP_TIMEOUTS : Fld := ⟨0x20320, 0, 32, 0⟩
/-- R483 `RST_REJECTS` [63:32], RO, reset 0. -/
def RST_REJECTS : Fld := ⟨0x20320, 32, 32, 0⟩
/-- R511 `BOOT_STAT.STEP` [3:0], RO, reset 0. -/
def BOOT_STAT_STEP : Fld := ⟨0x1000, 0, 4, 0⟩
/-- R511 `BOOT_STAT.STATE` [6:4], RO, reset 0. -/
def BOOT_STAT_STATE : Fld := ⟨0x1000, 4, 3, 0⟩
/-- R511 `BOOT_STAT.WARM` [7], RO, reset 0. -/
def BOOT_STAT_WARM : Fld := ⟨0x1000, 7, 1, 0⟩
/-- R511 `BOOT_STAT.CAUSE` [15:8], RO, reset 0. -/
def BOOT_STAT_CAUSE : Fld := ⟨0x1000, 8, 8, 0⟩
/-- R511 `BOOT_STAT.SLOT` [16], RO, reset 0. -/
def BOOT_STAT_SLOT : Fld := ⟨0x1000, 16, 1, 0⟩
/-- R511 `BOOT_STAT.SLOT_FALLBACK` [17], RO, reset 0. -/
def BOOT_STAT_SLOT_FALLBACK : Fld := ⟨0x1000, 17, 1, 0⟩
/-- R511 `BOOT_STAT.TOTAL_MS` [63:32], RO, reset 0. -/
def BOOT_STAT_TOTAL_MS : Fld := ⟨0x1000, 32, 32, 0⟩
/-- R511 `BOOT_STEP_MS_n` [31:0], RO, reset 0. -/
def BOOT_STEP_MS : Fld := ⟨0x1008, 0, 32, 0⟩
/-- R511 `BOOT_TOPO.RESULT` [17:0], RO, reset 0. -/
def BOOT_TOPO_RESULT : Fld := ⟨0x1050, 0, 18, 0⟩
/-- R511 `BOOT_TOPO.PEER_DIFFERS` [18], RO, reset 0. -/
def BOOT_TOPO_PEER_DIFFERS : Fld := ⟨0x1050, 18, 1, 0⟩
/-- R511 `BOOT_TOPO.PEER_SILENT` [19], RO, reset 0. -/
def BOOT_TOPO_PEER_SILENT : Fld := ⟨0x1050, 19, 1, 0⟩
/-- R512 `LIC_CAP0.WALKERS` [0], RO, reset 0. -/
def LIC_CAP0_WALKERS : Fld := ⟨0x1100, 0, 1, 0⟩
/-- R512 `LIC_CAP0.SIFT` [1], RO, reset 0. -/
def LIC_CAP0_SIFT : Fld := ⟨0x1100, 1, 1, 0⟩
/-- R512 `LIC_CAP0.ESCALATE` [2], RO, reset 0. -/
def LIC_CAP0_ESCALATE : Fld := ⟨0x1100, 2, 1, 0⟩
/-- R512 `LIC_CAP0.Z_AXIS` [3], RO, reset 0. -/
def LIC_CAP0_Z_AXIS : Fld := ⟨0x1100, 3, 1, 0⟩
/-- R512 `LIC_CAP0.LINKS` [13:8], RO, reset 0. -/
def LIC_CAP0_LINKS : Fld := ⟨0x1100, 8, 6, 0⟩
/-- R512 `LIC_CAP0.PORTS` [19:16], RO, reset 0. -/
def LIC_CAP0_PORTS : Fld := ⟨0x1100, 16, 4, 0⟩
/-- R512 `LIC_CAP0.STACKS` [31:24], RO, reset 0. -/
def LIC_CAP0_STACKS : Fld := ⟨0x1100, 24, 8, 0⟩
/-- R512 `LIC_CAP0.MAX_SEQ_LOG2` [36:32], RO, reset 0. -/
def LIC_CAP0_MAX_SEQ_LOG2 : Fld := ⟨0x1100, 32, 5, 0⟩
/-- R512 `LIC_CAP1.TDP_W` [15:0], RO, reset 0. -/
def LIC_CAP1_TDP_W : Fld := ⟨0x1108, 0, 16, 0⟩
/-- R512 `LIC_CAP1.MIN_TILES` [31:16], RO, reset 0. -/
def LIC_CAP1_MIN_TILES : Fld := ⟨0x1108, 16, 16, 0⟩
/-- R512 `LIC_STAT.VALID` [0], RO, reset 0. -/
def LIC_STAT_VALID : Fld := ⟨0x1110, 0, 1, 0⟩
/-- R512 `LIC_STAT.FAIL` [3:1], RO, reset 0. -/
def LIC_STAT_FAIL : Fld := ⟨0x1110, 1, 3, 0⟩
/-- R512 `LIC_SERIAL` [63:0], RO, reset Fused. -/
def LIC_SERIAL : Fld := ⟨0x1118, 0, 64, 0⟩
/-- R513 `FP_TILES_0 to FP_TILES_4` [63:0], RO, reset 0. -/
def FP_TILES : Fld := ⟨0x1200, 0, 64, 0⟩
/-- R513 `FP_COUNT.TOTAL` [8:0], RO, reset 0. -/
def FP_COUNT_TOTAL : Fld := ⟨0x1228, 0, 9, 0⟩
/-- R513 `FP_COUNT.D0` [23:16], RO, reset 0. -/
def FP_COUNT_D0 : Fld := ⟨0x1228, 16, 8, 0⟩
/-- R513 `FP_COUNT.D1` [31:24], RO, reset 0. -/
def FP_COUNT_D1 : Fld := ⟨0x1228, 24, 8, 0⟩
/-- R513 `FP_COUNT.WALKERS` [47:32], RO, reset 0. -/
def FP_COUNT_WALKERS : Fld := ⟨0x1228, 32, 16, 0⟩
/-- R513 `FP_REC_0 to FP_REC_31` [63:0], RO, reset 0. -/
def FP_REC : Fld := ⟨0x1300, 0, 64, 0⟩
/-- R513 `FP_DEFECT_CTL.TILE` [8:0], WO, reset 0. -/
def FP_DEFECT_CTL_TILE : Fld := ⟨0x1400, 0, 9, 0⟩
/-- R513 `FP_DEFECT_CTL.ADD` [9], WO, reset 0. -/
def FP_DEFECT_CTL_ADD : Fld := ⟨0x1400, 9, 1, 0⟩
/-- R513 `FP_DEFECT_CTL.REMOVE` [10], WO, reset 0. -/
def FP_DEFECT_CTL_REMOVE : Fld := ⟨0x1400, 10, 1, 0⟩
/-- R513 `FP_DEFECT_STAT.COUNT` [9:0], RO, reset 0. -/
def FP_DEFECT_STAT_COUNT : Fld := ⟨0x1408, 0, 10, 0⟩
/-- R513 `FP_DEFECT_STAT.PENDING` [10], RO, reset 0. -/
def FP_DEFECT_STAT_PENDING : Fld := ⟨0x1408, 10, 1, 0⟩
/-- R513 `FP_DEFECT_STAT.LAST_REJECTED` [11], RO, reset 0. -/
def FP_DEFECT_STAT_LAST_REJECTED : Fld := ⟨0x1408, 11, 1, 0⟩
/-- R546 `FW_STAT.ACTIVE_SLOT` [0], RO, reset 0. -/
def FW_STAT_ACTIVE_SLOT : Fld := ⟨0x1800, 0, 1, 0⟩
/-- R546 `FW_STAT.ACT_STATE` [4:2], RO, reset 0. -/
def FW_STAT_ACT_STATE : Fld := ⟨0x1800, 2, 3, 0⟩
/-- R546 `FW_STAT.FAIL_CAUSE` [11:8], RO, reset 0. -/
def FW_STAT_FAIL_CAUSE : Fld := ⟨0x1800, 8, 4, 0⟩
/-- R546 `FW_STAT.TRIAL_LEFT_S` [25:16], RO, reset 0. -/
def FW_STAT_TRIAL_LEFT_S : Fld := ⟨0x1800, 16, 10, 0⟩
/-- R546 `FW_STAT.ACTIVATIONS` [63:32], RO, reset 0. -/
def FW_STAT_ACTIVATIONS : Fld := ⟨0x1800, 32, 32, 0⟩
/-- R546 `FW_ACT_CTL.ACTIVATE` [0], WO, reset 0. -/
def FW_ACT_CTL_ACTIVATE : Fld := ⟨0x1808, 0, 1, 0⟩
/-- R546 `FW_ACT_CTL.COLD` [1], WO, reset 0. -/
def FW_ACT_CTL_COLD : Fld := ⟨0x1808, 1, 1, 0⟩
/-- R546 `FW_ACT_CTL.CONFIRM` [2], WO, reset 0. -/
def FW_ACT_CTL_CONFIRM : Fld := ⟨0x1808, 2, 1, 0⟩
/-- R546 `FW_ACT_CTL.ABORT` [3], WO, reset 0. -/
def FW_ACT_CTL_ABORT : Fld := ⟨0x1808, 3, 1, 0⟩
/-- R546 `FW_CFG.CONFIRM_MODE` [0], RW, reset Settings. -/
def FW_CFG_CONFIRM_MODE : Fld := ⟨0x1810, 0, 1, 0⟩
/-- R546 `FW_CFG.SERVICE_ACTIVATE` [1], RW, reset Settings. -/
def FW_CFG_SERVICE_ACTIVATE : Fld := ⟨0x1810, 1, 1, 0⟩
/-- R546 `FW_CFG.SERVICE_WRITE_EN` [2], RW, reset Settings. -/
def FW_CFG_SERVICE_WRITE_EN : Fld := ⟨0x1810, 2, 1, 0⟩
/-- R546 `FW_SVN.COUNTER` [6:0], RO, reset Fused. -/
def FW_SVN_COUNTER : Fld := ⟨0x1818, 0, 7, 0⟩
/-- R546 `FW_BUNDLE` [63:0], RO, reset 0. -/
def FW_BUNDLE : Fld := ⟨0x1820, 0, 64, 0⟩
/-- R546 `FW_VER_0 to FW_VER_9` [63:0], RO, reset 0. -/
def FW_VER : Fld := ⟨0x1828, 0, 64, 0⟩
/-- R546 `FW_TRIAL_BUNDLE` [63:0], RO, reset 0. -/
def FW_TRIAL_BUNDLE : Fld := ⟨0x1878, 0, 64, 0⟩
/-- R547 `MGT_CORE_STAT.ACTIVE_CORE` [0], RO, reset 0. -/
def MGT_CORE_STAT_ACTIVE_CORE : Fld := ⟨0x2000, 0, 1, 0⟩
/-- R547 `MGT_CORE_STAT.STATE_0` [2:1], RO, reset 0. -/
def MGT_CORE_STAT_STATE_0 : Fld := ⟨0x2000, 1, 2, 0⟩
/-- R547 `MGT_CORE_STAT.STATE_1` [4:3], RO, reset 2. -/
def MGT_CORE_STAT_STATE_1 : Fld := ⟨0x2000, 3, 2, 2⟩
/-- R547 `MGT_CORE_STAT.HB_MAILBOX_OK` [5], RO, reset 0. -/
def MGT_CORE_STAT_HB_MAILBOX_OK : Fld := ⟨0x2000, 5, 1, 0⟩
/-- R547 `MGT_CORE_STAT.HB_WIRE_OK` [6], RO, reset 0. -/
def MGT_CORE_STAT_HB_WIRE_OK : Fld := ⟨0x2000, 6, 1, 0⟩
/-- R547 `MGT_CORE_STAT.SWITCHOVERS` [31:16], RO, reset 0. -/
def MGT_CORE_STAT_SWITCHOVERS : Fld := ⟨0x2000, 16, 16, 0⟩
/-- R547 `MGT_HEARTBEAT.COUNT` [31:0], RO, reset 0. -/
def MGT_HEARTBEAT_COUNT : Fld := ⟨0x2008, 0, 32, 0⟩
/-- R547 `MGT_CKPT.SEQ` [31:0], RO, reset 0. -/
def MGT_CKPT_SEQ : Fld := ⟨0x2010, 0, 32, 0⟩
/-- R547 `MGT_SB_STAT.DYN_ADDR` [6:0], RO, reset 0. -/
def MGT_SB_STAT_DYN_ADDR : Fld := ⟨0x2018, 0, 7, 0⟩
/-- R547 `MGT_SB_STAT.ADDR_VALID` [7], RO, reset 0. -/
def MGT_SB_STAT_ADDR_VALID : Fld := ⟨0x2018, 7, 1, 0⟩
/-- R547 `MGT_SB_STAT.EID` [15:8], RO, reset 0. -/
def MGT_SB_STAT_EID : Fld := ⟨0x2018, 8, 8, 0⟩
/-- R547 `MGT_SB_STAT.OUTBOX_PENDING` [23:16], RO, reset 0. -/
def MGT_SB_STAT_OUTBOX_PENDING : Fld := ⟨0x2018, 16, 8, 0⟩
/-- R547 `MGT_SB_STAT.BOOT_COUNT` [63:32], RO, reset 0. -/
def MGT_SB_STAT_BOOT_COUNT : Fld := ⟨0x2018, 32, 32, 0⟩
/-- R547 `MGT_SB_SEQ.LAST_SENT` [31:0], RO, reset 0. -/
def MGT_SB_SEQ_LAST_SENT : Fld := ⟨0x2020, 0, 32, 0⟩
/-- R547 `MGT_SB_SEQ.LAST_ACKED` [63:32], RO, reset 0. -/
def MGT_SB_SEQ_LAST_ACKED : Fld := ⟨0x2020, 32, 32, 0⟩
/-- R547 `MGT_LED.LOCATE` [1:0], RW, reset 0. -/
def MGT_LED_LOCATE : Fld := ⟨0x2028, 0, 2, 0⟩
/-- R547 `MGT_LED.STATUS` [5:2], RO, reset 0. -/
def MGT_LED_STATUS : Fld := ⟨0x2028, 2, 4, 0⟩
/-- R547 `MGT_EJECT_CTL.REQUEST` [0], WO, reset 0. -/
def MGT_EJECT_CTL_REQUEST : Fld := ⟨0x2030, 0, 1, 0⟩
/-- R547 `MGT_EJECT_CTL.CANCEL` [1], WO, reset 0. -/
def MGT_EJECT_CTL_CANCEL : Fld := ⟨0x2030, 1, 1, 0⟩
/-- R547 `MGT_EJECT_STAT.STATE` [1:0], RO, reset 0. -/
def MGT_EJECT_STAT_STATE : Fld := ⟨0x2038, 0, 2, 0⟩
/-- R547 `MGT_EJECT_STAT.SOURCE` [3:2], RO, reset 0. -/
def MGT_EJECT_STAT_SOURCE : Fld := ⟨0x2038, 2, 2, 0⟩
/-- R547 `MGT_EJECT_CFG.DRAIN_S` [9:0], RW, reset Settings. -/
def MGT_EJECT_CFG_DRAIN_S : Fld := ⟨0x2040, 0, 10, 0⟩
/-- R557 `SYS_ALERT.ASSERTED` [0], RO, reset 0. -/
def SYS_ALERT_ASSERTED : Fld := ⟨0x48, 0, 1, 0⟩
/-- R557 `SYS_ALERT.LEAK` [1], RO, reset 0. -/
def SYS_ALERT_LEAK : Fld := ⟨0x48, 1, 1, 0⟩
/-- R557 `SYS_ALERT.LOOP_FAULT` [2], RO, reset 0. -/
def SYS_ALERT_LOOP_FAULT : Fld := ⟨0x48, 2, 1, 0⟩
/-- R557 `SYS_ALERT.TRIP` [3], RO, reset 0. -/
def SYS_ALERT_TRIP : Fld := ⟨0x48, 3, 1, 0⟩
/-- R557 `SYS_ALERT.POWER_CYCLE` [4], RO, reset 0. -/
def SYS_ALERT_POWER_CYCLE : Fld := ⟨0x48, 4, 1, 0⟩

/-- The register rows of one TILE block. -/
def tileRows : List RegRow := [
  ⟨TILE_PREC_CTL, 0, 1, 0, 1, .ro⟩,
  ⟨TILE_SR_STATE, 0, 1, 0, 1, .ro⟩,
  ⟨TILE_PREC_SAMPLES, 0, 1, 0, 1, .ro⟩,
  ⟨TILE_PREC_EXCURSIONS, 0, 1, 0, 1, .ro⟩,
  ⟨TILE_PREC_ESCALATIONS, 0, 1, 0, 1, .ro⟩,
  ⟨TILE_PREC_SAT_QUANT, 0, 1, 0, 1, .ro⟩,
  ⟨TILE_PREC_SAT_OUT, 0, 1, 0, 1, .ro⟩,
  ⟨TILE_PREC_NAN_ZEROED, 0, 1, 0, 1, .ro⟩,
  ⟨TILE_PREC_MAX_ERR, 0, 1, 0, 1, .ro⟩,
  ⟨TILE_PREC_CLEAR, 0, 1, 0, 1, .wo⟩,
  ⟨TILE_STATUS_STATE, 0, 1, 0, 1, .ro⟩,
  ⟨TILE_STATUS_WAVE_HELD, 0, 1, 0, 1, .ro⟩,
  ⟨TILE_STATUS_CTX, 0, 1, 0, 1, .ro⟩,
  ⟨TILE_STATUS_LOGICAL, 0, 1, 0, 1, .ro⟩,
  ⟨TILE_STATUS_PHYS, 0, 1, 0, 1, .ro⟩,
  ⟨TILE_KERNEL_RING, 0, 1, 0, 1, .ro⟩,
  ⟨TILE_KERNEL_INDEX, 0, 1, 0, 1, .ro⟩,
  ⟨TILE_BUSY_CYCLES, 0, 1, 0, 1, .ro⟩,
  ⟨TILE_MATRIX_CYCLES, 0, 1, 0, 1, .ro⟩,
  ⟨TILE_MATRIX_MACS, 0, 1, 0, 1, .ro⟩,
  ⟨TILE_WLOAD_STALL_CYCLES, 0, 1, 0, 1, .ro⟩,
  ⟨TILE_BANK_WAIT_CYCLES, 0, 1, 0, 1, .ro⟩,
  ⟨TILE_RAMP_CYCLES, 0, 1, 0, 1, .ro⟩,
  ⟨TILE_WAVE_HOLD_CYCLES, 0, 1, 0, 1, .ro⟩,
  ⟨TILE_VECTOR_CYCLES, 0, 1, 0, 1, .ro⟩,
  ⟨TILE_DMA_READ_BYTES, 0, 1, 0, 1, .ro⟩,
  ⟨TILE_DMA_WRITE_BYTES, 0, 1, 0, 1, .ro⟩,
  ⟨TILE_CLEAR_COUNT, 0, 1, 0, 1, .ro⟩,
  ⟨TILE_CTR_CLEAR, 0, 1, 0, 1, .wo⟩,
  ⟨TILE_SEQ_PC_PC, 0, 1, 0, 1, .ro⟩,
  ⟨TILE_SEQ_STAT_WAIT_KIND, 0, 1, 0, 1, .ro⟩,
  ⟨TILE_SEQ_STAT_FAULTED, 0, 1, 0, 1, .ro⟩,
  ⟨TILE_SEQ_STAT_STOPPED, 0, 1, 0, 1, .ro⟩,
  ⟨TILE_SEQ_STAT_FAULT_CAUSE, 0, 1, 0, 1, .ro⟩,
  ⟨TILE_SEQ_STAT_PRED, 0, 1, 0, 1, .ro⟩,
  ⟨TILE_SEQ_STAT_DMA_QUEUED, 0, 1, 0, 1, .ro⟩,
  ⟨TILE_SEQ_STAT_GROUP_BUSY, 0, 1, 0, 1, .ro⟩,
  ⟨TILE_SEQ_FAULT_PC_PC, 0, 1, 0, 1, .ro⟩,
  ⟨TILE_SEQ_FAULT_INFO, 0, 1, 0, 1, .ro⟩,
  ⟨TILE_SEQ_RETIRED, 0, 1, 0, 1, .ro⟩,
  ⟨TILE_SEQ_A, 8, 16, 0, 1, .ro⟩,
  ⟨TILE_SEQ_S, 8, 32, 0, 1, .ro⟩,
  ⟨TILE_SP_CE, 0, 1, 0, 1, .ro⟩,
  ⟨TILE_SP_UE, 0, 1, 0, 1, .ro⟩,
  ⟨TILE_SP_LAST_CE_OFFSET, 0, 1, 0, 1, .ro⟩,
  ⟨TILE_SP_LAST_CE_BITS, 0, 1, 0, 1, .ro⟩,
  ⟨TILE_SP_LAST_CE_VALID, 0, 1, 0, 1, .ro⟩,
  ⟨TILE_SP_LAST_UE_OFFSET, 0, 1, 0, 1, .ro⟩,
  ⟨TILE_SP_LAST_UE_VALID, 0, 1, 0, 1, .ro⟩,
  ⟨TILE_SP_CLEAR, 0, 1, 0, 1, .wo⟩]

/-- The register rows of one KVW block. -/
def kvwRows : List RegRow := [
  ⟨KVW_STATUS_STATE, 0, 1, 0, 1, .ro⟩,
  ⟨KVW_STATUS_PRESENT, 0, 1, 0, 1, .ro⟩,
  ⟨KVW_STATUS_ACTIVE, 0, 1, 0, 1, .ro⟩,
  ⟨KVW_PAGES, 0, 1, 0, 1, .ro⟩,
  ⟨KVW_BYTES_LOCAL, 0, 1, 0, 1, .ro⟩,
  ⟨KVW_BYTES_REMOTE, 0, 1, 0, 1, .ro⟩,
  ⟨KVW_SUMMARIES, 0, 1, 0, 1, .ro⟩,
  ⟨KVW_CREDIT_STALL_CYCLES, 0, 1, 0, 1, .ro⟩,
  ⟨KVW_APPEND_TOKENS, 0, 1, 0, 1, .ro⟩,
  ⟨KVW_CTR_CLEAR, 0, 1, 0, 1, .wo⟩]

/-- The register rows of one STK block. -/
def stkRows : List RegRow := [
  ⟨MEM_STK_STATE_PRESENT, 0, 1, 0, 1, .ro⟩,
  ⟨MEM_STK_STATE_TRAINED, 0, 1, 0, 1, .ro⟩,
  ⟨MEM_STK_STATE_SPARE_ROWS, 0, 1, 0, 1, .ro⟩,
  ⟨MEM_STK_STATE_SPARE_COLS, 0, 1, 0, 1, .ro⟩,
  ⟨MEM_STK_CE_DEMAND, 0, 1, 0, 1, .ro⟩,
  ⟨MEM_STK_CE_SCRUB, 0, 1, 0, 1, .ro⟩,
  ⟨MEM_STK_UE_DEMAND, 0, 1, 0, 1, .ro⟩,
  ⟨MEM_STK_UE_SCRUB, 0, 1, 0, 1, .ro⟩,
  ⟨MEM_STK_CE_HIST_ONE, 0, 1, 0, 1, .ro⟩,
  ⟨MEM_STK_CE_HIST_TWO, 0, 1, 0, 1, .ro⟩,
  ⟨MEM_STK_CE_HIST_MID, 0, 1, 0, 1, .ro⟩,
  ⟨MEM_STK_CE_HIST_FULL, 0, 1, 0, 1, .ro⟩,
  ⟨MEM_STK_HARD_SUSPECT, 0, 1, 0, 1, .ro⟩,
  ⟨MEM_STK_LAST_CE_OFFSET, 0, 1, 0, 1, .ro⟩,
  ⟨MEM_STK_LAST_CE_SYMBOLS, 0, 1, 0, 1, .ro⟩,
  ⟨MEM_STK_LAST_CE_VALID, 0, 1, 0, 1, .ro⟩,
  ⟨MEM_STK_LAST_UE_OFFSET, 0, 1, 0, 1, .ro⟩,
  ⟨MEM_STK_LAST_UE_SCRUB, 0, 1, 0, 1, .ro⟩,
  ⟨MEM_STK_LAST_UE_VALID, 0, 1, 0, 1, .ro⟩,
  ⟨MEM_STK_CLEAR, 0, 1, 0, 1, .wo⟩]

/-- The register rows of one RRC block. -/
def rrcRows : List RegRow := [
  ⟨MEM_RRC_CTL_BYPASS, 0, 1, 0, 1, .rw⟩,
  ⟨MEM_RRC_CTL_INVALIDATE, 0, 1, 0, 1, .wo⟩,
  ⟨MEM_RRC_HITS, 0, 1, 0, 1, .ro⟩,
  ⟨MEM_RRC_MISSES, 0, 1, 0, 1, .ro⟩,
  ⟨MEM_RRC_FILLS_DROPPED, 0, 1, 0, 1, .ro⟩,
  ⟨MEM_RRC_INVALIDATED, 0, 1, 0, 1, .ro⟩,
  ⟨MEM_RRC_EVICTIONS, 0, 1, 0, 1, .ro⟩,
  ⟨MEM_RRC_CLEAR, 0, 1, 0, 1, .wo⟩]

/-- The register rows of one PART block. -/
def partRows : List RegRow := [
  ⟨PART_CFG_ENABLE, 0, 1, 0, 1, .rw⟩,
  ⟨PART_CFG_PKEY, 0, 1, 0, 1, .rw⟩,
  ⟨PART_CFG_RKEY, 0, 1, 0, 1, .rw⟩,
  ⟨PART_TILES, 8, 5, 0, 1, .rw⟩,
  ⟨PART_NOTIFY_QPN, 0, 1, 0, 1, .rw⟩,
  ⟨PART_NOTIFY_DROPS, 0, 1, 0, 1, .ro⟩,
  ⟨PART_CFG2_DSCP, 0, 1, 0, 1, .rw⟩,
  ⟨PART_WIN_BASE_OFFSET, 16, 4, 0, 1, .rw⟩,
  ⟨PART_WIN_BASE_RD, 16, 4, 0, 1, .rw⟩,
  ⟨PART_WIN_BASE_WR, 16, 4, 0, 1, .rw⟩,
  ⟨PART_WIN_LIMIT, 16, 4, 0, 1, .rw⟩,
  ⟨PART_STAT_GUARANTEE_SCALED, 0, 1, 0, 1, .ro⟩,
  ⟨PART_STAT_CONTEXTS, 0, 1, 0, 1, .ro⟩]

/-- The register rows of one ETH block. -/
def ethRows : List RegRow := [
  ⟨ETH_CFG_SPLIT, 0, 1, 0, 1, .rw⟩,
  ⟨ETH_CFG_PFC_EN, 0, 1, 0, 1, .rw⟩,
  ⟨ETH_CFG_PFC_PRIO, 0, 1, 0, 1, .rw⟩,
  ⟨ETH_CFG_ECN_EN, 0, 1, 0, 1, .rw⟩,
  ⟨ETH_CFG_MAX_FRAME, 0, 1, 0, 1, .rw⟩,
  ⟨ETH_STAT_UP_A, 0, 1, 0, 1, .ro⟩,
  ⟨ETH_STAT_UP_B, 0, 1, 0, 1, .ro⟩,
  ⟨ETH_STAT_CABLE_PRESENT, 0, 1, 0, 1, .ro⟩,
  ⟨ETH_STAT_CMIS_FAULT, 0, 1, 0, 1, .ro⟩,
  ⟨ETH_STAT_CMIS_STATE, 0, 1, 0, 1, .ro⟩,
  ⟨ETH_FEC_CORR, 0, 1, 0, 1, .ro⟩,
  ⟨ETH_FEC_UNCORR, 0, 1, 0, 1, .ro⟩,
  ⟨ETH_CNP_RX, 0, 1, 0, 1, .ro⟩,
  ⟨ETH_CNP_TX, 0, 1, 0, 1, .ro⟩,
  ⟨ETH_NAK_TX, 0, 1, 0, 1, .ro⟩,
  ⟨ETH_PTP_CFG_EN, 0, 1, 0, 1, .rw⟩,
  ⟨ETH_PTP_CFG_TRANSPORT, 0, 1, 0, 1, .rw⟩,
  ⟨ETH_PTP_CFG_DOMAIN, 0, 1, 0, 1, .rw⟩,
  ⟨ETH_PTP_OFFSET, 0, 1, 0, 1, .ro⟩]

/-- The register rows of one LNK block. -/
def lnkRows : List RegRow := [
  ⟨LNK_CFG_ENABLE, 0, 1, 0, 1, .rw⟩,
  ⟨LNK_CFG_PARTNER, 0, 1, 0, 1, .rw⟩,
  ⟨LNK_CFG_FAST, 0, 1, 0, 1, .rw⟩,
  ⟨LNK_CFG_FALLOW_EN, 0, 1, 0, 1, .rw⟩,
  ⟨LNK_CFG_ALLOW_FAR, 0, 1, 0, 1, .rw⟩,
  ⟨LNK_CFG_IDLE_NS, 0, 1, 0, 1, .rw⟩,
  ⟨LNK_CFG_RETRAIN_THRESH, 0, 1, 0, 1, .rw⟩,
  ⟨LNK_STATE_STATE, 0, 1, 0, 1, .ro⟩,
  ⟨LNK_STATE_FALLOW_TX, 0, 1, 0, 1, .ro⟩,
  ⟨LNK_STATE_FALLOW_RX, 0, 1, 0, 1, .ro⟩,
  ⟨LNK_STATE_CLOCK_LANES, 0, 1, 0, 1, .ro⟩,
  ⟨LNK_STATE_REVERSED, 0, 1, 0, 1, .ro⟩,
  ⟨LNK_STATE_FAST_USED, 0, 1, 0, 1, .ro⟩,
  ⟨LNK_STATE_LX7, 0, 1, 0, 1, .ro⟩,
  ⟨LNK_STATE_NO_PARTNER, 0, 1, 0, 1, .ro⟩,
  ⟨LNK_STATE_SETTINGS_VALID, 0, 1, 0, 1, .ro⟩,
  ⟨LNK_STATE_LAST_FAIL, 0, 1, 0, 1, .ro⟩,
  ⟨LNK_CTL_RETRAIN, 0, 1, 0, 1, .wo⟩,
  ⟨LNK_CTL_SAVE, 0, 1, 0, 1, .wo⟩,
  ⟨LNK_CTL_WAKE, 0, 1, 0, 1, .wo⟩,
  ⟨LNK_CTL_RETRY, 0, 1, 0, 1, .wo⟩,
  ⟨LNK_CTL_FORGET, 0, 1, 0, 1, .wo⟩,
  ⟨LNK_PARTNER_CHIP, 0, 1, 0, 1, .ro⟩,
  ⟨LNK_PARTNER_VALID, 0, 1, 0, 1, .ro⟩,
  ⟨LNK_PARTNER_LINK, 0, 1, 0, 1, .ro⟩,
  ⟨LNK_PARTNER_LX7, 0, 1, 0, 1, .ro⟩,
  ⟨LNK_PARTNER_KNOWN, 0, 1, 0, 1, .ro⟩,
  ⟨LNK_PARTNER_SERIAL, 0, 1, 0, 1, .ro⟩,
  ⟨LNK_FEC_CORR_CW, 0, 1, 0, 1, .ro⟩,
  ⟨LNK_FEC_CORR_BYTES, 0, 1, 0, 1, .ro⟩,
  ⟨LNK_FEC_UNCORR_CW, 0, 1, 0, 1, .ro⟩,
  ⟨LNK_CRC_FAIL, 0, 1, 0, 1, .ro⟩,
  ⟨LNK_NAK_TX, 0, 1, 0, 1, .ro⟩,
  ⟨LNK_REPLAYED, 0, 1, 0, 1, .ro⟩,
  ⟨LNK_REPLAY_FULL, 0, 1, 0, 1, .ro⟩,
  ⟨LNK_RETRAINS, 0, 1, 0, 1, .ro⟩,
  ⟨LNK_TRAIN_FAILS, 0, 1, 0, 1, .ro⟩,
  ⟨LNK_DROPPED_GROUPS, 0, 1, 0, 1, .ro⟩,
  ⟨LNK_BAD_CONTROL, 0, 1, 0, 1, .ro⟩,
  ⟨LNK_FALLOW_ENTRIES, 0, 1, 0, 1, .ro⟩,
  ⟨LNK_WAKE_FAILS, 0, 1, 0, 1, .ro⟩,
  ⟨LNK_FALLOW_NS, 0, 1, 0, 1, .ro⟩,
  ⟨LNK_CTR_CLEAR, 0, 1, 0, 1, .wo⟩,
  ⟨LNK_LANE_SEL, 0, 1, 0, 1, .rw⟩,
  ⟨LNK_LANE_STAT_LOCKED, 0, 1, 0, 1, .ro⟩,
  ⟨LNK_LANE_STAT_EYE, 0, 1, 0, 1, .ro⟩,
  ⟨LNK_LANE_CORR_BYTES, 0, 1, 0, 1, .ro⟩,
  ⟨LNK_LANE_PRBS_ERR, 0, 1, 0, 1, .ro⟩,
  ⟨LNK_TEST_CTL_MODE, 0, 1, 0, 1, .rw⟩,
  ⟨LNK_TEST_CTL_PATTERN, 0, 1, 0, 1, .rw⟩,
  ⟨LNK_TEST_STAT_RUNNING, 0, 1, 0, 1, .ro⟩,
  ⟨LNK_TEST_STAT_PARTNER_REFUSED, 0, 1, 0, 1, .ro⟩,
  ⟨LNK_TEST_STAT_SYNC, 0, 1, 0, 1, .ro⟩]

/-- The rows of the SYS registers. -/
def rowsSys : List RegRow := [
  ⟨SYS_ID_VENDOR, 0, 1, 0, 1, .ro⟩,
  ⟨SYS_ID_PART, 0, 1, 0, 1, .ro⟩,
  ⟨SYS_ID_VARIANT, 0, 1, 0, 1, .ro⟩,
  ⟨SYS_ID_STEPPING, 0, 1, 0, 1, .ro⟩,
  ⟨SYS_CHIP_Z, 0, 1, 0, 1, .ro⟩,
  ⟨SYS_CHIP_Y, 0, 1, 0, 1, .ro⟩,
  ⟨SYS_CHIP_X, 0, 1, 0, 1, .ro⟩,
  ⟨SYS_CHIP_VALID, 0, 1, 0, 1, .ro⟩,
  ⟨SYS_CHIP_CONFIRMED, 0, 1, 0, 1, .ro⟩,
  ⟨SYS_TIME, 0, 1, 0, 1, .ro⟩,
  ⟨SYS_TIME_STAT_LOCKED, 0, 1, 0, 1, .ro⟩,
  ⟨SYS_TIME_STAT_EVER_LOCKED, 0, 1, 0, 1, .ro⟩,
  ⟨SYS_TIME_STAT_BACKWARD_SLEW, 0, 1, 0, 1, .ro⟩,
  ⟨SYS_SNAP_DEST, 0, 1, 0, 1, .rw⟩,
  ⟨SYS_SNAP_CTL_GO, 0, 1, 0, 1, .wo⟩,
  ⟨SYS_SNAP_CTL_BUSY, 0, 1, 0, 1, .ro⟩,
  ⟨SYS_SNAP_CTL_FAILED, 0, 1, 0, 1, .ro⟩,
  ⟨SYS_SNAP_EPOCH, 0, 1, 0, 1, .ro⟩,
  ⟨SYS_RESET_CTL_MODULE, 0, 1, 0, 1, .wo⟩,
  ⟨SYS_RESET_CTL_WARM, 0, 1, 0, 1, .wo⟩,
  ⟨SYS_RESET_CTL_POWER_CYCLE, 0, 1, 0, 1, .wo⟩,
  ⟨SYS_RESET_STAT_LAST_CAUSE, 0, 1, 0, 1, .ro⟩,
  ⟨SYS_RESET_STAT_MODULE_RESETS, 0, 1, 0, 1, .ro⟩,
  ⟨SYS_RESET_STAT_WARM_RESETS, 0, 1, 0, 1, .ro⟩,
  ⟨SYS_ALERT_ASSERTED, 0, 1, 0, 1, .ro⟩,
  ⟨SYS_ALERT_LEAK, 0, 1, 0, 1, .ro⟩,
  ⟨SYS_ALERT_LOOP_FAULT, 0, 1, 0, 1, .ro⟩,
  ⟨SYS_ALERT_TRIP, 0, 1, 0, 1, .ro⟩,
  ⟨SYS_ALERT_POWER_CYCLE, 0, 1, 0, 1, .ro⟩]

/-- The rows of the PWR registers. -/
def rowsPwr : List RegRow := [
  ⟨PWR_DRILL_CTL_WAVE_SIZE, 0, 1, 0, 1, .rw⟩,
  ⟨PWR_DRILL_CTL_WAVE_GAP, 0, 1, 0, 1, .rw⟩,
  ⟨PWR_DRILL_CTL_OFFSET_EN, 0, 1, 0, 1, .rw⟩,
  ⟨PWR_DRILL_STAT_HELD, 8, 2, 0, 1, .ro⟩,
  ⟨PWR_DRILL_STAT_BURSTS, 8, 2, 0, 1, .ro⟩,
  ⟨PWR_CAP_EFF_WATTS, 0, 1, 0, 1, .ro⟩,
  ⟨PWR_CAP_EFF_SOURCES, 0, 1, 0, 1, .ro⟩,
  ⟨PWR_CAP_EFF_TDP, 0, 1, 0, 1, .ro⟩,
  ⟨PWR_CAP_RACK_WATTS, 0, 1, 0, 1, .ro⟩,
  ⟨PWR_CAP_RACK_VALID, 0, 1, 0, 1, .ro⟩,
  ⟨PWR_CAP_RACK_LOST, 0, 1, 0, 1, .ro⟩,
  ⟨PWR_CAP_RACK_ORPHAN, 0, 1, 0, 1, .ro⟩,
  ⟨PWR_CAP_HOST_WATTS, 0, 1, 0, 1, .rw⟩,
  ⟨PWR_CAP_HOST_VALID, 0, 1, 0, 1, .rw⟩,
  ⟨PWR_CAP_FW_WATTS, 0, 1, 0, 1, .ro⟩,
  ⟨PWR_CAP_FW_VALID, 0, 1, 0, 1, .ro⟩,
  ⟨PWR_CAP_UNMET_SHORTFALL_W, 0, 1, 0, 1, .ro⟩,
  ⟨PWR_CAP_UNMET_UNMET, 0, 1, 0, 1, .ro⟩,
  ⟨PWR_LIMIT_L_W, 0, 1, 0, 1, .ro⟩,
  ⟨PWR_LIMIT_COOLANT_W, 0, 1, 0, 1, .ro⟩,
  ⟨PWR_LIMIT_THERMAL_W, 0, 1, 0, 1, .ro⟩,
  ⟨PWR_LIMIT_VOLTAGE_W, 0, 1, 0, 1, .ro⟩,
  ⟨PWR_THROTTLE_REASONS, 0, 1, 0, 1, .ro⟩,
  ⟨PWR_EST_EST_W, 0, 1, 0, 1, .ro⟩,
  ⟨PWR_EST_INPUT_W, 0, 1, 0, 1, .ro⟩,
  ⟨PWR_EST_INPUT_V, 0, 1, 0, 1, .ro⟩,
  ⟨PWR_EST_INPUT_A, 0, 1, 0, 1, .ro⟩,
  ⟨PWR_THR_US, 8, 11, 0, 1, .ro⟩,
  ⟨PWR_ORPHAN_ORPHAN_W, 0, 1, 0, 1, .ro⟩,
  ⟨PWR_FREQ_F_D0, 0, 1, 0, 1, .ro⟩,
  ⟨PWR_FREQ_F_D1, 0, 1, 0, 1, .ro⟩,
  ⟨PWR_FREQ_DUTY_D0, 0, 1, 0, 1, .ro⟩,
  ⟨PWR_FREQ_DUTY_D1, 0, 1, 0, 1, .ro⟩,
  ⟨PWR_FREQ_TAMP_DUTY, 0, 1, 0, 1, .ro⟩,
  ⟨PWR_AGEING_TRIM_D0, 0, 1, 0, 1, .ro⟩,
  ⟨PWR_AGEING_TRIM_D1, 0, 1, 0, 1, .ro⟩,
  ⟨PWR_AGEING_FMAX_D0, 0, 1, 0, 1, .ro⟩,
  ⟨PWR_AGEING_FMAX_D1, 0, 1, 0, 1, .ro⟩,
  ⟨PWR_AGEING_CALIBRATIONS, 0, 1, 0, 1, .ro⟩,
  ⟨PWR_CFG_BOOST_EN, 0, 1, 0, 1, .rw⟩,
  ⟨PWR_CTR_CLEAR, 0, 1, 0, 1, .wo⟩,
  ⟨PWR_PART_GUAR_W, 8, 8, 0, 1, .rw⟩,
  ⟨PWR_PART_WEIGHT, 8, 8, 0, 1, .rw⟩,
  ⟨PWR_PART_SCALED, 8, 8, 0, 1, .ro⟩,
  ⟨PWR_PART_ALLOC_W, 8, 8, 0, 1, .ro⟩,
  ⟨PWR_PART_USE_W, 8, 8, 0, 1, .ro⟩,
  ⟨PWR_RAILS_RACK_OFF, 0, 1, 0, 1, .ro⟩,
  ⟨PWR_RAILS_HOST_OFF, 0, 1, 0, 1, .rw⟩,
  ⟨PWR_RAILS_ON, 0, 1, 0, 1, .ro⟩,
  ⟨PWR_RAILS_COOLANT_OK, 0, 1, 0, 1, .ro⟩,
  ⟨PWR_RAILS_BRAKE, 0, 1, 0, 1, .ro⟩,
  ⟨PWR_RAILS_LAST_OFF_CAUSE, 0, 1, 0, 1, .ro⟩]

/-- The rows of the MEM registers. -/
def rowsMem : List RegRow := [
  ⟨MEM_STATUS_STACKS_PRESENT, 0, 1, 0, 1, .ro⟩,
  ⟨MEM_STATUS_STACKS_FAILED, 0, 1, 0, 1, .ro⟩,
  ⟨MEM_STATUS_LAYOUT_DEFAULT, 0, 1, 0, 1, .ro⟩,
  ⟨MEM_USABLE, 0, 1, 0, 1, .ro⟩,
  ⟨MEM_REGION_VALID, 8, 8, 0, 1, .ro⟩,
  ⟨MEM_REGION_LEVEL, 8, 8, 0, 1, .ro⟩,
  ⟨MEM_REGION_SET, 8, 8, 0, 1, .ro⟩,
  ⟨MEM_REGION_RAW_GIB, 8, 8, 0, 1, .ro⟩,
  ⟨MEM_REGION_BASE, 8, 8, 0, 1, .ro⟩,
  ⟨MEM_GLN_CTL_PERIOD, 0, 1, 0, 1, .rw⟩,
  ⟨MEM_GLN_CTL_PAGE_THRESH, 0, 1, 0, 1, .rw⟩,
  ⟨MEM_GLN_STAT_PASSES, 0, 1, 0, 1, .ro⟩,
  ⟨MEM_GLN_STAT_PROGRESS, 0, 1, 0, 1, .ro⟩,
  ⟨MEM_GLN_REWRITES, 0, 1, 0, 1, .ro⟩,
  ⟨MEM_GLN_PAGE_SEL, 0, 1, 0, 1, .rw⟩,
  ⟨MEM_GLN_PAGE_DATA_COUNT, 0, 1, 0, 1, .ro⟩,
  ⟨MEM_GLN_PAGE_DATA_OVER, 0, 1, 0, 1, .ro⟩,
  ⟨MEM_GLN_PAGE_CLEAR, 0, 1, 0, 1, .wo⟩,
  ⟨MEM_INIT_WRITTEN_D0, 0, 1, 0, 1, .ro⟩,
  ⟨MEM_INIT_WRITTEN_D1, 0, 1, 0, 1, .ro⟩,
  ⟨MEM_COPY_REFETCH, 0, 1, 0, 1, .ro⟩,
  ⟨MEM_REPAIR_STAT_APPLIED, 0, 1, 0, 1, .ro⟩,
  ⟨MEM_REPAIR_STAT_QUEUED, 0, 1, 0, 1, .ro⟩,
  ⟨MEM_REPAIR_STAT_SKIPPED, 0, 1, 0, 1, .ro⟩]

/-- The rows of the CMD registers. -/
def rowsCmd : List RegRow := [
  ⟨CMD_RING_SEL, 0, 1, 0, 1, .rw⟩,
  ⟨CMD_RING_CFG0_BASE, 0, 1, 0, 1, .rw⟩,
  ⟨CMD_RING_CFG0_LOG2_SIZE, 0, 1, 0, 1, .rw⟩,
  ⟨CMD_RING_CFG0_ORDER, 0, 1, 0, 1, .rw⟩,
  ⟨CMD_RING_CFG0_DIE, 0, 1, 0, 1, .rw⟩,
  ⟨CMD_RING_CFG0_ENABLE, 0, 1, 0, 1, .rw⟩,
  ⟨CMD_RING_CFG0_CTX, 0, 1, 0, 1, .rw⟩,
  ⟨CMD_RING_CFG1_TIMEOUT_MS, 0, 1, 0, 1, .rw⟩,
  ⟨CMD_RING_CFG1_CQ_LOG2_SIZE, 0, 1, 0, 1, .rw⟩,
  ⟨CMD_RING_CFG1_CQ_HOST, 0, 1, 0, 1, .rw⟩,
  ⟨CMD_RING_CFG1_CQ_QPN, 0, 1, 0, 1, .rw⟩,
  ⟨CMD_RING_CQ_ADDR, 0, 1, 0, 1, .rw⟩,
  ⟨CMD_RING_CQ_RKEY, 0, 1, 0, 1, .rw⟩,
  ⟨CMD_RING_STAT_STATE, 0, 1, 0, 1, .ro⟩,
  ⟨CMD_RING_STAT_LAST_STATUS, 0, 1, 0, 1, .ro⟩,
  ⟨CMD_RING_IDX_PRODUCER, 0, 1, 0, 1, .ro⟩,
  ⟨CMD_RING_IDX_CONSUMED, 0, 1, 0, 1, .ro⟩,
  ⟨CMD_RING_CQ_IDX_CQ_PRODUCED, 0, 1, 0, 1, .ro⟩,
  ⟨CMD_RING_CQ_IDX_CQ_CONSUMED, 0, 1, 0, 1, .ro⟩,
  ⟨CMD_DOORBELL_DISCARDS, 0, 1, 0, 1, .ro⟩,
  ⟨CMD_STALE_DOORBELLS, 0, 1, 0, 1, .ro⟩,
  ⟨CMD_CFG_REJECTS, 0, 1, 0, 1, .ro⟩,
  ⟨CMD_REG_MISALIGNED, 0, 1, 0, 1, .ro⟩]

/-- The rows of the CTX registers. -/
def rowsCtx : List RegRow := [
  ⟨CTX_SEL, 0, 1, 0, 1, .rw⟩,
  ⟨CTX_CFG_PARTITION, 0, 1, 0, 1, .rw⟩,
  ⟨CTX_CFG_ENABLE, 0, 1, 0, 1, .rw⟩,
  ⟨CTX_STAT_STATE, 0, 1, 0, 1, .ro⟩,
  ⟨CTX_STAT_FAULT_STATUS, 0, 1, 0, 1, .ro⟩,
  ⟨CTX_STAT_RINGS, 0, 1, 0, 1, .ro⟩,
  ⟨CTX_RST_CFG_AUTO_MS, 0, 1, 0, 1, .rw⟩,
  ⟨CTX_RST_CFG_DUMP_ON_FAULT, 0, 1, 0, 1, .rw⟩,
  ⟨CTX_DUMP_ADDR, 0, 1, 0, 1, .rw⟩,
  ⟨CTX_RST_CTL_GO, 0, 1, 0, 1, .wo⟩,
  ⟨CTX_RST_STAT_LAST_LEVEL, 0, 1, 0, 1, .ro⟩,
  ⟨CTX_RST_STAT_DUMP_FAILED, 0, 1, 0, 1, .ro⟩,
  ⟨CTX_RST_STAT_RESETS, 0, 1, 0, 1, .ro⟩,
  ⟨CTX_RST_STAT_UNACKED_WRITES, 0, 1, 0, 1, .ro⟩]

/-- The rows of the FAB registers. -/
def rowsFab : List RegRow := [
  ⟨FAB_TOPO_SX, 0, 1, 0, 1, .ro⟩,
  ⟨FAB_TOPO_SY, 0, 1, 0, 1, .ro⟩,
  ⟨FAB_TOPO_SZ, 0, 1, 0, 1, .ro⟩,
  ⟨FAB_TOPO_DATELINE, 0, 1, 0, 1, .ro⟩,
  ⟨FAB_CFG_HL_WAIT_NS, 0, 1, 0, 1, .rw⟩,
  ⟨FAB_CFG_DOWN_HOLD_MS, 0, 1, 0, 1, .rw⟩,
  ⟨FAB_EPOCH_CURRENT, 0, 1, 0, 1, .rw⟩,
  ⟨FAB_EPOCH_SWITCHES, 0, 1, 0, 1, .ro⟩,
  ⟨FAB_EPOCH_STAT_INFLIGHT_0, 0, 1, 0, 1, .ro⟩,
  ⟨FAB_EPOCH_STAT_INFLIGHT_1, 0, 1, 0, 1, .ro⟩,
  ⟨FAB_RT_SEL_INDEX, 0, 1, 0, 1, .rw⟩,
  ⟨FAB_RT_SEL_VERSION, 0, 1, 0, 1, .rw⟩,
  ⟨FAB_RT_SEL_MCAST, 0, 1, 0, 1, .rw⟩,
  ⟨FAB_RT_DATA, 0, 1, 0, 1, .rw⟩,
  ⟨FAB_PART_WEIGHT, 0, 1, 0, 1, .rw⟩,
  ⟨FAB_DROP_MALFORMED, 0, 1, 0, 1, .ro⟩,
  ⟨FAB_DROP_HOPS, 0, 1, 0, 1, .ro⟩,
  ⟨FAB_DROP_NOROUTE, 0, 1, 0, 1, .ro⟩,
  ⟨FAB_DROP_LINKDOWN, 0, 1, 0, 1, .ro⟩,
  ⟨FAB_HL_ENTRIES, 0, 1, 0, 1, .ro⟩,
  ⟨FAB_FENCE_HOLD_NS, 0, 1, 0, 1, .ro⟩,
  ⟨FAB_PASS_BYTES, 0, 1, 0, 1, .ro⟩,
  ⟨FAB_RT_REJECTS, 0, 1, 0, 1, .ro⟩,
  ⟨FAB_CTR_CLEAR, 0, 1, 0, 1, .wo⟩]

/-- The rows of the COL registers. -/
def rowsCol : List RegRow := [
  ⟨COL_GROUP_SEL, 0, 1, 0, 1, .rw⟩,
  ⟨COL_GROUP_ADDR, 0, 1, 0, 1, .rw⟩,
  ⟨COL_GROUP_CTL_DEFINE, 0, 1, 0, 1, .wo⟩,
  ⟨COL_GROUP_CTL_UNDEFINE, 0, 1, 0, 1, .wo⟩,
  ⟨COL_GROUP_STAT_DEFINED, 0, 1, 0, 1, .ro⟩,
  ⟨COL_GROUP_STAT_DEF_FAILED, 0, 1, 0, 1, .ro⟩,
  ⟨COL_GROUP_STAT_PARTITION, 0, 1, 0, 1, .ro⟩,
  ⟨COL_GROUP_STAT_MEMBERS, 0, 1, 0, 1, .ro⟩,
  ⟨COL_GROUP_STAT_POSITION, 0, 1, 0, 1, .ro⟩,
  ⟨COL_GROUP_STAT_FAIL_CAUSE, 0, 1, 0, 1, .ro⟩,
  ⟨COL_GROUP_HASH_HASH, 0, 1, 0, 1, .ro⟩,
  ⟨COL_GROUP_HASH_WINDOW_NS, 0, 1, 0, 1, .ro⟩,
  ⟨COL_QUOTA, 0, 1, 8, 8, .rw⟩,
  ⟨COL_QUOTA_USED, 0, 1, 8, 8, .ro⟩,
  ⟨COL_SLOTS_LO, 0, 1, 16, 4, .rw⟩,
  ⟨COL_SLOTS_HI, 0, 1, 16, 4, .rw⟩,
  ⟨COL_INFLIGHT_ADMITTED, 0, 1, 0, 1, .ro⟩,
  ⟨COL_INFLIGHT_WAITING, 0, 1, 0, 1, .ro⟩,
  ⟨COL_INFLIGHT_STRIP, 0, 1, 0, 1, .ro⟩,
  ⟨COL_LAST_SEQ, 8, 8, 0, 1, .ro⟩,
  ⟨COL_COMPLETED, 0, 1, 0, 1, .ro⟩,
  ⟨COL_STRIP_RUNS, 0, 1, 0, 1, .ro⟩,
  ⟨COL_RESIDUE_FAULTS, 0, 1, 0, 1, .ro⟩,
  ⟨COL_REVOKES_SENT, 0, 1, 0, 1, .ro⟩,
  ⟨COL_REVOKES_RECEIVED, 0, 1, 0, 1, .ro⟩,
  ⟨COL_LATE_REVOKES, 0, 1, 0, 1, .ro⟩,
  ⟨COL_STRAY_PACKETS, 0, 1, 0, 1, .ro⟩,
  ⟨COL_A2A_DROPPED_ROWS, 0, 1, 0, 1, .ro⟩,
  ⟨COL_ADMIT_WAIT_NS, 0, 1, 0, 1, .ro⟩,
  ⟨COL_CTR_CLEAR, 0, 1, 0, 1, .wo⟩]

/-- The rows of the THM registers. -/
def rowsThm : List RegRow := [
  ⟨THM_CFG_TJ_THROTTLE, 0, 1, 0, 1, .rw⟩,
  ⟨THM_CFG_HBM_THROTTLE, 0, 1, 0, 1, .rw⟩,
  ⟨THM_STAT_TJ_MAX_D0, 0, 1, 0, 1, .ro⟩,
  ⟨THM_STAT_TJ_MAX_D1, 0, 1, 0, 1, .ro⟩,
  ⟨THM_STAT_TJ_MAX_HUB, 0, 1, 0, 1, .ro⟩,
  ⟨THM_STAT_FAILED, 0, 1, 0, 1, .ro⟩,
  ⟨THM_STAT_MODEL_DIVERGED, 0, 1, 0, 1, .ro⟩,
  ⟨THM_STAT_HALF_LIMIT, 0, 1, 0, 1, .ro⟩,
  ⟨THM_STAT_TRIPPED, 0, 1, 0, 1, .ro⟩,
  ⟨THM_STAT_LOOP, 0, 1, 0, 1, .ro⟩,
  ⟨THM_SENSOR_READING, 8, 64, 0, 1, .ro⟩,
  ⟨THM_SENSOR_MODEL, 8, 64, 0, 1, .ro⟩,
  ⟨THM_SENSOR_PRESENT, 8, 64, 0, 1, .ro⟩,
  ⟨THM_SENSOR_FAILED, 8, 64, 0, 1, .ro⟩,
  ⟨THM_SENSOR_SUBSTITUTED, 8, 64, 0, 1, .ro⟩]

/-- The rows of the CLN registers. -/
def rowsCln : List RegRow := [
  ⟨CLN_STAT_COOLANT_OK, 0, 1, 0, 1, .ro⟩,
  ⟨CLN_STAT_LEAK_STATE, 0, 1, 0, 1, .ro⟩,
  ⟨CLN_STAT_INLET_HIGH, 0, 1, 0, 1, .ro⟩,
  ⟨CLN_STAT_INLET_SEVERE, 0, 1, 0, 1, .ro⟩,
  ⟨CLN_STAT_INLET_LOW, 0, 1, 0, 1, .ro⟩,
  ⟨CLN_STAT_EXCESS_RISE, 0, 1, 0, 1, .ro⟩,
  ⟨CLN_STAT_OFF_PENDING, 0, 1, 0, 1, .ro⟩,
  ⟨CLN_STAT_OFF_IN_MS, 0, 1, 0, 1, .ro⟩,
  ⟨CLN_STAT_LOOP_OHMS, 0, 1, 0, 1, .ro⟩,
  ⟨CLN_STAT_EXCESS_RATE, 0, 1, 0, 1, .ro⟩,
  ⟨CLN_CFG_GRACE_S, 0, 1, 0, 1, .rw⟩,
  ⟨CLN_CFG_LEAK_OFF_S, 0, 1, 0, 1, .rw⟩,
  ⟨CLN_EVENTS_LEAKS, 0, 1, 0, 1, .ro⟩,
  ⟨CLN_EVENTS_LOOP_FAULTS, 0, 1, 0, 1, .ro⟩,
  ⟨CLN_EVENTS_COOLANT_LOSSES, 0, 1, 0, 1, .ro⟩,
  ⟨CLN_EVENTS_RISES, 0, 1, 0, 1, .ro⟩,
  ⟨CLN_CTR_CLEAR, 0, 1, 0, 1, .wo⟩]

/-- The rows of the LOG registers. -/
def rowsLog : List RegRow := [
  ⟨LOG_HEAD, 0, 1, 0, 1, .ro⟩,
  ⟨LOG_TAIL, 0, 1, 0, 1, .ro⟩,
  ⟨LOG_SEL, 0, 1, 0, 1, .rw⟩,
  ⟨LOG_STAT_SEL_VALID, 0, 1, 0, 1, .ro⟩,
  ⟨LOG_STAT_SUPPRESSED, 0, 1, 0, 1, .ro⟩,
  ⟨LOG_REC, 8, 8, 0, 1, .ro⟩]

/-- The rows of the RST registers. -/
def rowsRst : List RegRow := [
  ⟨RST_CFG_AUTO_ESCALATE, 0, 1, 0, 1, .rw⟩,
  ⟨RST_STAT_IN_PROGRESS, 0, 1, 0, 1, .ro⟩,
  ⟨RST_STAT_STEP, 0, 1, 0, 1, .ro⟩,
  ⟨RST_PART_CTL_GO, 0, 1, 0, 1, .wo⟩,
  ⟨RST_COUNTS_CONTEXT, 0, 1, 0, 1, .ro⟩,
  ⟨RST_COUNTS_ENGINE, 0, 1, 0, 1, .ro⟩,
  ⟨RST_COUNTS_PARTITION, 0, 1, 0, 1, .ro⟩,
  ⟨RST_STEP_TIMEOUTS, 0, 1, 0, 1, .ro⟩,
  ⟨RST_REJECTS, 0, 1, 0, 1, .ro⟩]

/-- The rows of the BOOT registers. -/
def rowsBoot : List RegRow := [
  ⟨BOOT_STAT_STEP, 0, 1, 0, 1, .ro⟩,
  ⟨BOOT_STAT_STATE, 0, 1, 0, 1, .ro⟩,
  ⟨BOOT_STAT_WARM, 0, 1, 0, 1, .ro⟩,
  ⟨BOOT_STAT_CAUSE, 0, 1, 0, 1, .ro⟩,
  ⟨BOOT_STAT_SLOT, 0, 1, 0, 1, .ro⟩,
  ⟨BOOT_STAT_SLOT_FALLBACK, 0, 1, 0, 1, .ro⟩,
  ⟨BOOT_STAT_TOTAL_MS, 0, 1, 0, 1, .ro⟩,
  ⟨BOOT_STEP_MS, 8, 9, 0, 1, .ro⟩,
  ⟨BOOT_TOPO_RESULT, 0, 1, 0, 1, .ro⟩,
  ⟨BOOT_TOPO_PEER_DIFFERS, 0, 1, 0, 1, .ro⟩,
  ⟨BOOT_TOPO_PEER_SILENT, 0, 1, 0, 1, .ro⟩]

/-- The rows of the LIC registers. -/
def rowsLic : List RegRow := [
  ⟨LIC_CAP0_WALKERS, 0, 1, 0, 1, .ro⟩,
  ⟨LIC_CAP0_SIFT, 0, 1, 0, 1, .ro⟩,
  ⟨LIC_CAP0_ESCALATE, 0, 1, 0, 1, .ro⟩,
  ⟨LIC_CAP0_Z_AXIS, 0, 1, 0, 1, .ro⟩,
  ⟨LIC_CAP0_LINKS, 0, 1, 0, 1, .ro⟩,
  ⟨LIC_CAP0_PORTS, 0, 1, 0, 1, .ro⟩,
  ⟨LIC_CAP0_STACKS, 0, 1, 0, 1, .ro⟩,
  ⟨LIC_CAP0_MAX_SEQ_LOG2, 0, 1, 0, 1, .ro⟩,
  ⟨LIC_CAP1_TDP_W, 0, 1, 0, 1, .ro⟩,
  ⟨LIC_CAP1_MIN_TILES, 0, 1, 0, 1, .ro⟩,
  ⟨LIC_STAT_VALID, 0, 1, 0, 1, .ro⟩,
  ⟨LIC_STAT_FAIL, 0, 1, 0, 1, .ro⟩,
  ⟨LIC_SERIAL, 0, 1, 0, 1, .ro⟩]

/-- The rows of the FP registers. -/
def rowsFp : List RegRow := [
  ⟨FP_TILES, 8, 5, 0, 1, .ro⟩,
  ⟨FP_COUNT_TOTAL, 0, 1, 0, 1, .ro⟩,
  ⟨FP_COUNT_D0, 0, 1, 0, 1, .ro⟩,
  ⟨FP_COUNT_D1, 0, 1, 0, 1, .ro⟩,
  ⟨FP_COUNT_WALKERS, 0, 1, 0, 1, .ro⟩,
  ⟨FP_REC, 8, 32, 0, 1, .ro⟩,
  ⟨FP_DEFECT_CTL_TILE, 0, 1, 0, 1, .wo⟩,
  ⟨FP_DEFECT_CTL_ADD, 0, 1, 0, 1, .wo⟩,
  ⟨FP_DEFECT_CTL_REMOVE, 0, 1, 0, 1, .wo⟩,
  ⟨FP_DEFECT_STAT_COUNT, 0, 1, 0, 1, .ro⟩,
  ⟨FP_DEFECT_STAT_PENDING, 0, 1, 0, 1, .ro⟩,
  ⟨FP_DEFECT_STAT_LAST_REJECTED, 0, 1, 0, 1, .ro⟩]

/-- The rows of the FW registers. -/
def rowsFw : List RegRow := [
  ⟨FW_STAT_ACTIVE_SLOT, 0, 1, 0, 1, .ro⟩,
  ⟨FW_STAT_ACT_STATE, 0, 1, 0, 1, .ro⟩,
  ⟨FW_STAT_FAIL_CAUSE, 0, 1, 0, 1, .ro⟩,
  ⟨FW_STAT_TRIAL_LEFT_S, 0, 1, 0, 1, .ro⟩,
  ⟨FW_STAT_ACTIVATIONS, 0, 1, 0, 1, .ro⟩,
  ⟨FW_ACT_CTL_ACTIVATE, 0, 1, 0, 1, .wo⟩,
  ⟨FW_ACT_CTL_COLD, 0, 1, 0, 1, .wo⟩,
  ⟨FW_ACT_CTL_CONFIRM, 0, 1, 0, 1, .wo⟩,
  ⟨FW_ACT_CTL_ABORT, 0, 1, 0, 1, .wo⟩,
  ⟨FW_CFG_CONFIRM_MODE, 0, 1, 0, 1, .rw⟩,
  ⟨FW_CFG_SERVICE_ACTIVATE, 0, 1, 0, 1, .rw⟩,
  ⟨FW_CFG_SERVICE_WRITE_EN, 0, 1, 0, 1, .rw⟩,
  ⟨FW_SVN_COUNTER, 0, 1, 0, 1, .ro⟩,
  ⟨FW_BUNDLE, 0, 1, 0, 1, .ro⟩,
  ⟨FW_VER, 8, 10, 0, 1, .ro⟩,
  ⟨FW_TRIAL_BUNDLE, 0, 1, 0, 1, .ro⟩]

/-- The rows of the MGT registers. -/
def rowsMgt : List RegRow := [
  ⟨MGT_CORE_STAT_ACTIVE_CORE, 0, 1, 0, 1, .ro⟩,
  ⟨MGT_CORE_STAT_STATE_0, 0, 1, 0, 1, .ro⟩,
  ⟨MGT_CORE_STAT_STATE_1, 0, 1, 0, 1, .ro⟩,
  ⟨MGT_CORE_STAT_HB_MAILBOX_OK, 0, 1, 0, 1, .ro⟩,
  ⟨MGT_CORE_STAT_HB_WIRE_OK, 0, 1, 0, 1, .ro⟩,
  ⟨MGT_CORE_STAT_SWITCHOVERS, 0, 1, 0, 1, .ro⟩,
  ⟨MGT_HEARTBEAT_COUNT, 0, 1, 0, 1, .ro⟩,
  ⟨MGT_CKPT_SEQ, 0, 1, 0, 1, .ro⟩,
  ⟨MGT_SB_STAT_DYN_ADDR, 0, 1, 0, 1, .ro⟩,
  ⟨MGT_SB_STAT_ADDR_VALID, 0, 1, 0, 1, .ro⟩,
  ⟨MGT_SB_STAT_EID, 0, 1, 0, 1, .ro⟩,
  ⟨MGT_SB_STAT_OUTBOX_PENDING, 0, 1, 0, 1, .ro⟩,
  ⟨MGT_SB_STAT_BOOT_COUNT, 0, 1, 0, 1, .ro⟩,
  ⟨MGT_SB_SEQ_LAST_SENT, 0, 1, 0, 1, .ro⟩,
  ⟨MGT_SB_SEQ_LAST_ACKED, 0, 1, 0, 1, .ro⟩,
  ⟨MGT_LED_LOCATE, 0, 1, 0, 1, .rw⟩,
  ⟨MGT_LED_STATUS, 0, 1, 0, 1, .ro⟩,
  ⟨MGT_EJECT_CTL_REQUEST, 0, 1, 0, 1, .wo⟩,
  ⟨MGT_EJECT_CTL_CANCEL, 0, 1, 0, 1, .wo⟩,
  ⟨MGT_EJECT_STAT_STATE, 0, 1, 0, 1, .ro⟩,
  ⟨MGT_EJECT_STAT_SOURCE, 0, 1, 0, 1, .ro⟩,
  ⟨MGT_EJECT_CFG_DRAIN_S, 0, 1, 0, 1, .rw⟩]

/-- Every global register row. -/
def globRows : List RegRow :=
  rowsSys ++ rowsPwr ++ rowsMem ++ rowsCmd ++ rowsCtx ++ rowsFab ++ rowsCol ++ rowsThm ++ rowsCln ++ rowsLog ++ rowsRst ++ rowsBoot ++ rowsLic ++ rowsFp ++ rowsFw ++ rowsMgt

/-- The rows of a kind of block. -/
def rows : Blk → List RegRow
  | .glob => globRows | .tile => tileRows | .kvw => kvwRows | .stk => stkRows
  | .rrc => rrcRows | .part => partRows | .eth => ethRows | .lnk => lnkRows

end Sys2Proof.Machine.Reg
end

