-- ==== Sys2Proof/Machine/SMap.lean ====
section
/-! DEFINITION. Machine/SMap.lean: reading and writing a sparse map. `d` is always what an unlisted key reads as, so
writing `d` removes the entry and equal contents are equal lists. -/

namespace Sys2Proof.Machine

/-- The value at key `k`. -/
def smLook (d : α) : SMap α → Nat → α
  | [], _ => d
  | (k, v) :: m, x => if x = k then v else smLook d m x

/-- The map without key `x`. -/
def smDel (m : SMap α) (x : Nat) : SMap α := m.filter fun e => e.1 != x

/-- The map with `w` at key `x`, in rising key order. -/
def smIns : SMap α → Nat → α → SMap α
  | [], x, w => [(x, w)]
  | (k, v) :: m, x, w =>
    if x < k then (x, w) :: (k, v) :: m
    else if x = k then (x, w) :: m
    else (k, v) :: smIns m x w

/-- Write: the default value is not listed. -/
def smPut [DecidableEq α] (d : α) (m : SMap α) (x : Nat) (w : α) : SMap α :=
  if w = d then smDel m x else smIns m x w

/-- Change the value at `x` by `f`. -/
def smMod [DecidableEq α] (d : α) (m : SMap α) (x : Nat) (f : α → α) : SMap α :=
  smPut d m x (f (smLook d m x))

/-- Remove every key of `[lo, lo+n)`: the range reads as the default. -/
def smClear (m : SMap α) (lo n : Nat) : SMap α := m.filter fun e => e.1 < lo || lo + n ≤ e.1

/-- Keys strictly rising. -/
def smSorted : SMap α → Bool
  | [] => true
  | (k, _) :: m => m.all (fun e => decide (k < e.1)) && smSorted m

/-- The canonical form: keys strictly rising and no entry equal to the default. -/
def smWf [DecidableEq α] (d : α) (m : SMap α) : Bool := smSorted m && m.all fun e => decide (e.2 ≠ d)

/-- Write consecutive values from key `x` on. -/
def smPutList [DecidableEq α] (d : α) (m : SMap α) (x : Nat) : List α → SMap α
  | [] => m
  | w :: ws => smPutList d (smPut d m x w) (x + 1) ws

/-- Read `n` consecutive values from key `x` on. -/
def smLookList (d : α) (m : SMap α) (x : Nat) : Nat → List α
  | 0 => []
  | n + 1 => smLook d m x :: smLookList d m (x + 1) n

end Sys2Proof.Machine
end

