-- ==== Sys2Proof/Config.lean ====
section
/-! DEFINITION. Config.lean: what the spec leaves open. Each is a constant without a body, so that nothing can be
proved about its value; the log entry that declares it is named. -/

namespace Sys2Proof.Config

/-- A free 64-bit value for the n-th open choice of a run (log entry 3). -/
opaque freeValue : Nat → B64

/-- The candidate that special function `fn` (0 exp2, 1 log2, 2 reciprocal, 3 reciprocal square root) offers for an
FP32 input outside the exact cases of R578 (log entry 5). -/
opaque sfu : Nat → B32 → B32

/-- The payload of a NaN that an arithmetic operation produces, as a function of its operands (log entry 6). -/
opaque nanPayload : Nat → B32

/-- The candidate for the cosine (false) or sine (true) of a phase, within the bound of R174 (log entry 7). -/
opaque rotary : Bool → Nat → B32

/-- Whether an ML-DSA-65 signature verifies (R490, R533; FIPS 204 is not modelled, log entry 8): public key, message,
signature. -/
opaque signatureOk : List Byte → List Byte → List Byte → Bool

/-- The SHAKE256 digest of a message, as its first `n` bytes (log entry 8). -/
opaque shake256 : List Byte → Nat → List Byte

/-- What an error beyond the correction strength becomes (R205, R231): n-th such read; 0 is reported uncorrectable,
any other value is delivered wrong (log entry 9). -/
opaque errOutcome : Nat → Nat

/-- Byte `i` of the n-th wrongly delivered block or word (R205, R231; log entry 9). -/
opaque misread : Nat → Nat → Byte

/-- The pseudo-channel, SID, bank, row and column group of a segment of a stack, as a repair-record entry with SOURCE
zero: the fixed hash of R208, which the spec does not give (log entry 10). -/
opaque dramLoc : Nat → Nat → Nat

/-- The set of a remote-read cache block (R355 gives 16 ways and no indexing; log entry 11). -/
opaque rrcSet : Nat → Nat

/-- The fingerprint of OP, CTL, DTYPE, COUNT and ROW_BYTES (R403 gives no function; log entry 12). -/
opaque fingerprint : List Byte → B32

end Sys2Proof.Config
end

