-- ==== Sys2Proof/Machine/Float.lean ====
section
/-! DEFINITION. Machine/Float.lean: IEEE 754 values as exact dyadic numbers, the binary formats (FP32, BF16, FP16),
and arithmetic that rounds once (R56, R57, R142, R145, R578). -/

namespace Sys2Proof.Machine

/-- A decoded floating-point value: `num neg m e` is (−1)^neg × m × 2^e, with signed zeros. -/
inductive FV where
  | nan
  | inf (neg : Bool)
  | num (neg : Bool) (m : Nat) (e : Int)
  deriving DecidableEq, Repr

/-- Decode a code of an IEEE-like format with `eb` exponent bits, `mb` mantissa bits and an all-ones exponent that
means infinity or NaN. -/
def fvDecode (eb mb : Nat) (c : Nat) : FV :=
  let neg := c / 2 ^ (eb + mb) % 2 == 1
  let ex := c / 2 ^ mb % 2 ^ eb
  let ma := c % 2 ^ mb
  let bias : Int := 2 ^ (eb - 1) - 1
  if ex = 2 ^ eb - 1 then (if ma = 0 then .inf neg else .nan)
  else if ex = 0 then .num neg ma (1 - bias - mb)
  else .num neg (2 ^ mb + ma) (ex - bias - mb)

/-- `m / 2^k` rounded to the nearest integer, ties to even. -/
def rneShift (m k : Nat) : Nat :=
  let q := m / 2 ^ k
  let r := m % 2 ^ k
  if 2 * r > 2 ^ k then q + 1 else if 2 * r = 2 ^ k ∧ k > 0 then q + q % 2 else q

/-- The exponent of the leading bit of `m × 2^e`: floor(log2), for m > 0. -/
def fvLog2 (m : Nat) (e : Int) : Int := Nat.log2 m + e

/-- The exponent of the unit in the last place of a magnitude `m × 2^e` in a format with `mb` mantissa bits and least
quantum exponent `qmin`. -/
def fvQuantum (mb : Nat) (qmin : Int) (m : Nat) (e : Int) : Int := max (fvLog2 m e - mb) qmin

/-- The magnitude code of `m × 2^e` to nearest even, before any overflow check: exponent and mantissa fields as one
number, so that a carry out of the mantissa increments the exponent. -/
def rneCode (mb : Nat) (qmin : Int) (m : Nat) (e : Int) : Nat :=
  if m = 0 then 0
  else
    let q := fvQuantum mb qmin m e
    let m' := if q ≤ e then m * 2 ^ (e - q).toNat else rneShift m (q - e).toNat
    (q - qmin).toNat * 2 ^ mb + m'

/-- Encode to an IEEE format with round-to-nearest-even: overflow to infinity, subnormals and signed zeros kept (R56);
`nanCode` is the code given to a NaN. -/
def fvEncode (eb mb : Nat) (nanCode : Nat) : FV → Nat
  | .nan => nanCode
  | .inf neg => (if neg then 2 ^ (eb + mb) else 0) + (2 ^ eb - 1) * 2 ^ mb
  | .num neg m e =>
    let bias : Int := 2 ^ (eb - 1) - 1
    (if neg then 2 ^ (eb + mb) else 0) + min (rneCode mb (1 - bias - mb) m e) ((2 ^ eb - 1) * 2 ^ mb)

/-- Compare magnitudes `m × 2^e ≤ m' × 2^e'`. -/
def magLe (m : Nat) (e : Int) (m' : Nat) (e' : Int) : Bool :=
  let lo := min e e'
  m * 2 ^ (e - lo).toNat ≤ m' * 2 ^ (e' - lo).toNat

/-- The signed integer `±m × 2^(e - lo)`. -/
def fvInt (neg : Bool) (m : Nat) (e lo : Int) : Int :=
  let v : Int := (m * 2 ^ (e - lo).toNat : Nat)
  if neg then -v else v

/-- Exact sum. An exact zero sum of opposite values is +0; two zeros of one sign keep it (IEEE 754, to nearest). -/
def fvAdd : FV → FV → FV
  | .nan, _ => .nan
  | _, .nan => .nan
  | .inf a, .inf b => if a = b then .inf a else .nan
  | .inf a, _ => .inf a
  | _, .inf b => .inf b
  | .num a m e, .num b m' e' =>
    let lo := min e e'
    let v := fvInt a m e lo + fvInt b m' e' lo
    if v = 0 then .num (a && b) 0 lo else .num (v < 0) v.natAbs lo

/-- Negation. -/
def fvNeg : FV → FV
  | .nan => .nan
  | .inf a => .inf (!a)
  | .num a m e => .num (!a) m e

/-- Exact product. -/
def fvMul : FV → FV → FV
  | .nan, _ => .nan
  | _, .nan => .nan
  | .inf a, .inf b => .inf (a != b)
  | .inf a, .num b m _ => if m = 0 then .nan else .inf (a != b)
  | .num a m _, .inf b => if m = 0 then .nan else .inf (a != b)
  | .num a m e, .num b m' e' => .num (a != b) (m * m') (e + e')

/-- Strictly less; false when either is NaN. -/
def fvLt : FV → FV → Bool
  | .nan, _ => false
  | _, .nan => false
  | .inf a, .inf b => a && !b
  | .inf a, _ => a
  | _, .inf b => !b
  | .num a m e, .num b m' e' => let lo := min e e'; fvInt a m e lo < fvInt b m' e' lo

/-- Equal as numbers (+0 = −0); false when either is NaN. -/
def fvEq : FV → FV → Bool
  | .inf a, .inf b => a = b
  | .num a m e, .num b m' e' => let lo := min e e'; fvInt a m e lo = fvInt b m' e' lo
  | _, _ => false

/-- Is the value finite? -/
def fvFinite : FV → Bool
  | .num _ _ _ => true
  | _ => false

/-- Is the value ±0? -/
def fvZero : FV → Bool
  | .num _ m _ => m == 0
  | _ => false

/-- Is the value negative by its sign bit? -/
def fvSign : FV → Bool
  | .nan => false
  | .inf a => a
  | .num a _ _ => a

/-- Scale by 2^k, exactly. -/
def fvScale (k : Int) : FV → FV
  | .num a m e => .num a m (e + k)
  | v => v

/-- FP32 code to value. -/
def dec32 (b : B32) : FV := fvDecode 8 23 b.toNat

/-- The FP32 NaN of an operation on `seed`'s operands: a quiet NaN whose sign and payload are free (log entry 6). -/
def nan32 (seed : Nat) : B32 := 0x7FC00000#32 ||| (Config.nanPayload seed &&& 0x803FFFFF#32)

/-- Value to FP32, rounded once to nearest even; `seed` names the operation's operands for a NaN. -/
def enc32 (seed : Nat) (v : FV) : B32 :=
  match v with
  | .nan => nan32 seed
  | v => BitVec.ofNat 32 (fvEncode 8 23 0 v)

/-- BF16 code to value. -/
def decBf (b : B16) : FV := fvDecode 8 7 b.toNat
/-- FP16 code to value. -/
def decFp16 (b : B16) : FV := fvDecode 5 10 b.toNat

/-- Value to BF16, rounded once. A NaN result takes the upper half of the FP32 NaN of its operands. -/
def encBf (seed : Nat) (v : FV) : B16 :=
  match v with
  | .nan => (nan32 seed).extractLsb' 16 16
  | v => BitVec.ofNat 16 (fvEncode 8 7 0 v)

/-- FP32 to BF16 (R56): a NaN keeps its sign and upper payload and stays a NaN. -/
def cvt32Bf (b : B32) : B16 :=
  match dec32 b with
  | .nan => b.extractLsb' 16 16 ||| 0x0040#16
  | v => BitVec.ofNat 16 (fvEncode 8 7 0 v)

/-- BF16 to FP32, exact. -/
def cvtBf32 (b : B16) : B32 := b ++ 0#16

/-- FP32 to FP16 (R56). -/
def cvt32Fp16 (b : B32) : B16 :=
  match dec32 b with
  | .nan => (if b.msb then 0x8000#16 else 0#16) ||| 0x7E00#16 ||| (b.extractLsb' 13 10).setWidth 16
  | v => BitVec.ofNat 16 (fvEncode 5 10 0 v)

/-- FP16 to FP32, exact. -/
def cvtFp1632 (b : B16) : B32 :=
  match decFp16 b with
  | .nan => (if b.msb then 0x80000000#32 else 0#32) ||| 0x7F800000#32 ||| ((b.extractLsb' 0 10).setWidth 32 <<< 13)
  | v => BitVec.ofNat 32 (fvEncode 8 23 0 v)

/-- The key of a two-operand operation for the free NaN payload. -/
def seed2 (op : Nat) (a b : B32) : Nat := op + 16 * (a.toNat + 2 ^ 32 * b.toNat)
/-- The key of a three-operand operation. -/
def seed3 (op : Nat) (a b c : B32) : Nat := seed2 op a b + 2 ^ 70 * c.toNat

/-- FP32 add, one rounding. -/
def add32 (a b : B32) : B32 := enc32 (seed2 0 a b) (fvAdd (dec32 a) (dec32 b))
/-- FP32 subtract. -/
def sub32 (a b : B32) : B32 := enc32 (seed2 1 a b) (fvAdd (dec32 a) (fvNeg (dec32 b)))
/-- FP32 multiply. -/
def mul32 (a b : B32) : B32 := enc32 (seed2 2 a b) (fvMul (dec32 a) (dec32 b))
/-- FP32 fused multiply-add, one rounding. -/
def fma32 (a b c : B32) : B32 := enc32 (seed3 3 a b c) (fvAdd (fvMul (dec32 a) (dec32 b)) (dec32 c))

/-- `a` ranks below `b`, with −0 below +0 (R142, R145, R146). -/
def fvRankLt (a b : FV) : Bool := fvLt a b || (fvZero a && fvZero b && fvSign a && !fvSign b)

/-- The larger value: NaN when either is NaN, +0 above −0. -/
def max32 (a b : B32) : B32 :=
  match dec32 a, dec32 b with
  | .nan, _ => nan32 (seed2 4 a b)
  | _, .nan => nan32 (seed2 4 a b)
  | x, y => if fvRankLt x y then b else a

/-- The smaller value: NaN when either is NaN, +0 above −0. -/
def min32 (a b : B32) : B32 :=
  match dec32 a, dec32 b with
  | .nan, _ => nan32 (seed2 5 a b)
  | _, .nan => nan32 (seed2 5 a b)
  | x, y => if fvRankLt y x then b else a

/-- Quotient of finite values, rounded once (R70). -/
def fvDiv : FV → FV → FV
  | .nan, _ => .nan
  | _, .nan => .nan
  | .inf _, .inf _ => .nan
  | .inf a, .num b _ _ => .inf (a != b)
  | .num a _ _, .inf b => .num (a != b) 0 0
  | .num a m e, .num b m' e' =>
    if m' = 0 then (if m = 0 then .nan else .inf (a != b))
    else
      let k := 64 + Nat.log2 m'
      let n := m * 2 ^ k
      .num (a != b) (2 * (n / m') + (if n % m' = 0 then 0 else 1)) (e - e' - k - 1)

/-- Square root, with a sticky bit below the precision of every format. -/
def fvSqrt : FV → FV
  | .nan => .nan
  | .inf a => if a then .nan else .inf false
  | .num a m e =>
    if m = 0 then .num a 0 0
    else if a then .nan
    else
      let e' := e - 128
      let n := if e' % 2 = 0 then m * 2 ^ 128 else m * 2 ^ 129
      let e2 := if e' % 2 = 0 then e' else e' - 1
      let r := Nat.sqrt n
      .num false (2 * r + (if r * r = n then 0 else 1)) (e2 / 2 - 1)

/-- The power of two 2^k as FP32, rounded. -/
def pow2f (k : Int) : B32 := enc32 0 (.num false 1 k)

/-- If the value is an integer, that integer. -/
def fvToInt : FV → Option Int
  | .num a m e =>
    if 0 ≤ e then some (fvInt a m e 0)
    else if m % 2 ^ (-e).toNat = 0 then
      let v : Int := (m / 2 ^ (-e).toNat : Nat)
      some (if a then -v else v)
    else none
  | _ => none

/-- Floor of a finite value. -/
def fvFloor : FV → Int
  | .num a m e => if 0 ≤ e then fvInt a m e 0 else (fvInt a m 0 0) / (2 ^ (-e).toNat : Nat)
  | _ => 0

/-- If the magnitude is a power of two, its exponent. -/
def fvPow2 : FV → Option Int
  | .num _ m e => if m = 0 then none else if m = 2 ^ Nat.log2 m then some (fvLog2 m e) else none
  | _ => none

/-- A candidate accepted when it lies in [lo, hi] as a number, else the lower bound. -/
def clampTo (lo hi cand : B32) : B32 :=
  match dec32 cand with
  | .nan => lo
  | c => if fvLt c (dec32 lo) || fvLt (dec32 hi) c then lo else cand

/-- R578: a candidate when it lies within two units in the last place of the exact value `v`, else `v` correctly rounded.
The unit is the spacing of FP32 values in the binade of the exact value (log entry 5). -/
def near2 (v : FV) (cand : B32) : B32 :=
  match v, dec32 cand with
  | .num a m e, .num b m' e' =>
    let u := 1 + fvQuantum 23 (-149) m e
    let lo := min (min e e') u
    if (fvInt a m e lo - fvInt b m' e' lo).natAbs ≤ 2 ^ (u - lo).toNat then cand else enc32 0 v
  | _, _ => enc32 0 v

/-- Fraction bits of the fixed-point values that stand for the irrational results of exp2 and log2. FP32 inputs and
candidates have 24-bit significands and exponents from −149 to 127, so a bound of `near2` never falls between a result and
its value to this precision. -/
def fixP : Nat := 320

/-- Partial sum of the series of eˣ for `y / 2^fixP`: the next term is the `n`-th. -/
def expSum (y : Nat) : Nat → Nat → Nat → Nat → Nat
  | 0, _, _, acc => acc
  | fuel + 1, n, term, acc => expSum y fuel (n + 1) (term * y / (n * 2 ^ fixP)) (acc + term)

/-- Partial sum of the series of the inverse hyperbolic tangent; `zz` is the square of its argument. -/
def atanhSum (zz : Nat) : Nat → Nat → Nat → Nat → Nat
  | 0, _, _, acc => acc
  | fuel + 1, n, term, acc => atanhSum zz fuel (n + 1) (term * zz / 2 ^ fixP) (acc + term / (2 * n + 1))

/-- The natural logarithm of `a / b`, 1 ≤ a / b ≤ 2, times 2^fixP. -/
def lnFix (a b : Nat) : Nat :=
  let z := (a - b) * 2 ^ fixP / (a + b)
  2 * atanhSum (z * z / 2 ^ fixP) 112 0 z 0

/-- 2 to the power of a value that is no integer. Below 2^−200, where every result within two units of zero is allowed alike, the
exponent is taken as −200. -/
def exp2Exact (neg : Bool) (m : Nat) (e : Int) : FV :=
  let n := fvInt neg m 0 0
  let d : Nat := 2 ^ (-e).toNat
  let k := n / d
  if k < -200 then .num false 1 (-200)
  else .num false (2 * expSum ((n - k * d).toNat * 2 ^ fixP / d * lnFix 2 1 / 2 ^ fixP) 80 1 (2 ^ fixP) 0 + 1) (k - fixP - 1)

/-- The base-2 logarithm of `m × 2^e`, m > 0. -/
def log2Exact (m : Nat) (e : Int) : FV :=
  let v : Int := fvLog2 m e * 2 ^ fixP + (lnFix m (2 ^ Nat.log2 m) * 2 ^ fixP / lnFix 2 1 : Nat)
  .num (v < 0) v.natAbs (-fixP)

/-- R578: exp2. -/
def exp2f (x : B32) : B32 :=
  match dec32 x with
  | .nan => nan32 (seed2 8 x 0)
  | .inf true => 0
  | .inf false => 0x7F800000#32
  | v =>
    match fvToInt v with
    | some k =>
      if k ≥ 128 then 0x7F800000#32 else if k ≥ -149 then pow2f k else near2 (.num false 1 (max k (-200))) (Config.sfu 0 x)
    | none =>
      match v with
      | .num neg m e => if fvFloor v ≥ 128 then 0x7F800000#32 else near2 (exp2Exact neg m e) (Config.sfu 0 x)
      | _ => 0

/-- The FP32 code of an integer. -/
def int32f (k : Int) : B32 := enc32 0 (.num (k < 0) k.natAbs 0)

/-- The FP32 code of `k × 2^e`. -/
def dyad32 (k e : Int) : B32 := enc32 0 (.num (k < 0) k.natAbs e)

/-- R578: log2. -/
def log2f (x : B32) : B32 :=
  match dec32 x with
  | .nan => nan32 (seed2 9 x 0)
  | .inf true => nan32 (seed2 9 x 0)
  | .inf false => 0x7F800000#32
  | .num neg m e =>
    if m = 0 then 0xFF800000#32
    else if neg then nan32 (seed2 9 x 0)
    else match fvPow2 (.num neg m e) with
      | some k => int32f k
      | none =>
        near2 (log2Exact m e) (Config.sfu 1 x)

/-- R578: reciprocal. -/
def recipf (x : B32) : B32 :=
  match dec32 x with
  | .nan => nan32 (seed2 6 x 0)
  | .inf neg => if neg then 0x80000000#32 else 0
  | .num neg m e =>
    if m = 0 then (if neg then 0xFF800000#32 else 0x7F800000#32)
    else
      let v := fvDiv (.num false 1 0) (.num neg m e)
      match fvPow2 (.num neg m e) with
      | some k => if -127 ≤ k then enc32 0 v else near2 v (Config.sfu 2 x)
      | none => near2 v (Config.sfu 2 x)

/-- R578: reciprocal square root. -/
def rsqrtf (x : B32) : B32 :=
  match dec32 x with
  | .nan => nan32 (seed2 7 x 0)
  | .inf neg => if neg then nan32 (seed2 7 x 0) else 0
  | .num neg m e =>
    if m = 0 then (if neg then 0xFF800000#32 else 0x7F800000#32)
    else if neg then nan32 (seed2 7 x 0)
    else
      let v := fvSqrt (fvDiv (.num false 1 0) (.num neg m e))
      match fvPow2 (.num neg m e) with
      | some k => if k % 2 = 0 then enc32 0 v else near2 v (Config.sfu 3 x)
      | none => near2 v (Config.sfu 3 x)

/-- Special function by VSFU's number: 0 exp2, 1 log2, 2 reciprocal, 3 reciprocal square root (R146). -/
def sfuf (fn : Nat) (x : B32) : B32 :=
  match fn with
  | 0 => exp2f x
  | 1 => log2f x
  | 2 => recipf x
  | _ => rsqrtf x

/-- FPU function 10: int64 to FP32, to nearest even. -/
def i64ToF (x : B64) : B32 := int32f x.toInt

/-- FPU function 11: FP32 to int64, to nearest even, saturating; NaN gives 0. -/
def fToI64 (x : B32) : B64 :=
  match dec32 x with
  | .nan => 0
  | .inf neg => if neg then 0x8000000000000000#64 else 0x7FFFFFFFFFFFFFFF#64
  | .num neg m e =>
    let v : Int := if 0 ≤ e then fvInt false m e 0 else (rneShift m (-e).toNat : Nat)
    let v := if neg then -v else v
    BitVec.ofInt 64 (max (-2 ^ 63) (min (2 ^ 63 - 1) v))

end Sys2Proof.Machine
end

