-- ==== Sys2Proof/Machine/Formats.lean ====
section
/-! DEFINITION. Machine/Formats.lean: the narrow number formats (R43 to R56), the choice of scales (R53), rounding and
saturation (R61 to R64), and the stochastic-rounding LFSR (R63, R65). -/

namespace Sys2Proof.Machine

/-- The formats of R133, in the order of their codes. -/
inductive Fmt where
  | mxfp4 | f3lb | t2 | e4m3 | e5m2 | mxe4m3 | mxe5m2 | bf16 | fp32 | fp16 | mxe2m3 | mxe3m2 | mxint8
  deriving DecidableEq, Repr

/-- R133: the format that a 4-bit code names; 13 to 15 are not assigned. -/
def fmtOfCode : Nat → Option Fmt
  | 0 => some .mxfp4 | 1 => some .f3lb | 2 => some .t2 | 3 => some .e4m3 | 4 => some .e5m2 | 5 => some .mxe4m3
  | 6 => some .mxe5m2 | 7 => some .bf16 | 8 => some .fp32 | 9 => some .fp16 | 10 => some .mxe2m3 | 11 => some .mxe3m2
  | 12 => some .mxint8 | _ => none

/-- An element format: exponent bits, mantissa bits, bias, and the magnitude code of its largest finite value. -/
structure ElemFmt where
  eb : Nat
  mb : Nat
  bias : Nat
  maxCode : Nat
  deriving DecidableEq, Repr

/-- R43: F4 (E2M1), Max 6. -/
def elF4 : ElemFmt := ⟨2, 1, 1, 7⟩
/-- R46: F3, Max 1.5. -/
def elF3 : ElemFmt := ⟨1, 1, 1, 3⟩
/-- R54: E4M3, Max 448. -/
def elE4m3 : ElemFmt := ⟨4, 3, 7, 0x7E⟩
/-- R54: E5M2, Max 57,344. -/
def elE5m2 : ElemFmt := ⟨5, 2, 15, 0x7B⟩
/-- R55: MXFP6 E2M3. -/
def elE2m3 : ElemFmt := ⟨2, 3, 1, 0x1F⟩
/-- R55: MXFP6 E3M2. -/
def elE3m2 : ElemFmt := ⟨3, 2, 3, 0x1F⟩

/-- The exponent of the least quantum of an element format. -/
def elQmin (f : ElemFmt) : Int := 1 - (f.bias : Int) - f.mb

/-- The magnitude `m × 2^e` of a finite magnitude code. -/
def elMag (f : ElemFmt) (c : Nat) : Nat × Int :=
  if c < 2 ^ f.mb then (c, elQmin f) else (2 ^ f.mb + c % 2 ^ f.mb, elQmin f + (c / 2 ^ f.mb : Nat) - 1)

/-- The value of an element code in which every code is finite (R43, R46, R55). -/
def elDec (f : ElemFmt) (c : Nat) : FV :=
  let mc := c % 2 ^ (f.eb + f.mb)
  .num (c / 2 ^ (f.eb + f.mb) % 2 == 1) (elMag f mc).1 (elMag f mc).2

/-- R54: the value of an E4M3 byte: magnitude 0x7F is NaN. -/
def e4m3Dec (b : Byte) : FV := if b.toNat % 128 = 0x7F then .nan else elDec elE4m3 b.toNat
/-- R54: the value of an E5M2 byte, an IEEE layout. -/
def e5m2Dec (b : Byte) : FV := fvDecode 5 2 b.toNat
/-- R47: the value of a T2 code. -/
def t2Dec (c : Nat) : FV := match c % 4 with
  | 1 => .num false 1 0
  | 2 => .num true 1 0
  | _ => .num false 0 0
/-- R55: an MXINT8 byte has an implied scale of 2^−6. -/
def int8Dec (b : Byte) : FV := .num b.msb b.toInt.natAbs (-6)

/-- R49: the exponent of an E8M0 scale; 0xFF is NaN. -/
def e8m0 (b : Byte) : Option Int := if b = 0xFF then none else some ((b.toNat : Int) - 127)

/-- R12: little-endian bytes to a number. -/
def leNat : List Byte → Nat
  | [] => 0
  | b :: bs => b.toNat + 256 * leNat bs

/-- R12: the `n` little-endian bytes of a number. -/
def leBytes : Nat → Nat → List Byte
  | 0, _ => []
  | n + 1, v => BitVec.ofNat 8 v :: leBytes n (v / 256)

/-- `n` bytes at offset `o` of a list. -/
def sliceB (l : List Byte) (o n : Nat) : List Byte := (l.drop o).take n

/-- A little-endian field of `n` bytes at offset `o`. -/
def leAt (l : List Byte) (o n : Nat) : Nat := leNat (sliceB l o n)

/-- Bits [lo+w−1:lo] of a number. -/
def bitsOf (v lo w : Nat) : Nat := v / 2 ^ lo % 2 ^ w

/-- A group of 8 consecutive elements and its scale exponent (none = a NaN scale). -/
abbrev Grp := List FV × Option Int

/-- The scale of a group, applied to its elements. -/
def grpVals (g : Grp) : List FV :=
  match g.2 with
  | none => g.1.map fun _ => .nan
  | some k => g.1.map (fvScale k)

/-- The 16 groups of a 55-byte F3-LB super-block (R50, R51). -/
def f3Groups (blk : List Byte) : List Grp :=
  let v := leNat blk
  (List.range 16).map fun j =>
    ((List.range 8).map fun i => elDec elF3 (bitsOf v (3 * (8 * j + i)) 3),
     (e8m0 (blk.getD 48 0)).map fun k => k - (bitsOf v (392 + 3 * j) 3 : Nat))

/-- The 16 groups of a 33-byte T2 block (R48). -/
def t2Groups (blk : List Byte) : List Grp :=
  let v := leNat blk
  (List.range 16).map fun j =>
    ((List.range 8).map fun i => t2Dec (bitsOf v (2 * (8 * j + i)) 2), e8m0 (blk.getD 32 0))

/-- Cut a list into pieces of `n`. -/
def chunks (n count : Nat) (l : List α) : List (List α) :=
  (List.range count).map fun i => (l.drop (n * i)).take n

/-- Groups of plain element bytes, `bits` per element, with the scale of each 32-element block when `scales` is given. -/
def elemGroups (dec : Nat → FV) (bits n : Nat) (elems : List Byte) (scales : Option (List Byte)) : List Grp :=
  let v := leNat elems
  (List.range (n / 8)).map fun g =>
    ((List.range 8).map fun i => dec (bitsOf v (bits * (8 * g + i)) bits),
     match scales with
     | none => some 0
     | some sc => e8m0 (sc.getD (g / 4) 0))

/-- The groups of `n` elements stored in a format: element bytes, and scale bytes where the format keeps them apart
(R45, R48, R52, R54, R55). FP32 and FP16 have no groups. -/
def fmtGroups (f : Fmt) (n : Nat) (elems scales : List Byte) : List Grp :=
  match f with
  | .mxfp4 => elemGroups (elDec elF4) 4 n elems (some scales)
  | .f3lb => ((chunks 55 (n / 128) elems).map f3Groups).flatten
  | .t2 => ((chunks 33 (n / 128) elems).map t2Groups).flatten
  | .e4m3 => elemGroups (fun c => e4m3Dec (BitVec.ofNat 8 c)) 8 n elems none
  | .e5m2 => elemGroups (fun c => e5m2Dec (BitVec.ofNat 8 c)) 8 n elems none
  | .mxe4m3 => elemGroups (fun c => e4m3Dec (BitVec.ofNat 8 c)) 8 n elems (some scales)
  | .mxe5m2 => elemGroups (fun c => e5m2Dec (BitVec.ofNat 8 c)) 8 n elems (some scales)
  | .bf16 => elemGroups (fun c => decBf (BitVec.ofNat 16 c)) 16 n elems none
  | .mxe2m3 => elemGroups (elDec elE2m3) 6 n elems (some scales)
  | .mxe3m2 => elemGroups (elDec elE3m2) 6 n elems (some scales)
  | .mxint8 => elemGroups (fun c => int8Dec (BitVec.ofNat 8 c)) 8 n elems (some scales)
  | .fp32 | .fp16 => []

/-- Element bytes of `n` elements in a format (R149). -/
def fmtElemBytes (f : Fmt) (n : Nat) : Nat :=
  match f with
  | .mxfp4 => n / 2
  | .f3lb => 55 * n / 128
  | .t2 => 33 * n / 128
  | .mxe2m3 | .mxe3m2 => 3 * n / 4
  | .bf16 | .fp16 => 2 * n
  | .fp32 => 4 * n
  | .e4m3 | .e5m2 | .mxe4m3 | .mxe5m2 | .mxint8 => n

/-- Does the format keep E8M0 scale bytes apart from its elements, one for each 32 (R149)? -/
def fmtScaled : Fmt → Bool
  | .mxfp4 | .mxe4m3 | .mxe5m2 | .mxe2m3 | .mxe3m2 | .mxint8 => true
  | _ => false

/-- R65: one step of the 32-bit Galois LFSR. -/
def lfsrStep (s : B32) : B32 := (s >>> 1) ^^^ (if s.getLsbD 0 then 0x80200003#32 else 0)

/-- R66: the seed of logical tile `i`. -/
def lfsrSeed (salt i : Nat) : B32 := BitVec.ofNat 32 (salt * 65536 + i + 1)

/-- What rounding carries along: the LFSR and the counts of R64. -/
structure QSt where
  lfsr : B32
  sat : Nat
  nanz : Nat
  deriving DecidableEq, Repr

/-- Does the format turn a NaN into +0 (R64)? F4 and F3 do; FP8 keeps NaNs. -/
def elZeroesNan (f : ElemFmt) : Bool := f.eb + f.mb < 7

/-- R61 to R64: convert one FP32 value under the scale exponent `k` to a code of the element format. -/
def quantElem (f : ElemFmt) (stoch : Bool) (k : Int) (x : B32) (st : QSt) : Nat × QSt :=
  let sgn := if x.msb then 2 ^ (f.eb + f.mb) else 0
  match dec32 x with
  | .nan => if elZeroesNan f then (0, { st with nanz := st.nanz + 1 }) else (sgn + 0x7F, st)
  | .inf _ => (sgn + f.maxCode, { st with sat := st.sat + 1 })
  | .num _ m e =>
    let e := e - k
    let mx := elMag f f.maxCode
    if !magLe m e mx.1 mx.2 then (sgn + f.maxCode, { st with sat := st.sat + 1 })
    else
      let q := fvQuantum f.mb (elQmin f) m e
      let lo := if m = 0 then 0 else (q - elQmin f).toNat * 2 ^ f.mb +
        (if q ≤ e then m * 2 ^ (e - q).toNat else m / 2 ^ (q - e).toNat)
      let st' := if stoch then { st with lfsr := lfsrStep st.lfsr } else st
      let mag :=
        if stoch then
          let frac := if m = 0 ∨ q ≤ e then 0 else m % 2 ^ (q - e).toNat * 65536 / 2 ^ (q - e).toNat
          if frac > (st'.lfsr.toNat % 65536) then lo + 1 else lo
        else rneCode f.mb (elQmin f) m e
      (if mag = 0 ∧ elZeroesNan f then 0 else sgn + mag, st')

/-- Quantise a sequence of (value, scale exponent) pairs in order. -/
def quantSeq (f : ElemFmt) (stoch : Bool) : List (B32 × Int) → QSt → List Nat × QSt
  | [], st => ([], st)
  | (x, k) :: xs, st =>
    let r := quantElem f stoch k x st
    let rs := quantSeq f stoch xs r.2
    (r.1 :: rs.1, rs.2)

/-- R53: the largest finite magnitude of a block; (0, 0) when there is none. -/
def blockAmax (xs : List B32) : Nat × Int :=
  xs.foldl (fun a x => match dec32 x with
    | .num _ m e => if magLe m e a.1 a.2 then a else (m, e)
    | _ => a) (0, 0)

/-- R53: the block exponent X of a block with largest magnitude `a`, by the OCP rule (false) or the ceiling rule. -/
def blockExp (ceil : Bool) (f : ElemFmt) (a : Nat × Int) : Int :=
  if a.1 = 0 then 0
  else
    let mx := elMag f f.maxCode
    let x := fvLog2 a.1 a.2 - fvLog2 mx.1 mx.2
    let x := if ceil && !magLe a.1 (a.2 - x) mx.1 mx.2 then x + 1 else x
    max (-127) (min 127 x)

/-- R53: the shift code of an F3-LB sub-block with largest magnitude `aj` in a super-block with largest magnitude `a`
and exponent `x`. -/
def f3Shift (ceil : Bool) (a aj : Nat × Int) (x : Int) : Nat :=
  if aj.1 = 0 then 7
  else if ceil then
    let mx := elMag elF3 elF3.maxCode
    (List.range 8).foldl (fun best (s : Nat) => if magLe aj.1 (aj.2 - (x - (s : Int))) mx.1 mx.2 then s else best) 0
  else (min 7 (fvLog2 a.1 a.2 - fvLog2 aj.1 aj.2)).toNat

/-- The element format that on-module conversion rounds to, for a format it produces (R42). -/
def fmtElem : Fmt → Option ElemFmt
  | .mxfp4 => some elF4
  | .f3lb => some elF3
  | .e4m3 | .mxe4m3 => some elE4m3
  | .e5m2 | .mxe5m2 => some elE5m2
  | _ => none

/-- The scale exponents of a run of values: one per 32-element block for MX formats, 0 for plain FP8. -/
def mxExps (ceil : Bool) (f : Fmt) (el : ElemFmt) (xs : List B32) : List Int :=
  if fmtScaled f then (chunks 32 (xs.length / 32) xs).map fun b => blockExp ceil el (blockAmax b)
  else (List.range (xs.length / 32)).map fun _ => 0

/-- The super-block exponent and the 16 shift codes of 128 values (R53). -/
def f3Scales (ceil : Bool) (xs : List B32) : Int × List Nat :=
  let a := blockAmax xs
  let x := blockExp ceil elF3 a
  (x, (chunks 8 16 xs).map fun sb => f3Shift ceil a (blockAmax sb) x)

/-- Codes of `bits` bits packed from the lowest bit up, as a number. -/
def packBits (bits : Nat) : List Nat → Nat
  | [] => 0
  | c :: cs => c + 2 ^ bits * packBits bits cs

/-- The E8M0 byte of a scale exponent. -/
def scaleByte (x : Int) : Byte := BitVec.ofInt 8 (x + 127)

/-- R50: the 55 bytes of a super-block of 128 codes. -/
def f3Block (codes : List Nat) (sc : Int × List Nat) : List Byte :=
  leBytes 48 (packBits 3 codes) ++ [scaleByte sc.1] ++ leBytes 6 (packBits 3 sc.2)

/-- The element bytes of a run of codes of a row-major format. -/
def packElems (f : Fmt) (codes : List Nat) : List Byte :=
  match f with
  | .mxfp4 => leBytes (codes.length / 2) (packBits 4 codes)
  | _ => codes.map (BitVec.ofNat 8)

/-- Quantise a run of values to a format produced on the module, rounding the elements in order (R150): element bytes,
scale bytes and the rounding state. -/
def quantRun (f : Fmt) (stoch ceil : Bool) (xs : List B32) (st : QSt) : List Byte × List Byte × QSt :=
  match f with
  | .f3lb =>
    let blks := chunks 128 (xs.length / 128) xs
    let r := blks.foldl (fun (acc : List Byte × QSt) b =>
      let sc := f3Scales ceil b
      let q := quantSeq elF3 stoch ((List.range 128).map fun i => (b.getD i 0, sc.1 - (sc.2.getD (i / 8) 0 : Nat))) acc.2
      (acc.1 ++ f3Block q.1 sc, q.2)) ([], st)
    (r.1, [], r.2)
  | f =>
    match fmtElem f with
    | none => ([], [], st)
    | some el =>
      let ks := mxExps ceil f el xs
      let q := quantSeq el stoch ((List.range xs.length).map fun i => (xs.getD i 0, ks.getD (i / 32) 0)) st
      (packElems f q.1, if fmtScaled f then ks.map scaleByte else [], q.2)

end Sys2Proof.Machine
end

