-- ==== Sys2Proof/Machine/State.lean ====
section
/-! DEFINITION. Machine/State.lean: the state of the module as plain data, the outcome types and the state at reset. -/

namespace Sys2Proof.Machine

/-- Why a step stops. No meaning of this model raises a fault: every event has an effect that the spec gives, or, where
the event's condition does not hold in the state, none (log entry 2). -/
inductive Fault where
  /-- Raised by no meaning; kept so that a repair can name a stop. Safe. -/
  | internal
  deriving DecidableEq, Repr

/-- Why a command has no meaning. -/
inductive Refusal where
  /-- Raised by Dispatch for a command whose meaning is not written yet. Safe. -/
  | notModelled (mnemonic : String)
  deriving DecidableEq, Repr

/-! ### Tiles (R86 to R169) -/

/-- The stored part of TILE_STATUS.STATE; WAITING is RUNNING with a wait (R124). -/
inductive TileMode where
  | disabled | idle | clearing | running | halted
  deriving DecidableEq, Repr

/-- Consecutive bytes of the scratchpad: offset and length. An instruction's lines (R135) are those its ranges touch. -/
abbrev SpRange := Nat × Nat

/-- Where a matrix operation's start stands in drill spacing (R117 to R119): no longer waiting, waiting out the offset until
the time base reaches `due`, or waiting for admission, with the arithmetic cycle of its request. -/
inductive Drill where
  | none | offset (at_ due : Nat) | admission (at_ : Nat)
  deriving DecidableEq, Repr

/-- A matrix operation that has issued (R97, R134). Its results are fixed at issue, since the interlocks of R105 and
R135 make its operands final then; they are written when it completes. -/
structure MatOp where
  /-- How many instructions the tile had retired when it issued: the issue order across units. -/
  seq : Nat
  row0 : Nat
  m : Nat
  writes : List (Nat × B32)
  /-- The rows after each whole step before the last (R166). -/
  partials : List (List (Nat × B32))
  copy : List (Nat × List Byte)
  satQuant : Nat
  nanZ : Nat
  macs : Nat
  cycles : Nat
  stall : Nat
  reads : List SpRange
  wrs : List SpRange
  blk : Nat
  drill : Drill
  /-- The PC of the instruction. -/
  pc : Nat
  /-- R102: the cycles of one step's weight load, and whether the engine was idle at issue, so that the first load adds. -/
  load : Nat
  idle : Bool
  /-- The arithmetic cycle in which it began to execute (R118). -/
  begun : Nat
  /-- The matrix cycles, MACs and stalls of it that came before a clear of the counters (R125). -/
  cut : Nat × Nat × Nat
  deriving DecidableEq, Repr

/-- An accumulator read-out that has issued (R106). -/
structure RdOp where
  seq : Nat
  row0 : Nat
  m : Nat
  writes : List (Nat × List Byte)
  satOut : Nat
  nanZ : Nat
  wrs : List SpRange
  pc : Nat
  deriving DecidableEq, Repr

/-- A vector-engine instruction that has issued: the register and scratchpad writes it makes when it completes. A
scalar write is dropped when a later instruction has already written the register (`live` false). `seq` is its place in
issue order and `pc` its PC. -/
structure VecOp where
  sW : List (Nat × B64 × Bool)
  vW : List (Nat × BitVec 4096)
  spW : List (Nat × List Byte)
  satQuant : Nat
  nanZ : Nat
  cycles : Nat
  reads : List SpRange
  wrs : List SpRange
  seq : Nat
  pc : Nat
  deriving DecidableEq, Repr

/-- A DMA descriptor (R153), counts as real values and strides signed. -/
structure DmaDesc where
  gaddr : Nat
  spoff : Nat
  esize : Nat
  n0 : Nat
  n1 : Nat
  n2 : Nat
  g0 : Int
  g1 : Int
  g2 : Int
  s0 : Int
  s1 : Int
  s2 : Int
  deriving DecidableEq, Repr

/-- A queued DMA transfer: `elem` and `byte` say where the next request starts, `out` how many requests are
outstanding. R136: `taken` holds the lines of a transfer out of the scratchpad as they were when it first read them, and
`come` the bytes that have come for lines that are not yet whole. -/
structure DmaXfer where
  id : Nat
  group : Nat
  write : Bool
  fresh : Bool
  fence : Bool
  desc : DmaDesc
  pc : Nat
  elem : Nat
  byte : Nat
  out : Nat
  /-- No request is left to make. -/
  sent : Bool
  taken : SMap (List Byte) := []
  come : SMap Byte := []
  deriving DecidableEq, Repr

/-- A pending SIGNAL (R160): the counter and the transfers it waits for. -/
structure SigEntry where
  ctr : Nat
  waits : List Nat
  deriving DecidableEq, Repr

/-- An outstanding ATOM (R156): its request, its destination register, and whether that write still stands. -/
structure AtomEntry where
  req : Nat
  rd : Option Nat
  live : Bool
  pc : Nat
  seq : Nat
  deriving DecidableEq, Repr

/-- What the Crema lane captured of a sampled block (R69): BF16 activations, activations as used, weights by column,
and the prior accumulator rows of an ACC = 1 operation in ESCALATE mode. `excursion` is set once the comparison is
made and an escalation is still to come. `cut` is the part of the escalation's cycles and MACs that came before a clear of the
counters (R125). -/
structure CSample where
  blk : Nat
  row0 : Nat
  m : Nat
  acc : Bool
  ref : List (List B16)
  used : List (List Grp)
  wgt : List (List Grp)
  prior : List B32
  excursion : Bool
  cut : Nat × Nat
  deriving DecidableEq, Repr

/-- The wait of a WAITF (R162): address, compare value, mask, function, and the request of a poll in flight. -/
structure WaitF where
  addr : Nat
  cmp : B64
  mask : B64
  fn : Nat
  req : Option Nat
  deriving DecidableEq, Repr

/-- One tile. -/
structure Tile where
  mode : TileMode := .disabled
  ran : Bool := false
  ctx : Nat := 0
  part : Nat := 0
  logical : Nat := 0
  ring : Nat := 0
  index : Nat := 0
  kern : Option Nat := none
  pc : Nat := 0
  retired : Nat := 0
  /-- The wait reason of a tile that stops or has stopped (R169); a running tile's is computed. -/
  waitKind : Nat := 0
  faulted : Bool := false
  stopped : Bool := false
  stopping : Bool := false
  draining : Bool := false
  cause : Nat := 0
  faultPc : Nat := 0
  faultInfo : B64 := 0
  /-- When it faulted (R167). -/
  faultAt : Nat := 0
  s : SMap B64 := []
  a : SMap B64 := []
  p : BitVec 8 := 1
  v : SMap (BitVec 4096) := []
  lfsr : B32 := 1
  prec : B64 := 0
  startCyc : Nat := 0
  icache : SMap (List Byte) := []
  fetching : Option Nat := none
  sp : SMap Byte := []
  /-- R468: the rows of the last four distinct lines written in each bank, newest first. -/
  rowTab : SMap (List Nat) := []
  spErr : SMap Nat := []
  spFix : List Nat := []
  acc : SMap B32 := []
  matQ : List MatOp := []
  rdQ : List RdOp := []
  vecQ : List VecOp := []
  xfers : List DmaXfer := []
  nextXfer : Nat := 0
  sigQ : List SigEntry := []
  atoms : List AtomEntry := []
  crema : List CSample := []
  blk : Nat := 0
  bursts : List (Nat × Nat) := []
  lastStep : Option Nat := none
  /-- R118: the part of the ramp (0 none, 1 a quarter, 2 a half), the cycle of its admission and the cycles it has cost. -/
  ramp : Nat := 0
  rampAt : Nat := 0
  /-- The cycle in which a clear began (R116). -/
  clearAt : Nat := 0
  rampLost : Nat := 0
  waitf : Option WaitF := none
  reserved : Option Nat := none
  deriving DecidableEq, Repr

/-- The counts of a precision report (R82). -/
structure PrecCounts where
  samples : Nat := 0
  excursions : Nat := 0
  escalations : Nat := 0
  maxErr : B32 := 0
  satQuant : Nat := 0
  satOut : Nat := 0
  nanZ : Nat := 0
  skipped : Nat := 0
  deriving DecidableEq, Repr

/-- Where a KERNEL command stands. -/
inductive KPhase where
  | waiting | reserving | running | stopping
  deriving DecidableEq, Repr

/-- A KERNEL command in progress (R112 to R116, R264). -/
structure Kernel where
  ring : Nat
  idx : Nat
  ctx : Nat
  part : Nat
  prog : Nat
  len : Nat
  arg : Nat
  prec : B64
  demoted : Bool
  report : Nat
  bindings : Nat
  nbind : Nat
  /-- The binding table as it was checked. -/
  table : List Byte
  count : Nat
  place : Nat
  phase : KPhase
  /-- The order in which kernels began to wait, and when (R113). -/
  since : Nat
  waitAt : Nat
  tiles : List Nat
  ctrs : SMap Nat := []
  counts : PrecCounts := {}
  /-- The first fault: cause, logical tile, PC and FAULT_INFO (R165). -/
  fault : Option (Nat × Nat × Nat × Nat) := none
  /-- When that fault (R165) and the timeout (R167) came. -/
  faultAt : Nat := 0
  timedAt : Nat := 0
  /-- Its dump has been written (R467). -/
  dumped : Bool := false
  /-- CONTEXT_FAULTED has been logged for the failure (R466). -/
  faultLogged : Bool := false
  /-- A walker failure: cause status and global address (R196). -/
  kvFault : Option (Nat × Nat) := none
  /-- The SEQ of the log record that a dump names (R466). -/
  logSeq : Nat := 0
  timedOut : Bool := false
  /-- An engine reset has removed its work (R475). -/
  wiped : Bool := false
  deriving DecidableEq, Repr

/-! ### Requests in flight (R331, R332, R350 to R354) -/

/-- The unit that a response goes back to. -/
inductive RUnit where
  | dma (tile xfer sp : Nat)
  | atom (tile : Nat)
  | waitf (tile : Nat)
  | icache (tile blk : Nat)
  | walker (w : Nat) (key binding pos : Nat)
  | command (ring idx pos code : Nat)
  | fill (die : Nat) (block : Nat)
  | remote (link : Nat) (src unit tag rport vc : Nat)
  | collective (part : Nat) (key : Nat)
  deriving DecidableEq, Repr

/-- What a request does at its home. -/
inductive RKind where
  | read
  | write (data : List Byte)
  | atomic (op : Nat) (wide unsgn : Bool) (b c : B64)
  deriving DecidableEq, Repr

/-- The status a response carries (R331). -/
inductive RStatus where
  | ok | refused | noRoute
  /-- With the global address of the block or word that does not decode. -/
  | uncorrectable (badAt : Nat)
  deriving DecidableEq, Repr

/-- Where a request stands. -/
inductive RStage where
  | queued
  | sent
  | waitFill
  | done (st : RStatus) (data : List Byte)
  deriving DecidableEq, Repr

/-- A memory request in flight. -/
structure Req where
  unit : RUnit
  kind : RKind
  gaddr : Nat
  len : Nat
  fresh : Bool
  fence : Bool
  part : Nat
  stage : RStage
  /-- The scratchpad lines already performed, with what a read has returned (R351). -/
  lines : SMap (List Byte) := []
  deriving DecidableEq, Repr

/-! ### Rings and contexts (R256 to R278) -/

/-- CMD_RING_STAT.STATE. -/
inductive RingSt where
  | disabled | idle | running | waiting | cqBlocked | halted
  deriving DecidableEq, Repr

/-- Where a command of a ring stands: running, or done with the completion it is to post. -/
inductive CmdSt where
  | running
  | done (status aux detail : Nat) (part alert : Bool)
  deriving DecidableEq, Repr

/-- Pieces of memory that a command processor or a walker gathers: what it wants, and what has come, by piece. -/
structure Fetch where
  want : List (Nat × Nat) := []
  asked : Nat := 0
  got : SMap (List Byte) := []
  deriving DecidableEq, Repr

/-- The work of a command in progress. -/
inductive CWork where
  | nothing
  /-- A KERNEL: see the kernels. -/
  | kernel
  /-- KERNEL, APPEND and ROTARY_TABLE while they read what they name: the stage, the reads, and the earlier stages'. -/
  | gather (stage : Nat) (f : Fetch) (data : List (List Byte))
  /-- A DMA: the next offset to read, requests outstanding, and bytes whose writes have been sent. -/
  | copy (src dst len : Nat) (fresh : Bool) (pos out wrote : Nat)
  /-- Writes still to be sent, and how many are outstanding; then the command completes with `aux`. -/
  | writes (todo : List (Nat × List Byte)) (out aux : Nat) (alert : Bool)
  /-- A WAIT_VALUE, and whether a poll is in flight. -/
  | poll (addr : Nat) (value mask : B64) (fn : Nat) (out : Bool)
  /-- A TRIM: the next granule and how many are left (R230). -/
  | trim (g n : Nat)
  /-- A SYS_SNAPSHOT, COLLECTIVE or POWER_CAP: see the snapshot queue, the collectives and the caps. -/
  | elsewhere
  deriving DecidableEq, Repr

/-- A command in progress, or completed and waiting for its completion to be written: `started` once it may have begun to
take effect, `fail` the first failure of its work. -/
structure RCmd where
  idx : Nat
  desc : List Byte
  st : CmdSt
  work : CWork
  started : Bool
  fail : Option (Nat × Nat)
  /-- A write of it has been performed, or its kernel has run: what PARTIAL of a failure shows (R273). -/
  effect : Bool := false
  /-- The token rows of an APPEND that are still to be written: address, length and the bytes that remain (R198). -/
  rows : List (Nat × Nat × Nat) := []
  deriving DecidableEq, Repr

/-- A completion entry that is due: INDEX, STATUS, OPCODE, KIND, PREC_ALERT, USER_TAG, AUX, DETAIL with PARTIAL. -/
structure Compl where
  idx : Nat
  status : Nat
  opcode : Nat
  kind : Nat
  alert : Bool
  tag : Nat
  aux : Nat
  detail : Nat
  partl : Bool
  deriving DecidableEq, Repr

/-- A command ring. -/
structure Ring where
  base : Nat := 0
  log2 : Nat := 0
  unordered : Bool := false
  die : Nat := 0
  enable : Bool := false
  ctx : Nat := 0
  timeoutMs : Nat := 1000
  cqLog2 : Nat := 0
  cqHost : Bool := false
  cqQpn : Nat := 0
  cqAddr : Nat := 0
  cqRkey : Nat := 0
  lastStatus : Nat := 0
  producer : Nat := 0
  consumed : Nat := 0
  cqProduced : Nat := 0
  cqConsumed : Nat := 0
  next : Nat := 0
  cmds : List RCmd := []
  late : List Compl := []
  cqFailed : Bool := false
  halted : Bool := false
  /-- The SEQ of the ring's last RING_HALTED record. -/
  haltSeq : Nat := 0
  /-- The notification of RING_HALTED is still to be sent, with the completion (R466). -/
  haltNote : Bool := false
  blocked : Bool := false
  /-- The timeout in force: the command that it covers, the time in ns that has run, and its TIMEOUT_MS (R259, R277). -/
  timer : Option (Nat × Nat × Nat) := none
  deriving DecidableEq, Repr

/-- CTX_STAT.STATE. -/
inductive CtxSt where
  | free | active | faulted | resetting
  deriving DecidableEq, Repr

/-- A context. -/
structure Ctx where
  part : Nat := 0
  st : CtxSt := .free
  faultStatus : Nat := 0
  autoMs : Nat := 0
  dumpOnFault : Bool := false
  dumpAddr : Nat := 0
  lastLevel : Nat := 0
  dumpFailed : Bool := false
  resets : Nat := 0
  unacked : Nat := 0
  /-- The reset in progress: the PRODUCER of each ring at its start, and the engines still to report. -/
  resetProd : SMap Nat := []
  deriving DecidableEq, Repr

/-! ### Remote-read caches and the event log -/

/-- A remote-read cache entry or fill (R355 to R357): the block's global address and the partition of its read. -/
structure RrcEntry where
  block : Nat
  part : Nat
  data : List Byte
  /-- The 64-byte lines that a parity failure has discarded (R236). -/
  lost : List Nat := []
  deriving DecidableEq, Repr

/-- A fill in flight: what it fetches, the requests that wait for it, and whether it can still be installed. -/
structure RrcFill where
  id : Nat
  block : Nat
  part : Nat
  installable : Bool
  waiters : List Nat
  deriving DecidableEq, Repr

/-- An event-log record (R480). `args` are the bytes of ARG. -/
structure LogRec where
  seq : Nat
  time : Nat
  code : Nat
  part : Option Nat
  ctx : Option Nat
  loc : Nat
  args : List Byte
  deriving DecidableEq, Repr

/-- What a PlatformEventMessage reports (R521, R525): an event-log record, or a state sensor's new and old state. -/
inductive OutBody where
  | record (r : LogRec)
  | sensor (id now before : Nat)
  deriving DecidableEq, Repr

/-- A PlatformEventMessage in the outbox (R524): BOOT_COUNT, FSEQ and what it reports. -/
structure OutMsg where
  boot : Nat
  fseq : Nat
  body : OutBody
  deriving DecidableEq, Repr

/-- What follows a configuration-memory operation when it ends (R558): a link's record is valid, Felmos settings or the
ageing record or a training record are kept, a service request is answered, a warm reset follows (R542), or nothing. -/
inductive CfgAfter where
  | none
  | linkRec (link : Nat)
  | settings
  | ageing
  | train (stack ver : Nat)
  | answer (typ req : Nat) (data : List Byte) (ev : Option Ev)
  | coldReset
  deriving DecidableEq, Repr

/-- A configuration-memory operation: its place in the order of R558, the bytes it writes, and what follows. -/
structure CfgOp where
  prio : Nat
  writes : List (Nat × List Byte)
  after : CfgAfter
  deriving DecidableEq, Repr

/-! ### Hosts (R239 to R257) -/

/-- A message of the module's own on a queue pair that has not been acknowledged: an RDMA WRITE with its address and
R_Key, or a SEND; the partition whose notification it is, and how often it was refused for want of a receive buffer. -/
structure Wqe where
  psn : Nat
  target : Option (Nat × Nat)
  data : List Byte
  part : Nat
  rnr : Nat
  deriving DecidableEq, Repr

/-- A queue pair (R242): connected, its partition, its half port (port × 2 + half), sequence numbers, messages not yet
acknowledged, retries made and allowed, whether the oldest message waits because the receiver was not ready, the error
state, the send rate in 10⁻⁹ of the line rate, and the times of the last CNP sent, of the last halving, and of the last
CNP or increase. -/
structure Qp where
  conn : Bool := false
  part : Nat := 0
  half : Nat := 0
  psn : Nat := 0
  unacked : List Wqe := []
  retries : Nat := 0
  retryMax : Nat := 7
  mtu : Nat := 1024
  rnrWait : Bool := false
  err : Bool := false
  rate : Nat := 1000000000
  cnpTx : Option Nat := none
  cnpRx : Option Nat := none
  rateAt : Nat := 0
  deriving DecidableEq, Repr

/-- What the module sends to the outside: RoCEv2 packets, PTP requests, side-band and service-port messages. -/
inductive OutEv where
  /-- A RoCEv2 message of a queue pair (R242, R577): the source MAC address, the DSCP, and the path MTU that it is cut to. -/
  | roce (mac dscp mtu : Nat) (o : OutEv)
  | rdmaWrite (qpn psn addr rkey : Nat) (data : List Byte)
  | send (qpn psn : Nat) (data : List Byte)
  | ack (qpn psn : Nat)
  | nakRnr (qpn psn : Nat)
  | nakAccess (qpn psn : Nat)
  | nakOperation (qpn psn : Nat)
  | nakInvalid (qpn psn : Nat)
  | readData (qpn psn : Nat) (data : List Byte)
  | atomicOld (qpn psn : Nat) (old : B64)
  | cnp (qpn : Nat)
  | connAccept (qpn : Nat)
  | connReject
  | delayReq (mac : Nat)
  | pldm (request : Nat) (data : List Byte)
  | pldmEvent (data : List Byte)
  | service (mac request : Nat) (data : List Byte)
  /-- A group on a link's data lanes: its place in the period, its contents, and the blocks of each lane. -/
  | group (link pos : Nat) (g : Group) (lanes : List (List LBlock))
  /-- A row of blocks on the 24 lanes of a link (R292, R294), sent `count` times. -/
  | row (link count : Nat) (blocks : List LBlock)
  | laneMsg (link : Nat) (asks : LaneAsk)
  /-- What this end sends in IDENTIFY (R308): chip number, VALID, link number, serial, and the partner type LX9. -/
  | identity (link chip : Nat) (valid : Bool) (serial : Nat)
  /-- A group slot of PRBS13Q, or PRBS31Q, on the data lanes (R307, R319), from a state of the generator on. -/
  | prbs (link : Nat) (long : Bool) (from_ : Nat)
  /-- The training burst of R316. -/
  | burst (link : Nat)
  deriving DecidableEq, Repr

/-- A snapshot request (R279): its partition, destination, and the command it serves (none for the register path). -/
structure SnapReq where
  part : Nat
  dest : Nat
  cmd : Option (Nat × Nat)
  deriving DecidableEq, Repr

/-! ### KV page walkers (R182 to R198) -/

/-- A sequence descriptor (R176). -/
structure SeqDesc where
  ptBase : Nat
  sumBase : Nat
  freqBase : Nat
  pagesMax : Nat
  layers : Nat
  h : Nat
  d : Nat
  fmt : Fmt
  sumValid : Bool
  split : Bool
  rotateK : Bool
  deriving DecidableEq, Repr

/-- Where a binding stands: waiting for a walker slot, reading its descriptor, waiting for GO, reading summaries,
scored, writing its selection list, reading page-table entries, reading a page, ready to deliver, finished. -/
inductive BPhase where
  | waiting | desc | gate | scoring | scored | listing | pte | page | ready | finished
  deriving DecidableEq, Repr

/-- A binding (R183), with its target tile as a physical number, and its progress: `plan` the pages in delivery order,
`n` the deliveries made, `pteBlk` the last block of 64 page-table entries read (R195), `out` writes unacknowledged. -/
structure Binding where
  walker : Nat
  tile : Nat
  part : Nat
  seqAddr : Nat
  length : Nat
  layer : Nat
  head0 : Nat
  nheads : Nat
  parts : Nat
  vt : Bool
  cached : Bool
  sift : Bool
  selOut : Bool
  gated : Bool
  depth : Nat
  ringBase : Nat
  page0 : Nat
  pageEnd : Nat
  stride : Nat
  siftK : Nat
  sink : Nat
  recent : Nat
  selAddr : Nat
  phase : BPhase := .waiting
  desc : Option SeqDesc := none
  f : Fetch := {}
  plan : List Nat := []
  n : Nat := 0
  pteBlk : Option (Nat × List Byte) := none
  out : Nat := 0
  blocked : Bool := false
  deriving DecidableEq, Repr

/-! ### Links (R286 to R322) -/

/-- LNK_STATE.STATE (R307). -/
inductive LSt where
  | disabled | powerUp | clockDetect | eqCoarse | restore | blockLock | eqFine | identify | held | active | retrain
  | failed | test | legacyIdle
  deriving DecidableEq, Repr

/-- What an output's arbitration remembers (R338): the partition being served, the partitions' deficits, the last VC of each
partition, and the last group served in VC 2. -/
structure Arb where
  part : Nat := 0
  deficit : SMap Nat := []
  vc : SMap Nat := []
  group : SMap Nat := []
  deriving DecidableEq, Repr

/-- A link. -/
structure Link where
  st : LSt := .disabled
  /-- The path of this attempt, and the rate it tries (R307, R317). -/
  fast : Bool := false
  lx7Rate : Bool := false
  /-- Attempts that have failed in a row, and whether this attempt follows a failed RETRAIN (R310). -/
  fails : Nat := 0
  lastChance : Bool := false
  released : Bool := false
  peerReleased : Bool := false
  /-- Serial and chip number of the partner that the last successful training found (R308). -/
  known : Option (Nat × Nat) := none
  /-- Lanes with block lock; corrected bytes and pattern errors per lane. -/
  locked : Nat := 0
  laneCorr : SMap Nat := []
  prbs : SMap Nat := []
  /-- The next group of the period, and the scramblers of the lanes (R291, R294). -/
  pos : Nat := 0
  scr : SMap Nat := []
  /-- Transmitter: the next SEQ, the replay buffer, the next kept group to resend, and a wait for the first ACK after a
  retrain (R301 to R304). -/
  txSeq : Nat := 0
  kept : List Group := []
  /-- When each kept group was last sent. -/
  sentAt : List Nat := []
  resend : Option Nat := none
  resume : Bool := false
  /-- Resends for want of an ACK, NAKs that named the same ACK, and the times of NAKs received (R304). -/
  resends : Nat := 0
  nakAck : Nat := 0
  nakSame : Nat := 0
  naks : List Nat := []
  /-- Receiver: the SEQ expected, whether a group is missing, whether a NAK is due, and DATA groups not yet
  acknowledged. -/
  rxNext : Nat := 0
  missing : Bool := false
  nakDue : Bool := false
  ackDue : Nat := 0
  /-- Credits used of the partner's buffers, and credits owed to the partner, by credit code (R300, R328). -/
  used : SMap Nat := []
  owed : SMap Nat := []
  /-- Fallow (R313, R314): awake for 10 µs after a long sleep, and awake for one NULL group only. -/
  awake : Bool := false
  brief : Bool := false
  legacyReq : Bool := false
  /-- The partner's far loop runs here (R320). -/
  farLoop : Bool := false
  arb : Arb := {}
  /-- LNK_CFG.PARTNER as this training took it (R317). -/
  want : Nat := 0
  /-- R325: the packet whose first bytes have been sent, with the bytes left, and the bytes received of one that goes on. -/
  txPart : Option (Packet × List Byte) := none
  rxPart : List Byte := []
  /-- The descramblers of the lanes (R291). -/
  dscr : SMap Nat := []
  /-- R313: for how long the direction has been idle, in ns. R315: group slots of the wake that are still to pass. When the
  direction went to sleep, when it woke from a long sleep, and when the oldest unacknowledged group came (R314). -/
  idle : Nat := 0
  wakeIn : Nat := 0
  sleepAt : Nat := 0
  awakeAt : Nat := 0
  ackAt : Nat := 0
  /-- When the link last left ACTIVE (R346). -/
  downAt : Nat := 0
  /-- A far loop has been asked for (R318), and the state of the pattern generator (R319). -/
  farAsked : Bool := false
  prbsTx : Nat := 1
  /-- TOPO_PROBE packets sent and not answered (R509). -/
  probes : Nat := 0
  deriving DecidableEq, Repr

/-- A packet that waits for an output: its number (shared by the copies of a multicast packet), its input, the credit
code of the buffer that it holds there, and for how long it has stood at the head of that buffer, in ns (R334). -/
structure QPkt where
  id : Nat
  p : Packet
  inp : Nat
  code : Nat
  wait : Nat
  deriving DecidableEq, Repr

/-! ### Collectives (R382 to R419) -/

/-- A group definition (R383): members in ring order, owner, SETTLE_NS and HASH. -/
structure CollGroup where
  members : List Nat
  part : Nat
  settle : Nat
  hash : Nat
  deriving DecidableEq, Repr

/-- Where a collective stands at this member: in the admission queue, admitted, ended with its completion still to be
posted, RESULT posted at a time, revoked, settled. The last three keep what peers may still ask for. -/
inductive CollSt where
  | waiting | running | ended
  | resulted (time : Nat)
  | revoked (time : Nat)
  | settled
  deriving DecidableEq, Repr

/-- A piece that waits for space at a member (the group's size names all of them): member, phase, offset, data. -/
structure CollSend where
  dest : Nat
  phase : Nat
  off : Nat
  data : List Byte
  deriving DecidableEq, Repr

/-- A collective at this member (R387): the command's fields, the group's definition as it was found, and its work. -/
structure Coll where
  ring : Nat
  idx : Nat
  tag : Nat
  ctx : Nat
  part : Nat
  group : Nat
  seq : Nat
  op : Nat
  ctl : Nat
  dtype : Nat
  src : Nat
  dst : Nat
  count : Nat
  rowBytes : Nat
  cap : Nat
  mta : Nat
  /-- COUNTS of R395. -/
  mine : List Nat
  members : List Nat
  pos : Nat
  hash : Nat
  window : Nat
  st : CollSt := .waiting
  /-- SLICE in strip mode, 0 in normal mode, and the footprint in bytes (R399, R402). -/
  slice : Nat := 0
  foot : Nat := 0
  /-- The strip that runs, and the elements received of each strip. -/
  strip : Nat := 0
  recv : SMap Nat := []
  /-- The partials vector of a reduction. -/
  acc : List Byte := []
  /-- Output bytes written, elements saturated, and whether DST or META has been written. -/
  got : Nat := 0
  sat : Nat := 0
  wrote : Bool := false
  /-- Space: bytes granted by each member and not used, bytes still to be granted to each, and what waits. -/
  credit : SMap Nat := []
  owe : SMap Nat := []
  sends : List CollSend := []
  /-- ALL_TO_ALL_CAP: members that are ready, row counts of the sources, and rows with first row as granted to each
  source and by each destination. -/
  ready : List Nat := []
  counts : SMap Nat := []
  granted : SMap (Nat × Nat) := []
  grants : SMap (Nat × Nat) := []
  /-- The detecting chip of a revocation that is known. -/
  revoke : Option Nat := none
  deriving DecidableEq, Repr

/-! ### The always-on domain (R420 to R457) -/

/-- The eFuse array: the module serial, the TDP in W, good tiles and walkers, the mask of present units of LIC_CAP0, the
licence-key and firmware-key hashes, blown security-version fuses, SYS_ID.STEPPING, the base of the nine MAC addresses (R577),
and the factory repairs as repair-record entries (R223). The values are the model's own (log entry 1). -/
structure Fuse where
  serial : Nat := 0
  tdp : Nat := 2400
  tiles : Nat := 2 ^ 272 - 1
  walkers : Nat := 0xFFFF
  units : Nat := 0xFF0F3F0F
  licKey : List Byte := List.replicate 32 0
  fwKey : List Byte := List.replicate 32 0
  svn : Nat := 0
  stepping : Nat := 0
  mac : Nat := 0
  repairs : List Nat := []
  deriving DecidableEq, Repr

/-- What the module's tests would find (log entry 1): tiles that fail their self-test or their load, stacks that fail
training or the check of their saved record, dies whose timing margin falls short (bit masks); no command
changes them. -/
structure Health where
  tileTest : Nat := 0
  tileLoad : Nat := 0
  stackFail : Nat := 0
  trainBad : Nat := 0
  marginLow : Nat := 0
  deriving DecidableEq, Repr

/-- What the pins and the input show, debounced: COOLANT_OK_N, PWR_BRAKE_N and RESET_N asserted, the hot-swap switch on
(R567), the loop resistance (R452), and an input below 40 V, below 36 V and above 62 V (R457). -/
structure Pins where
  coolantOk : Bool := false
  brake : Bool := false
  resetN : Bool := false
  hotswap : Bool := false
  ohms : Nat := 10000
  sag : Bool := false
  under : Bool := false
  overV : Bool := false
  deriving DecidableEq, Repr

/-- The clock of a compute die (R428, R430, R439): frequency in MHz, the limiter's wish, issue duty in sixteenths, the
frequency that the settled voltage allows, a move in progress, its wait for droop, and the last stretch. -/
structure Clk where
  f : Nat := 0
  want : Nat := 600
  duty : Nat := 16
  vmax : Nat := 600
  moving : Bool := false
  waiting : Bool := false
  stretchAt : Option Nat := none
  /-- The ceiling that the thermal loop has set (R448). -/
  loop : Nat := 1250
  /-- The sensors have all lain 2 °C below their thresholds, and none has reached its own since (R448). -/
  rising : Bool := false
  deriving DecidableEq, Repr

/-- The power and thermal controller, the Tamp and coolant supervision. -/
structure Pwr where
  /-- Coalescing (R424): a source's window is open, and the values held in it; none is the removal of the cap. -/
  rackWin : Bool := false
  rackHeld : List (Option Nat) := []
  hostWin : Bool := false
  hostHeld : List (Option Nat) := []
  /-- When L last changed (R429). -/
  lAt : Nat := 0
  /-- The gain g in units of 10⁻⁶, the sum and number of the estimates of this millisecond, and the last 25 (R421, R435). -/
  gain : Nat := 1000000
  estSum : Nat := 0
  estN : Nat := 0
  estHist : List Nat := []
  /-- The power controller switches banks at its next evaluation, which holds the limiter's outputs (R538). -/
  skip : Bool := false
  /-- Conditions of R450 that no register shows: coolant lost, a leak, failed coolant sensors; samples of a low rise. -/
  lost : Bool := false
  leak : Bool := false
  cSensor : Bool := false
  riseLow : Nat := 0
  /-- When the grace and leak delays run out, and a leak delay that has (R454). -/
  graceEnd : Option Nat := none
  leakEnd : Option Nat := none
  leakOff : Bool := false
  /-- The input-voltage limit (R457) and the Tamp's two cases (R435). -/
  lowV : Bool := false
  clampTdp : Bool := false
  clampI : Bool := false
  /-- What is left of the 20 µs of a brake's release, in ns (R434). -/
  ease : Nat := 0
  /-- A trip holds the rails off until a reset, or power-on (R436). -/
  tripHold : Bool := false
  /-- The hub die's rails are off after a trip. -/
  hubDown : Bool := false
  /-- Milliseconds of disagreement and agreement of each sensor (R445), and without disagreement (R446). -/
  offMs : SMap Nat := []
  okMs : SMap Nat := []
  divMs : Nat := 0
  /-- The timers of R456. -/
  refreshDue : Bool := false
  orphanDue : Bool := false
  /-- Issue duty of each partition in sixteenths (R433); unlisted is 16. -/
  partDuty : SMap Nat := []
  /-- Samples of 10 ns in which each reason was active, not yet counted in PWR_THR_US (R443). -/
  samples : SMap Nat := []
  /-- An ageing calibration waits for an active core (R440). -/
  ageHold : Bool := false
  /-- A power cycle has been requested (R476). -/
  cycle : Bool := false
  deriving DecidableEq, Repr

/-! ### Resets (R469 to R477) -/

/-- A run of the escalation ladder: its step, its partition, the contexts it resets, the engines that have not reported,
whether it began as a partition reset, and whether it has stopped (R476). -/
structure RJob where
  step : Nat
  part : Nat
  ctxs : List Nat
  wait : List Engine
  isPart : Bool
  stopped : Bool := false
  deriving DecidableEq, Repr

/-! ### Felmos (R514 to R544) -/

/-- A checkpoint buffer (R515). -/
structure Ckpt where
  seq : Nat := 0
  fmt : Nat := 0
  valid : Bool := false
  deriving DecidableEq, Repr

/-- A staging session (R530): its slot, whether the erase is still running, and bytes written. -/
structure Stage where
  slot : Nat
  erasing : Bool
  written : Nat
  deriving DecidableEq, Repr

/-- An activation (R537 to R542): its slot, whether it is cold, the time of COMMIT, the previous bundle's register
values, links that were ACTIVE and the engine resets counted at COMMIT, units still to switch, and CONFIRM. -/
structure Act where
  slot : Nat
  cold : Bool
  commitAt : Nat := 0
  old : List Nat := []
  oldSlot : Nat := 0
  links : Nat := 0
  resets : Nat := 0
  confirmed : Bool := false
  /-- Before COMMIT: verifying, booting, loading the units, ready to commit (0 to 3). -/
  phase : Nat := 0
  deriving DecidableEq, Repr

/-- The management cores and what they keep. -/
structure Mgmt where
  /-- A core is ACTIVE. -/
  up : Bool := false
  /-- Self-tests each core has failed in a row, and the slot and checkpoint formats of the image in each bank. -/
  fails0 : Nat := 0
  fails1 : Nat := 0
  bank0 : Option (Nat × Nat × Nat) := none
  bank1 : Option (Nat × Nat × Nat) := none
  /-- The checkpoint buffers, which is written next, and the format that the running image writes. -/
  ck0 : Ckpt := {}
  ck1 : Ckpt := {}
  ckNext : Bool := false
  ckFmt : Nat := 0
  /-- A switchover in progress: when it was detected and its cause; none when no core could take over. -/
  gapAt : Option Nat := none
  gapCause : Nat := 0
  /-- Missed paths: mailbox and wire. -/
  missBox : Bool := false
  missWire : Bool := false
  /-- Side-band requests held while no core is active, and whether one was refused (R523). -/
  sbHeld : List Instr := []
  sbOver : Bool := false
  /-- PLDM: the terminus ID and the event receiver. -/
  tid : Nat := 0
  receiver : Option Nat := none
  /-- Effecter 0x0311, when it was written after MGT_LED.LOCATE (R527). -/
  locate : Option Nat := none
  /-- The service port: the last request and its answer, the request in progress, the staging session, and the licence
  received so far (R528, R529). -/
  svcLast : Option (Nat × List Byte) := none
  svcBusy : Option (Nat × Nat) := none
  stage : Option Stage := none
  licBuf : List Byte := []
  act : Option Act := none
  /-- Units and tiles that run an image of the bank that was inactive at COMMIT, and those to switch at their next chance. -/
  unitNew : Nat := 0
  tileNew : Nat := 0
  /-- Eject: links whose lasers are off; and links that have entered FAILED since COMMIT (R539). -/
  dark : Nat := 0
  linkFail : Nat := 0
  /-- HEARTBEAT_OUT (R526). -/
  beat : Bool := false
  deriving DecidableEq, Repr

/-- What configuration memory keeps whose format the spec does not give (R440, R498, R524, R541): the Felmos settings
and BOOT_COUNT, trims and FMAX of both dies, and each stack's training record with the HBM controller version. -/
structure Kept where
  confirmMode : Nat := 0
  serviceActivate : Nat := 0
  serviceWriteEn : Nat := 1
  drainS : Nat := 30
  bootCount : Nat := 0
  trim0 : Nat := 0
  trim1 : Nat := 0
  fmax0 : Nat := 1250
  fmax1 : Nat := 1250
  train : SMap Nat := []
  deriving DecidableEq, Repr

/-- An Ethernet port (R240, R241): a cable is plugged in, with retimers that Felmos manages, and its module state code;
the split and the largest frame that its last link-up put into effect. -/
structure EthPort where
  plugged : Bool := false
  managed : Bool := false
  code : Nat := 0
  split : Bool := false
  maxFrame : Nat := 9216
  deriving DecidableEq, Repr

/-- The PTP clock (R249, R250): rate correction in 10⁻⁹, offset still to be removed in 10⁻⁸ ns (positive when the time
base is behind), the exchange in progress (origin and arrival of the last Sync, whether a Follow_Up is awaited, and when
Delay_Req was sent), and when the last valid Announce came with the Announce interval in ns. -/
structure Ptp where
  rate : Int := 0
  slew : Int := 0
  t1 : Option Nat := none
  t2 : Option Nat := none
  wantFollow : Bool := false
  t3 : Option Nat := none
  annAt : Option Nat := none
  annIv : Nat := 0
  deriving DecidableEq, Repr

/-- What the rules time (log entry 75): each is measured from an instant that State.timers keeps, under a number that says which
source, die, link, context or run it is of. -/
inductive Timer where
  | estimate | gain | limiter | freq | allocate | capWindow | thermal | loopDown | loopUp | rise | ageing | droop | refresh
  | orphan | crossCheck | autoReset | ladder | step4 | waiting | cycleReport | linkState | linkRate | probe | degraded
  | nakRepeat | wakeRows | legacyAsk | boxBeat | wireBeat | heartbeat | checkpoint | staging | ejecting | passBytes
  | recovery | postRetry | pollFlag | pollValue
  deriving DecidableEq, Repr

/-- The state of the module. -/
structure State where
  /-- The commands that wait, first in first out. -/
  pending : List Instr := []
  /-- 48 V present: the always-on domain is powered. -/
  powered : Bool := false
  /-- The time base in ns, and the part of a nanosecond carried along in units of 10⁻⁸ ns (R248). -/
  tb : Nat := 0
  tbFrac : Nat := 0
  /-- The model's own counter of free values taken (log entry 3). -/
  freeCtr : Nat := 0
  /-- The last timestamp that each domain has given (R251). -/
  stamps : SMap Nat := []
  /-- Arithmetic cycles of each die, in hundredths of a cycle. -/
  cyc : SMap Nat := []
  /-- What counters have counted since the last tick, by field: a clear in the same cycle comes before it (R85, R125). -/
  sameCyc : SMap Nat := []
  /-- The binding that each walker serves next in round robin: the key after the one served last (R182). -/
  kvTurn : SMap Nat := []
  /-- Every register field that is not listed elsewhere, keyed by its bit address (R14). -/
  regs : SMap Nat := []
  /-- The instants from which times are measured (log entry 75), by timer. -/
  timers : SMap Nat := []
  log : SMap LogRec := []
  /-- When an event of a rate-limited kind was last logged. -/
  logLast : SMap Nat := []
  /-- LOG_REC_0 to LOG_REC_7: the record that LOG_SEL copied (R482). -/
  logSel : List Byte := []
  tiles : SMap Tile := []
  kernels : SMap Kernel := []
  reqs : SMap Req := []
  nextReq : Nat := 0
  /-- HBM contents (R33); an unlisted byte reads as zero, as every byte of an unwritten granule does (R228). -/
  hbm : SMap Byte := []
  /-- The initialisation map (R227): granules that have been written. -/
  written : SMap Bool := []
  /-- Code blocks with symbol errors, and how many (R203), and those whose errors survive a rewrite. -/
  blkErr : SMap Nat := []
  blkHard : SMap Nat := []
  /-- What has become of a block with more bad symbols than its code corrects, once it has been read (R205, R214): 1 it fails
  every read, n + 2 it reads as other bytes. -/
  blkFate : SMap Nat := []
  rings : SMap Ring := []
  ctxs : SMap Ctx := []
  rrc0 : List RrcEntry := []
  rrc1 : List RrcEntry := []
  fills0 : List RrcFill := []
  fills1 : List RrcFill := []
  /-- Unicast entries, keyed by version × 32,768 + chip; unlisted is NONE, 0x3F (R329). -/
  routes : SMap Nat := []
  /-- Multicast entries, keyed by version × 4,096 + group (R340). -/
  mcast : SMap Nat := []
  /-- Packets that have arrived at a router input: links 0 to 5, dies 6 and 7, hub 8. -/
  rtIn : SMap (List Packet) := []
  /-- Packets that wait at an output of the router: links 0 to 5, dies 6 and 7, hub 8. -/
  outQ : SMap (List QPkt) := []
  /-- Requests held for their fence (R336). -/
  fenced : List Nat := []
  /-- The 256-entry outbox of the side-band, the next FSEQ, and whether its overflow has been logged (R524). -/
  outbox : List OutMsg := []
  fseq : Nat := 1
  outboxFull : Bool := false
  /-- Configuration memory (R484): erased bytes read 0xFF. -/
  flash : SMap Byte := []
  /-- The configuration-memory operation in progress is the head; the rest wait in the order of R558. -/
  cfgQ : List CfgOp := []
  /-- The repair record's entries (R226), and the hard-fault suspects of each DRAM row and column group (R225). -/
  repairRec : List Nat := []
  rowSuspects : SMap Nat := []
  colSuspects : SMap (List Nat) := []
  /-- Spare rows and column groups left in each stack (R223, R224). -/
  spareRows : SMap Nat := []
  spareCols : SMap Nat := []
  /-- Gleaner: the next block of each stack, passes completed, page counts, and pages already logged (R218 to R222). -/
  glnPos : SMap Nat := []
  glnPasses : SMap Nat := []
  pageCount : SMap Nat := []
  pageLogged : SMap Bool := []
  /-- Queue pairs, Ethernet ports, and everything the module has sent to the outside, oldest first. -/
  qps : SMap Qp := []
  ports : SMap EthPort := []
  sent : List OutEv := []
  /-- Command DMA channels in use, keyed by die × 8 + channel, with the command's key (R265). -/
  chans : SMap Nat := []
  /-- Snapshots: requests waiting, the first being served; whether the freeze of R280 lasts; commands held by it. -/
  snapQ : List SnapReq := []
  frozen : Bool := false
  snapImage : List Byte := []
  held : List Instr := []
  /-- Drill spacing (R117): the cycles of each die's recent admissions. -/
  waves : SMap (List Nat) := []
  /-- The bindings of the kernels that run, keyed by kernel key × 1,024 + binding. -/
  bindings : SMap Binding := []
  /-- How many KERNEL commands have begun to wait for tiles. -/
  kernelSeq : Nat := 0
  links : SMap Link := []
  nextPkt : Nat := 0
  /-- COLL, MC_WRITE and CTRL packets delivered to the hub, oldest first. -/
  hubIn : List Packet := []
  /-- The arbitration of the router's local outputs (R338): the dies' ports 6 and 7, and the hub's 8. -/
  portArb : SMap Arb := []
  /-- Bring-up: when the step in progress began, what the waits of R494 have taken from it, and the hold decided at
  step 4 (a BOOT_STAT.CAUSE code). -/
  bootAt : Nat := 0
  bootWait : Nat := 0
  bootHold : Nat := 0
  /-- Group definitions, the cause of each group's last failed DEFINE or UNDEFINE, and definitions in progress. -/
  groups : SMap CollGroup := []
  groupFail : SMap Nat := []
  groupDefs : List (Nat × Nat) := []
  /-- Collectives, in the order in which they joined the admission queues, and the revocations multicast as root. -/
  colls : SMap Coll := []
  collSeq : Nat := 0
  rootRevoked : List (Nat × Nat) := []
  /-- The always-on domain and its surroundings. -/
  fuse : Fuse := {}
  hw : Health := {}
  pins : Pins := {}
  pwr : Pwr := {}
  clk0 : Clk := {}
  clk1 : Clk := {}
  /-- The tile defect record as it stands, entries tile and SOURCE, and tiles named by ladder step 3 (R503). -/
  defects : List (Nat × Nat) := []
  ladderTiles : List Nat := []
  /-- The configuration block read at step 4, and where bring-up returns after the rails come on again: the final state
  and cause of R497. -/
  cfgBlk : List Byte := []
  rerun : Option (Nat × Nat) := none
  /-- The HBM layout of the last bring-up: LEVEL, SET and RAW_GIB of each region (R222). -/
  layout : List (Nat × Nat × Nat) := []
  /-- Runs of the ladder, the next number, and step 4 in progress (R474). -/
  jobs : SMap RJob := []
  jobSeq : Nat := 0
  step4 : Bool := false
  ptp : Ptp := {}
  mgmt : Mgmt := {}
  kept : Kept := {}
  deriving DecidableEq, Repr

/-- The module right after reset (log entry 1). -/
def State.reset : State := {}

/-- The answer of a meaning. -/
abbrev Ans := Host.Outcome State Fault Refusal

end Sys2Proof.Machine
end

