-- ==== Sys2Proof/Machine/Ops.lean ====
section
/-! DEFINITION. Machine/Ops.lean: the named operations over the state: register fields, tiles, rings, contexts,
timestamps, the event log, and free values. -/

namespace Sys2Proof.Machine

/-! ### Register fields -/

/-- The value of a register field. -/
def getF (f : Fld) (s : State) : Nat := smLook f.rst s.regs (fldKey f)

/-- Set a register field, truncated to its width. -/
def setF (f : Fld) (v : Nat) (s : State) : State :=
  { s with regs := smPut f.rst s.regs (fldKey f) (v % 2 ^ f.w) }

/-- Note that a counter has counted `n` in this cycle (R85, R125). -/
def noteSame (f : Fld) (n : Nat) (s : State) : State := { s with sameCyc := smMod 0 s.sameCyc (fldKey f) (· + n) }

/-- Add to a counter, which saturates at all ones (R19). -/
def bump (f : Fld) (n : Nat) (s : State) : State := noteSame f n (setF f (min (getF f s + n) (2 ^ f.w - 1)) s)

/-- Set a field of a record of the last event, which a clear in the same cycle leaves. -/
def setSame (f : Fld) (v : Nat) (s : State) : State := { setF f v s with sameCyc := smPut 0 s.sameCyc (fldKey f) (v % 2 ^ f.w) }

/-- Set a one-bit field. -/
def setB (f : Fld) (b : Bool) (s : State) : State := setF f (if b then 1 else 0) s

/-- Read a one-bit field. -/
def getB (f : Fld) (s : State) : Bool := getF f s == 1

/-- Set every field of a list to zero. -/
def zeroF (fs : List Fld) (s : State) : State := fs.foldl (fun s f => setF f 0 s) s

/-- Set the registers from `lo` to `hi` of the block at `base` to zero. All of them reset to zero. What has been counted in this
cycle counts after the clear (R85, R125, R235, R238, R321, R349, R381, R419, R460). -/
def clearRegs (base lo hi : Nat) (s : State) : State :=
  let lo' := (base + lo) * 64
  let n := (hi + 8 - lo) * 64
  let kept := s.sameCyc.filter fun e => lo' ≤ e.1 && e.1 < lo' + n
  { s with regs := kept.foldl (fun m e => smPut 0 m e.1 e.2) (smClear s.regs lo' n) }

/-! ### Parts of the state -/

/-- Tile `t`. -/
def getT (t : Nat) (s : State) : Tile := smLook {} s.tiles t
/-- Replace tile `t`. -/
def setT (t : Nat) (x : Tile) (s : State) : State := { s with tiles := smPut {} s.tiles t x }
/-- Change tile `t`. -/
def modT (t : Nat) (f : Tile → Tile) (s : State) : State := setT t (f (getT t s)) s
/-- Change every listed tile. -/
def mapTiles (f : Nat → Tile → Tile) (s : State) : State :=
  { s with tiles := (List.map (fun (e : Nat × Tile) => (e.1, f e.1 e.2)) s.tiles).filter fun e => e.2 ≠ {} }
/-- Ring `r`. -/
def getR (r : Nat) (s : State) : Ring := smLook {} s.rings r
/-- Replace ring `r`. -/
def setR (r : Nat) (x : Ring) (s : State) : State := { s with rings := smPut {} s.rings r x }
/-- Change ring `r`. -/
def modR (r : Nat) (f : Ring → Ring) (s : State) : State := setR r (f (getR r s)) s
/-- Context `c`. -/
def getC (c : Nat) (s : State) : Ctx := smLook {} s.ctxs c
/-- Replace context `c`. -/
def setC (c : Nat) (x : Ctx) (s : State) : State := { s with ctxs := smPut {} s.ctxs c x }
/-- Change context `c`. -/
def modC (c : Nat) (f : Ctx → Ctx) (s : State) : State := setC c (f (getC c s)) s

/-- The entry at a key of a map whose entries may be absent. -/
def lookO (m : SMap α) (k : Nat) : Option α := (m.find? fun e => e.1 == k).map (·.2)
/-- Insert or replace an entry of such a map. -/
def putO (m : SMap α) (k : Nat) (x : α) : SMap α := smIns (smDel m k) k x

/-- The key of a command: ring and index. -/
def cmdKey (ring idx : Nat) : Nat := ring * 2 ^ 32 + idx
/-- The kernel of a command key. -/
def getK (k : Nat) (s : State) : Option Kernel := lookO s.kernels k
/-- Replace a kernel. -/
def setK (k : Nat) (x : Kernel) (s : State) : State := { s with kernels := putO s.kernels k x }
/-- Change a kernel, if it exists. -/
def modK (k : Nat) (f : Kernel → Kernel) (s : State) : State :=
  match getK k s with
  | some x => setK k (f x) s
  | none => s
/-- Remove a kernel. -/
def delK (k : Nat) (s : State) : State := { s with kernels := smDel s.kernels k }

/-! ### Free values -/

/-- The next free value (log entry 3). -/
def freeNat (s : State) : Nat := (Config.freeValue s.freeCtr).toNat
/-- Count a free value as taken. -/
def tick1 (s : State) : State := { s with freeCtr := s.freeCtr + 1 }

/-! ### Timestamps (R251) -/

/-- The domains that give timestamps. -/
inductive Dom where
  | always | arith | hbm | router | eth | mgmt
  deriving DecidableEq, Repr

/-- The number of a domain. -/
def domIx : Dom → Nat
  | .always => 0 | .arith => 1 | .hbm => 2 | .router => 3 | .eth => 4 | .mgmt => 5

/-- R251: the bound on the lag d of a domain's timestamps. -/
def domLag : Dom → Nat
  | .always => 10 | .arith => 40 | .hbm => 40 | .router => 45 | .eth => 40 | .mgmt => 50

/-- R280: the arithmetic domain always lags, so that a completion posted before a snapshot carries less than SNAP_TIME. -/
def domLeast : Dom → Nat
  | .arith => 1 | _ => 0

/-- R251: a timestamp of a domain: the time base less a free lag within the bound, and never below the domain's last. -/
def stampVal (d : Dom) (s : State) : Nat :=
  max (smLook 0 s.stamps (domIx d)) (s.tb - (domLeast d + freeNat s % (domLag d + 1 - domLeast d)))

/-- Note a timestamp as the domain's last. -/
def stampUse (d : Dom) (s : State) : State :=
  tick1 { s with stamps := smPut 0 s.stamps (domIx d) (stampVal d s) }

/-! ### Elapsed time (log entry 75) -/

/-- The key of a timer of number `n`. -/
def timerKey (t : Timer) (n : Nat) : Nat := t.ctorIdx * 2 ^ 48 + n
/-- Measure a time from now on. -/
def timerSet (t : Timer) (n : Nat) (s : State) : State := { s with timers := putO s.timers (timerKey t n) s.tb }
/-- Have `gap` ns passed since the instant that a timer keeps? One that keeps none has no instant to wait for. -/
def timerDue (t : Timer) (n gap : Nat) (s : State) : Bool :=
  match lookO s.timers (timerKey t n) with
  | some a => a + gap ≤ s.tb
  | none => true
/-- What happens every `gap` ns: not before its time. -/
def every (t : Timer) (n gap : Nat) (f : State → State) (s : State) : State :=
  if timerDue t n gap s then f (timerSet t n s) else s

/-- R516: the watchdog watches the paths of a core that has become active from now on. -/
def beatStart (s : State) : State := timerSet .wireBeat 0 (timerSet .boxBeat 0 s)

/-! ### Fields of records -/

/-- A field of a descriptor: `n` bytes at `o`. -/
def dField (l : List Byte) (o n : Nat) : Nat := leNat (sliceB l o n)

/-- Are bytes `o` to `o + n - 1` of a descriptor zero? -/
def dZero (d : List Byte) (o n : Nat) : Bool := (sliceB d o n).all (· == 0)

/-! ### The event log (R480 to R482, R524) -/

/-- The 64 bytes of a record. -/
def recBytes (r : LogRec) : List Byte :=
  leBytes 8 r.seq ++ leBytes 8 r.time ++ leBytes 2 r.code ++
  [BitVec.ofNat 8 (match r.part with | some p => p | none => 8), 0] ++
  leBytes 2 (match r.ctx with | some c => c | none => 0xFFFF) ++ [0, 0] ++ leBytes 8 r.loc ++
  (r.args ++ List.replicate 32 0).take 32

/-- Append a record, overwriting the oldest when the log holds 16,384. -/
def logAppend (r : LogRec) (s : State) : State :=
  let tail := r.seq + 1
  let s := { s with log := smIns (if 16384 < tail then smDel s.log (tail - 16385) else s.log) r.seq r }
  setF Reg.LOG_HEAD (tail - 16384) (setF Reg.LOG_TAIL tail s)

/-- The next record. -/
def mkRec (e : Ev) (part ctx : Option Nat) (loc : Nat) (args : List Byte) (s : State) : LogRec :=
  ⟨getF Reg.LOG_TAIL s, stampVal .mgmt s, evCode e, part, ctx, loc, args⟩

/-- R521, R524, R525: the event data of a PlatformEventMessage. The layout after BOOT_COUNT and FSEQ of a state sensor's
event is DSP0248's (PRESUMED). -/
def outBytes (m : OutMsg) : List Byte :=
  leBytes 4 m.boot ++ leBytes 4 m.fseq ++
  match m.body with
  | .record r => recBytes r
  | .sensor id now before => leBytes 2 id ++ ([1, 0, now, before] : List Nat).map (BitVec.ofNat 8)

/-- R524: queue a PlatformEventMessage and send it when a core is active; a full outbox queues nothing. -/
def outboxPush (b : OutBody) (s : State) : State :=
  if s.outbox.length < 256 then
    let m : OutMsg := ⟨getF Reg.MGT_SB_STAT_BOOT_COUNT s, s.fseq, b⟩
    let s := setF Reg.MGT_SB_STAT_OUTBOX_PENDING (min 255 (s.outbox.length + 1))
      { s with outbox := s.outbox ++ [m], fseq := s.fseq + 1, outboxFull := false }
    if s.mgmt.up then setF Reg.MGT_SB_SEQ_LAST_SENT m.fseq { s with sent := s.sent ++ [.pldmEvent (outBytes m)] } else s
  else s

/-- Append one record without the side-band's own overflow event. -/
def logRaw (e : Ev) (part ctx : Option Nat) (loc : Nat) (args : List Byte) (s : State) : State :=
  let r := mkRec e part ctx loc args s
  outboxPush (.record r) (logAppend r (stampUse .mgmt s))

/-- Log an event. A record that finds the outbox full logs SIDEBAND_OUTBOX_FULL once until space returns (R524). -/
def logEv (e : Ev) (part ctx : Option Nat) (loc : Nat) (args : List Byte) (s : State) : State :=
  let full := 256 ≤ s.outbox.length
  let s := logRaw e part ctx loc args s
  if full && !s.outboxFull then { logRaw .sidebandOutboxFull none none 0 [] s with outboxFull := true } else s

/-- R521, R524: a state sensor has changed. A full outbox logs SIDEBAND_OUTBOX_FULL once. -/
def sensorNote (id now before : Nat) (s : State) : State :=
  if now = before then s
  else if 256 ≤ s.outbox.length ∧ !s.outboxFull then
    { logRaw .sidebandOutboxFull none none 0 [] s with outboxFull := true }
  else outboxPush (.sensor id now before) s

/-- R494: the time that bring-up waits in RAILS_WAIT does not count for step 4 of the ladder. -/
def waitNote (old v : Nat) (s : State) : State :=
  let at_ (t : Timer) : Nat := (lookO s.timers (timerKey t 0)).getD s.tb
  if v = 1 && old ≠ 1 then timerSet .waiting 0 s
  else if v ≠ 1 && old = 1 then
    { s with timers := putO s.timers (timerKey .step4 0) (at_ .step4 + (s.tb - at_ .waiting)) }
  else s

/-- Set BOOT_STAT.STATE, which state sensor 0x0210 shows (R521). -/
def setBoot (v : Nat) (s : State) : State :=
  let old := getF Reg.BOOT_STAT_STATE s
  sensorNote 0x0210 v old (setF Reg.BOOT_STAT_STATE v (waitNote old v s))

/-- 16-bit ARG fields. -/
def arg16 (l : List Nat) : List Byte := (l.map (leBytes 2)).flatten

/-- R510: ARG of a bring-up event: the BOOT_STAT.CAUSE code. -/
def causeArg (s : State) : List Byte := arg16 [getF Reg.BOOT_STAT_CAUSE s]
/-- R510: log a bring-up event. -/
def logBoot (e : Ev) (loc : Nat) (s : State) : State := logEv e none none loc (causeArg s) s

/-- R216, R346, R482: log an event whose rule limits its rate: at most one per key in `gap` ns; the others add to
LOG_STAT.SUPPRESSED. -/
def logLimited (key gap : Nat) (e : Ev) (part ctx : Option Nat) (loc : Nat) (args : List Byte) (s : State) : State :=
  match lookO s.logLast key with
  | some t =>
    if s.tb < t + gap then bump Reg.LOG_STAT_SUPPRESSED 1 s
    else logEv e part ctx loc args { s with logLast := putO s.logLast key s.tb }
  | none => logEv e part ctx loc args { s with logLast := putO s.logLast key s.tb }

/-! ### Identity -/

/-- The module's own chip number: SYS_CHIP[14:0] (R40). -/
def ownChip (s : State) : Nat :=
  getF Reg.SYS_CHIP_X s * 1024 + getF Reg.SYS_CHIP_Y s * 32 + getF Reg.SYS_CHIP_Z s

/-- The die of a physical tile. -/
def tileDie (t : Nat) : Nat := t / 136

/-- A global address of this module (R29). -/
def ownGlobal (off : Nat) (s : State) : Nat := ownChip s * 2 ^ 40 + off

/-- Iterate over the numbers below `n`. -/
def forN (n : Nat) (f : Nat → State → State) (s : State) : State := (List.range n).foldl (fun s i => f i s) s

end Sys2Proof.Machine
end

