-- ==== Sys2Proof/Machine/Hbm.lean ====
section
/-! DEFINITION. Machine/Hbm.lean: the HBM layout (R206 to R208), code blocks (R203, R212 to R216), the initialisation
map (R227, R228) and repairs (R225). -/

namespace Sys2Proof.Machine

/-- An HBM region in force (R206, R237). -/
structure Region where
  level : Nat
  set : Nat
  rawGib : Nat
  base : Nat
  deriving DecidableEq, Repr

/-- The present stacks of a SET (R206): 0 = ALL, 1 = DIE0, 2 = DIE1. -/
def setStacks (present : Nat) (set : Nat) : List Nat :=
  (List.range 8).filter fun k => present.testBit k && (set = 0 || (set = 1 && k < 4) || (set = 2 && 4 ≤ k))

/-- R207: the usable bytes of a region. -/
def regionSize (present : Nat) (r : Region) : Nat :=
  (setStacks present r.set).length * r.rawGib * 2 ^ 30 * (32 - r.level) / 32

/-- The present stacks: MEM_STATUS.STACKS_PRESENT. -/
def stacksPresent (s : State) : Nat := getF Reg.MEM_STATUS_STACKS_PRESENT s

/-- The regions in force: the MEM_REGION registers. -/
def regions (s : State) : List Region :=
  (List.range 8).filterMap fun n =>
    if getF (fldNth Reg.MEM_REGION_VALID n) s = 1 then
      some ⟨getF (fldNth Reg.MEM_REGION_LEVEL n) s, getF (fldNth Reg.MEM_REGION_SET n) s,
        getF (fldNth Reg.MEM_REGION_RAW_GIB n) s, getF (fldNth Reg.MEM_REGION_BASE n) s * 4096⟩
    else none

/-- R208: the raw start of a region in a stack. -/
def rawStart (k : Nat) (r : Region) (s : State) : Nat :=
  (((regions s).takeWhile fun q => q.base < r.base).filter fun q => (setStacks (stacksPresent s) q.set).contains k).foldl
    (fun a q => a + q.rawGib * 2 ^ 30) 0

/-- Where an offset lies in raw stack memory (R208): the stack, the code level, the slot within its segment, and the raw
addresses of its data byte and of its block's check field. -/
structure HbmPlace where
  stack : Nat
  level : Nat
  slot : Nat
  data : Nat
  chk : Nat
  deriving DecidableEq, Repr

/-- R204, R208: the place of an offset, or none outside every region. -/
def hbmPlace (s : State) (o : Nat) : Option HbmPlace :=
  let pres := stacksPresent s
  match (regions s).find? fun r => r.base ≤ o && o < r.base + regionSize pres r with
  | none => none
  | some r =>
    let l := setStacks pres r.set
    let g := (o - r.base) / 4096
    let k := l.getD (g % l.length) 0
    let b := g / l.length * 8 + o / 512 % 8
    let slot := b % (32 - r.level)
    let seg := rawStart k r s + b / (32 - r.level) * 0x4000
    some ⟨k, r.level, slot, seg + slot * 512 + o % 512, seg + (32 - r.level) * 512 + slot * (16 * r.level)⟩

/-- What a raw byte of a stack is (R204, R206): a data byte of a module offset, byte `i` of the check field of the block at
an offset, a byte at the end of a segment that is written as zero and never read, or memory that no region takes. -/
inductive RawByte where
  | data (o : Nat)
  | check (o i : Nat)
  | zero
  | unused
  deriving DecidableEq, Repr

/-- R208 read backwards: the module offset of data block `b` of the share of stack `k` in a region. -/
def blockOffset (k : Nat) (r : Region) (b : Nat) (s : State) : Nat :=
  let l := setStacks (stacksPresent s) r.set
  r.base + (b / 8 * l.length + l.idxOf k) * 4096 + b % 8 * 512

/-- R204: what byte `a` of the raw memory of stack `k` is. -/
def rawAt (k a : Nat) (s : State) : RawByte :=
  match (regions s).find? fun r => (setStacks (stacksPresent s) r.set).contains k && rawStart k r s ≤ a &&
      a < rawStart k r s + r.rawGib * 2 ^ 30 with
  | none => .unused
  | some r =>
    let seg := (a - rawStart k r s) / 0x4000
    let x := (a - rawStart k r s) % 0x4000
    let n := 32 - r.level
    if x < n * 512 then .data (blockOffset k r (seg * n + x / 512) s + x % 512)
    else
      let i := x - n * 512
      if i < n * (16 * r.level) then .check (blockOffset k r (seg * n + i / (16 * r.level)) s) (i % (16 * r.level)) else .zero

/-- R34: is the offset backed HBM? -/
def hbmBacked (o n : Nat) (s : State) : Bool := o + n ≤ getF Reg.MEM_USABLE s

/-- The stack of an offset, 0 when it lies in no region. -/
def stackOf (o : Nat) (s : State) : Nat := match hbmPlace s o with | some p => p.stack | none => 0

/-- The die that holds an offset. -/
def dieOf (o : Nat) (s : State) : Nat := stackOf o s / 4

/-- The number of symbols that the code of an offset's region corrects (R203). -/
def codeT (o : Nat) (s : State) : Nat := match hbmPlace s o with | some p => 4 * p.level | none => 8

/-- The DRAM location of an offset, as a repair-record entry: the stack, and what the fixed hash of its raw segment gives, which
the spec leaves open (R208; log entry 10). -/
def dramOf (o : Nat) (s : State) : Nat :=
  match hbmPlace s o with
  | some p => p.stack % 8 + Config.dramLoc p.stack (p.data / 0x4000) / 16 % 2 ^ 38 * 16
  | none => 0

/-- Raw bytes of HBM. -/
def hbmBytes (o n : Nat) (s : State) : List Byte := smLookList 0 s.hbm o n

/-- Put bytes into HBM. -/
def hbmPut (o : Nat) (l : List Byte) (s : State) : State := { s with hbm := smPutList 0 s.hbm o l }

/-- Has the granule of an offset been written (R227)? -/
def granuleWritten (o : Nat) (s : State) : Bool := smLook false s.written (o / 4096)

/-- R228: mark a granule written, its blocks freshly encoded. -/
def granuleMark (o : Nat) (s : State) : State :=
  let g := o / 4096
  let s := { s with
    written := smPut false s.written g true
    blkFate := smClear s.blkFate (g * 8) 8
    blkErr := (List.range 8).foldl (fun m i => smPut 0 m (g * 8 + i) (smLook 0 s.blkHard (g * 8 + i))) s.blkErr }
  if dieOf o s = 0 then bump Reg.MEM_INIT_WRITTEN_D0 1 s else bump Reg.MEM_INIT_WRITTEN_D1 1 s

/-- R229, R230: the instant at which a granule's bit clears. -/
def granuleTrim (g : Nat) (s : State) : State :=
  if smLook false s.written g then
    let s' := { s with
      written := smPut false s.written g false
      hbm := smClear s.hbm (g * 4096) 4096
      blkErr := smClear s.blkErr (g * 8) 8
      blkFate := smClear s.blkFate (g * 8) 8 }
    let f := if dieOf (g * 4096) s = 0 then Reg.MEM_INIT_WRITTEN_D0 else Reg.MEM_INIT_WRITTEN_D1
    setF f (getF f s - 1) s'
  else s

/-- Queue a configuration-memory operation behind those of its priority or higher (R558). -/
def cfgPush (op : CfgOp) (s : State) : State :=
  match s.cfgQ with
  | [] => { s with cfgQ := [op] }
  | h :: l => { s with cfgQ := h :: (l.takeWhile (·.prio ≤ op.prio) ++ [op] ++ l.dropWhile (·.prio ≤ op.prio)) }

/-- One bit of the IEEE 802.3 CRC-32, reflected. -/
def crc32Bit (c : Nat) : Nat := if c % 2 = 1 then (c / 2).xor 0xEDB88320 else c / 2

/-- CRC-32 with the IEEE 802.3 polynomial over bytes (R226, R487). -/
def crc32 (l : List Byte) : Nat :=
  (l.foldl (fun c b => (List.range 8).foldl (fun c _ => crc32Bit c) (c.xor b.toNat)) 0xFFFFFFFF).xor 0xFFFFFFFF

/-- R226: the bytes of a repair record. -/
def repairBytes (es : List Nat) : List Byte :=
  let hdr := leBytes 2 1 ++ leBytes 2 es.length
  let body := (es.map (leBytes 8)).flatten
  hdr ++ leBytes 4 (crc32 (hdr ++ body)) ++ List.replicate 8 0 ++ body

/-- The row of a DRAM location: bits [35:0] of R226, without bit 3. -/
def rowKey (loc : Nat) : Nat := loc % 2 ^ 36

/-- The column group of one bank of a DRAM location: bits [41:36] and [17:0] of R226. -/
def colKey (loc : Nat) : Nat := loc % 2 ^ 18 + loc / 2 ^ 36 % 64 * 2 ^ 36

/-- R223, R226: what an entry replaces: the bits that its KIND uses, and the KIND. -/
def repairKey (e : Nat) : Nat :=
  let kind := e / 2 ^ 42 % 4
  (if kind = 2 then colKey e else rowKey e) + kind * 2 ^ 42

/-- R225: queue a repair: `kind` 1 row, 2 column group; `source` as R226 gives. What the record already holds is not queued
again, and a full record is noticed before a stack without spares (DESIGN CHOICE, log entry 59). -/
def queueRepair (k loc kind source : Nat) (s : State) : State :=
  let entry := loc % 2 ^ 42 + kind * 2 ^ 42 + source * 2 ^ 48
  let spares := if kind = 1 then s.spareRows else s.spareCols
  if (s.repairRec.map repairKey).contains (repairKey entry) then s
  else if 4096 ≤ s.repairRec.length then logEv .hbmRepairRecordFull none none k (leBytes 8 entry) s
  else if smLook 0 spares k = 0 then logEv .hbmRepairExhausted none none k (leBytes 8 entry) s
  else
    let rs := s.repairRec ++ [entry]
    let s := bump Reg.MEM_REPAIR_STAT_QUEUED 1 { s with repairRec := rs }
    logEv .hbmRepairQueued none none k (leBytes 8 entry) (cfgPush ⟨2, [(0x0C030000, repairBytes rs)], .none⟩ s)

/-- R225: one uncorrectable block queues a row repair. -/
def repairOnUe (o : Nat) (s : State) : State :=
  queueRepair (stackOf o s) (rowKey (dramOf o s)) 1 1 s

/-- R225: two suspects in one row queue a row repair; suspects in four rows of one column group queue a column-group
repair. One block found hard in two passes counts as two suspects of its row, and the tallies live across resets (DESIGN
CHOICE, log entry 59). -/
def repairOnSuspect (o : Nat) (s : State) : State :=
  let loc := dramOf o s
  let row := rowKey loc
  let col := colKey loc
  let n := smLook 0 s.rowSuspects row + 1
  let rows := if (smLook [] s.colSuspects col).contains row then smLook [] s.colSuspects col
    else row :: smLook [] s.colSuspects col
  let s := { s with rowSuspects := smPut 0 s.rowSuspects row n, colSuspects := smPut [] s.colSuspects col rows }
  let s := if n = 2 then queueRepair (stackOf o s) row 1 1 s else s
  if rows.length = 4 then queueRepair (stackOf o s) col 2 1 s else s

/-- R210, R219: record a correction of `n` symbols in the histogram and in MEM_STK_LAST_CE. -/
def noteCe (o n : Nat) (s : State) : State :=
  let k := stackOf o s
  let f := if n = codeT o s then Reg.MEM_STK_CE_HIST_FULL else if n = 1 then Reg.MEM_STK_CE_HIST_ONE
    else if n = 2 then Reg.MEM_STK_CE_HIST_TWO else Reg.MEM_STK_CE_HIST_MID
  let s := bump (stkF k f) 1 s
  setSame (stkF k Reg.MEM_STK_LAST_CE_OFFSET) o
    (setSame (stkF k Reg.MEM_STK_LAST_CE_SYMBOLS) n (setSame (stkF k Reg.MEM_STK_LAST_CE_VALID) 1 s))

/-- Record a failure in MEM_STK_LAST_UE. -/
def noteUe (o : Nat) (scrub : Bool) (s : State) : State :=
  let k := stackOf o s
  setSame (stkF k Reg.MEM_STK_LAST_UE_OFFSET) o
    (setSame (stkF k Reg.MEM_STK_LAST_UE_SCRUB) (if scrub then 1 else 0) (setSame (stkF k Reg.MEM_STK_LAST_UE_VALID) 1 s))

/-- R216: a failed demand read: counted, recorded, logged at most once per block per second, and a repair queued. -/
def ueDemand (o req : Nat) (s : State) : State :=
  let k := stackOf o s
  let s := noteUe o false (bump (stkF k Reg.MEM_STK_UE_DEMAND) 1 s)
  let s := logLimited (2 ^ 60 + o) 1000000000 .hbmUeDemand none none o (leBytes 8 (dramOf o s) ++ arg16 [k, req]) s
  repairOnUe o s

/-- R205, R214: what becomes of a block with more bad symbols than its code corrects, settled when it is first read and kept
until the block is written or trimmed: 1, it fails every read; n + 2, it is taken for another block, whose bytes are the n-th
free ones (log entry 9). -/
def blockFate (o : Nat) (s : State) : Nat × State :=
  match smLook 0 s.blkFate (o / 512) with
  | 0 =>
    let f := if Config.errOutcome s.freeCtr = 0 then 1 else s.freeCtr + 2
    (f, { tick1 s with blkFate := smPut 0 s.blkFate (o / 512) f })
  | f => (f, s)

/-- The bytes that a miscorrected block reads as. -/
def misBlock (f : Nat) : List Byte := (List.range 512).map (Config.misread (f - 2))

/-- The symbols that the decoder of a miscorrected block believes it has corrected: a free number up to the code's. -/
def misCount (f o : Nat) (s : State) : Nat := 1 + (Config.freeValue f).toNat % codeT o s

/-- R205: `sym` more symbols of a written block go bad. A block that fails keeps failing (R214). -/
def blockDecay (o sym : Nat) (s : State) : State :=
  if sym = 0 then s
  else { s with
    blkErr := smMod 0 s.blkErr (o / 512) (· + sym)
    blkFate := if smLook 0 s.blkFate (o / 512) = 1 then s.blkFate else smPut 0 s.blkFate (o / 512) 0 }

/-- R210, R214 to R216, R228: a demand read of the code block at `o` (512-byte aligned) for requester `req`: the
block's bytes, or none when it does not decode. -/
def blockRead (o req : Nat) (s : State) : Option (List Byte) × State :=
  if !granuleWritten o s then (some (List.replicate 512 0), s)
  else
    let n := smLook 0 s.blkErr (o / 512)
    if n = 0 then (some (hbmBytes o 512 s), s)
    else if n ≤ codeT o s then
      (some (hbmBytes o 512 s), noteCe o n (bump (stkF (stackOf o s) Reg.MEM_STK_CE_DEMAND) 1 s))
    else
      match blockFate o s with
      | (1, s) => (none, ueDemand o req s)
      | (f, s) => (some (misBlock f), noteCe o (misCount f o s) (bump (stkF (stackOf o s) Reg.MEM_STK_CE_DEMAND) 1 s))

/-- R212: encode the block afresh with the bytes in place. -/
def blockEncode (o : Nat) (s : State) : State :=
  { s with
    blkErr := smPut 0 s.blkErr (o / 512) (smLook 0 s.blkHard (o / 512))
    blkFate := smPut 0 s.blkFate (o / 512) 0 }

/-- R212, R228: a write of `l` at `o` within one code block. False when the partial write failed. -/
def blockWrite (o : Nat) (l : List Byte) (req : Nat) (s : State) : Bool × State :=
  let b := o / 512 * 512
  if !granuleWritten o s then
    (true, hbmPut o l (granuleMark o { s with hbm := smClear s.hbm (o / 4096 * 4096) 4096 }))
  else if l.length = 512 then (true, hbmPut o l (blockEncode b s))
  else
    match blockRead b req s with
    | (none, s) => (false, s)
    | (some old, s) => (true, hbmPut o l (hbmPut b old (blockEncode b s)))

/-- Split the range [o, o+n) at 512-byte boundaries. -/
def splitBlocks (o n : Nat) : List (Nat × Nat) :=
  (List.range ((o + n + 511) / 512 - o / 512)).map fun i =>
    let lo := max o ((o / 512 + i) * 512)
    let hi := min (o + n) ((o / 512 + i + 1) * 512)
    (lo, hi - lo)

/-- Read a range block by block; the address of the first block that fails otherwise. -/
def hbmRead (o n req : Nat) (s : State) : Except Nat (List Byte) × State :=
  (splitBlocks o n).foldl (fun acc p =>
    match acc with
    | (.error e, s) => (.error e, s)
    | (.ok l, s) =>
      match blockRead (p.1 / 512 * 512) req s with
      | (none, s) => (.error (p.1 / 512 * 512), s)
      | (some b, s) => (.ok (l ++ sliceB b (p.1 % 512) p.2), s)) (.ok [], s)

/-- Write a range block by block, stopping at the first block that fails: its address then. -/
def hbmWrite (o : Nat) (l : List Byte) (req : Nat) (s : State) : Option Nat × State :=
  (splitBlocks o l.length).foldl (fun acc p =>
    match acc with
    | (some e, s) => (some e, s)
    | (none, s) =>
      match blockWrite p.1 (sliceB l (p.1 - o) p.2) req s with
      | (true, s) => (none, s)
      | (false, s) => (some (p.1 / 512 * 512), s)) (none, s)

/-- R156: the atomic functions: the new value from memory, Sb and Sc. -/
def atomFn (op : Nat) (wide unsgn : Bool) (old b c : B64) : B64 :=
  let cut (x : B64) : B64 := if wide then x else x &&& 0xFFFFFFFF#64
  let ext (x : B64) : B64 := if wide then x else (x.extractLsb' 0 32).signExtend 64
  let lt (x y : B64) : Bool := if unsgn then (cut x).ult (cut y) else (ext x).slt (ext y)
  match op with
  | 0 | 1 => cut (old + b)
  | 2 => if lt b old then cut b else old
  | 3 => if lt old b then cut b else old
  | _ => if old = cut c then cut b else old

/-- R156, R212, R368: an atomic at the stack controller: the old value, or none when the block does not decode. -/
def hbmAtomic (o op : Nat) (wide unsgn : Bool) (b c : B64) (req : Nat) (s : State) : Option B64 × State :=
  let n := if wide then 8 else 4
  match blockRead (o / 512 * 512) req s with
  | (none, s) => (none, s)
  | (some blk, s) =>
    let old : B64 := BitVec.ofNat 64 (leNat (sliceB blk (o % 512) n))
    let blk := blk.take (o % 512) ++ leBytes n (atomFn op wide unsgn old b c).toNat ++ blk.drop (o % 512 + n)
    (some old, (blockWrite (o / 512 * 512) blk req s).2)

end Sys2Proof.Machine
end

