-- ==== Sys2Proof/Machine/TileDecode.lean ====
section
/-! DEFINITION. Machine/TileDecode.lean: the encoding of the tile sequencer's instruction words (R130, R131, R137),
the checks that fault an instruction whatever its guard (R132), and the encoder. -/

namespace Sys2Proof.Machine

/-- The causes of a tile fault (R163). -/
inductive TCause where
  | illegalOpcode | reservedNonzero | operandFormat | operandAlign | operandRange | accessRefused
  | atomicRemote | atomicTarget | dmaDescInvalid | dataUncorrectable | fetchFault
  deriving DecidableEq, Repr

/-- R163: the code of a cause. -/
def tCauseCode : TCause → Nat
  | .illegalOpcode => 1 | .reservedNonzero => 2 | .operandFormat => 3 | .operandAlign => 4 | .operandRange => 5
  | .accessRefused => 6 | .atomicRemote => 7 | .atomicTarget => 8 | .dmaDescInvalid => 9
  | .dataUncorrectable => 10 | .fetchFault => 11

/-- R137: the OP byte of a mnemonic. -/
def opCode : TOp → BitVec 8
  | .nop => 0x00 | .endOp => 0x01 | .br => 0x02 | .mfsr => 0x03 | .lfsrld => 0x04
  | .alu => 0x10 | .alui => 0x11 | .movi => 0x12 | .movhi => 0x13 | .cmp => 0x14 | .cmpi => 0x15 | .plog => 0x16
  | .fpu => 0x18 | .fcmp => 0x19 | .amov => 0x20 | .adda => 0x21 | .mova => 0x22 | .ld => 0x28 | .st => 0x29
  | .valu => 0x30 | .valus => 0x31 | .vsfu => 0x32 | .vred => 0x33 | .vcvt => 0x34 | .vbcast => 0x35
  | .vld => 0x38 | .vst => 0x39 | .vdq => 0x3A | .vqnt => 0x3B | .mmul => 0x40 | .qmmul => 0x41 | .accrd => 0x42
  | .dma => 0x48 | .atom => 0x50 | .acq => 0x58 | .waitd => 0x59 | .signal => 0x5A | .waits => 0x5B | .waitf => 0x5C
  | .smxu => 0x60 | .smxm => 0x61

/-- Every mnemonic. -/
def allOps : List TOp :=
  [.nop, .endOp, .br, .mfsr, .lfsrld, .alu, .alui, .movi, .movhi, .cmp, .cmpi, .plog, .fpu, .fcmp, .amov, .adda, .mova,
   .ld, .st, .valu, .valus, .vsfu, .vred, .vcvt, .vbcast, .vld, .vst, .vdq, .vqnt, .mmul, .qmmul, .accrd, .dma, .atom,
   .acq, .waitd, .signal, .waits, .waitf, .smxu, .smxm]

/-- R137: the mnemonic of an OP byte; every other OP is not assigned. -/
def opOf (b : BitVec 8) : Option TOp := allOps.find? fun o => opCode o = b

/-- The three forms of R131. -/
inductive TForm where
  | g | i | m
  deriving DecidableEq, Repr

/-- R137: the form of a mnemonic. -/
def opForm : TOp → TForm
  | .nop | .endOp | .br | .mfsr | .alui | .movi | .movhi | .cmpi | .adda | .ld | .st | .vld | .vst | .dma | .waitd
  | .signal => .i
  | .mmul | .qmmul | .accrd => .m
  | _ => .g

/-- R131: the fields of a word in a form. -/
def formFields (f : TForm) (w : B64) : TArgs :=
  match f with
  | .g => .g (w.extractLsb' 12 6) (w.extractLsb' 18 6) (w.extractLsb' 24 6) (w.extractLsb' 30 6) (w.extractLsb' 36 8)
  | .i => .i (w.extractLsb' 12 6) (w.extractLsb' 18 6) (w.extractLsb' 24 8) (w.extractLsb' 32 32)
  | .m => .m (w.extractLsb' 12 4) (w.extractLsb' 16 4) (w.extractLsb' 20 4) (w.extractLsb' 24 4) (w.extractLsb' 28 4)
      (w.extractLsb' 32 3) (w.getLsbD 35) (w.extractLsb' 36 4) (w.extractLsb' 40 4) (w.getLsbD 44)

/-- R131: the bits above the fields of forms G and M. -/
def formZero (f : TForm) (w : B64) : Bool :=
  match f with
  | .g => w.extractLsb' 44 20 == 0
  | .i => true
  | .m => w.extractLsb' 45 19 == 0

/-- R130, R131: the word of an instruction. -/
def tileEncode (i : TileWord) : B64 :=
  let low : BitVec 12 := BitVec.ofBool i.pn ++ i.pg ++ opCode i.op
  match i.args with
  | .g d a b c fn => 0#20 ++ fn ++ c ++ b ++ a ++ d ++ low
  | .i d a fn imm => imm ++ fn ++ a ++ d ++ low
  | .m aact awgt ashd row0 mRows ksteps acc wfmt afmt shdEn =>
    0#19 ++ BitVec.ofBool shdEn ++ afmt ++ wfmt ++ BitVec.ofBool acc ++ ksteps ++ mRows ++ row0 ++ ashd ++ awgt ++
      aact ++ low

/-- The fields of a word whose OP is assigned, with the must-be-zero bits of its form not looked at. -/
def tileSplit (w : B64) : Option TileWord :=
  (opOf (w.extractLsb' 0 8)).map fun o => ⟨o, w.extractLsb' 8 3, w.getLsbD 11, formFields (opForm o) w⟩

/-- The largest register index of each file (R126, R132). -/
inductive RFile where
  | s | v | p | a
  deriving DecidableEq, Repr

/-- R132: the largest index of a file. -/
def fileMax : RFile → Nat
  | .s => 31 | .v => 63 | .p => 7 | .a => 15

/-- Which file a register field names, or that the instruction does not use it. -/
abbrev Use := Option RFile

/-- A field is within its file, or zero when not used. -/
def useOk (u : Use) (x : BitVec 6) : Bool :=
  match u with
  | none => x == 0
  | some f => x.toNat ≤ fileMax f

/-- The files that D, A, B and C of a form G instruction name under its FN (R137, R142 to R162). -/
def gUses (o : TOp) (fn : Nat) : Use × Use × Use × Use :=
  match o with
  | .lfsrld => (none, some .s, none, none)
  | .alu => (some .s, some .s, some .s, none)
  | .cmp => (some .p, some .s, some .s, none)
  | .plog => (some .p, some .p, some .p, none)
  | .fpu => (some .s, some .s, if fn ≤ 5 then some .s else none, if fn = 3 then some .s else none)
  | .fcmp => (some .p, some .s, some .s, none)
  | .amov => (some .a, some .s, none, none)
  | .mova => (some .s, some .a, none, none)
  | .valu => (some .v, some .v, if fn / 2 = 8 then none else some .v,
      if fn / 2 = 3 ∨ fn / 2 = 7 then some .v else none)
  | .valus => (some .v, some .v, some .s, if fn / 2 = 3 then some .v else none)
  | .vsfu => (some .v, some .v, none, none)
  | .vred => (some .s, some .v, none, none)
  | .vcvt => (some .v, some .v, none, none)
  | .vbcast => (some .v, some .s, none, none)
  | .vdq | .vqnt =>
    (some .v, some .a,
      match fmtOfCode (fn % 16) with
      | some f => if fmtScaled f then some .a else if f = .f3lb ∨ f = .t2 ∨ f = .e4m3 ∨ f = .e5m2 then none else some .a
      | none => some .a, none)
  | .atom => (some .s, some .a, some .s, if fn % 8 = 4 then some .s else none)
  | .acq => (none, if fn = 2 then some .a else none, if fn = 1 then some .s else none, if fn = 2 then some .s else none)
  | .waits => (none, some .s, none, none)
  | .waitf => (none, some .a, some .s, some .s)
  | .smxu => (some .v, some .v, some .s, none)
  | .smxm => (some .s, some .s, some .s, none)
  | _ => (none, none, none, none)

/-- Is FN assigned for a form G instruction? (R142 to R162; a must-be-zero bit of FN is another check.) -/
def gFnAssigned (o : TOp) (fn : Nat) : Bool :=
  match o with
  | .alu => fn ≤ 12 | .cmp => fn ≤ 5 | .plog => fn ≤ 3 | .fpu => fn ≤ 11 | .fcmp => fn ≤ 3
  | .valu => fn / 2 ≤ 8 | .valus => fn / 2 ≤ 5 | .vsfu => fn ≤ 3 | .vred => fn ≤ 2 | .vcvt => fn ≤ 3 | .vbcast => fn ≤ 1
  | .atom => fn % 8 ≤ 4 | .acq => fn ≤ 2 | .waitf => fn ≤ 2
  | _ => true

/-- The must-be-zero bits of FN in form G, and an FN that the instruction does not use. -/
def gFnZero (o : TOp) (fn : Nat) : Bool :=
  match o with
  | .lfsrld | .amov | .mova | .smxu | .smxm => fn = 0
  | .vdq | .vqnt | .atom => fn / 32 = 0
  | .waits => fn / 16 = 0
  | _ => true

/-- The files that D and A of a form I instruction name. -/
def iUses (o : TOp) : Use × Use :=
  match o with
  | .mfsr | .movi | .movhi => (some .s, none)
  | .alui => (some .s, some .s)
  | .cmpi => (some .p, some .s)
  | .adda => (some .a, some .a)
  | .ld | .st => (some .s, some .a)
  | .vld | .vst => (some .v, some .a)
  | .dma => (none, some .a)
  | _ => (none, none)

/-- Are FN and, for MFSR, the special-register number of a form I instruction assigned? -/
def iFnAssigned (o : TOp) (fn imm : Nat) : Bool :=
  match o with
  | .alui => fn ≤ 12 | .cmpi => fn ≤ 5 | .mfsr => imm ≤ 9
  | _ => true

/-- The must-be-zero bits and unused fields of FN and IMM in form I. -/
def iZero (o : TOp) (fn imm : Nat) : Bool :=
  match o with
  | .nop | .endOp => fn = 0 && imm = 0
  | .alui | .cmpi => true
  | .ld | .st => fn / 8 = 0
  | .dma => fn / 64 = 0
  | .waitd => fn = 0 && imm / 256 = 0
  | .signal => fn = 0 && imm / 16 % 16 = 0 && imm / 65536 = 0
  | _ => fn = 0

/-- R132: the fault that an instruction word raises whatever its guard; ILLEGAL_OPCODE is looked for first. -/
def tileWordFault (w : B64) : Option TCause :=
  match tileSplit w with
  | none => some .illegalOpcode
  | some i =>
    let zero := formZero (opForm i.op) w
    match i.args with
    | .g d a b c fn =>
      let u := gUses i.op fn.toNat
      if !gFnAssigned i.op fn.toNat then some .illegalOpcode
      else if zero && gFnZero i.op fn.toNat && useOk u.1 d && useOk u.2.1 a && useOk u.2.2.1 b && useOk u.2.2.2 c then none
      else some .reservedNonzero
    | .i d a fn imm =>
      let u := iUses i.op
      if !iFnAssigned i.op fn.toNat imm.toNat then some .illegalOpcode
      else if zero && iZero i.op fn.toNat imm.toNat && useOk u.1 d && useOk u.2 a then none
      else some .reservedNonzero
    | .m _ awgt ashd _ _ ksteps acc _ afmt shdEn =>
      let ok := match i.op with
        | .accrd => awgt == 0 && ashd == 0 && afmt == 0 && ksteps == 0 && !acc && !shdEn
        | _ => shdEn || ashd == 0
      if zero && ok then none else some .reservedNonzero

/-- A word that passes R132 is its instruction; any other raises its fault. -/
def tileDecode (w : B64) : Except TCause TileWord :=
  match tileWordFault w, tileSplit w with
  | some c, _ => .error c
  | none, some i => .ok i
  | none, none => .error .illegalOpcode

/-- Does the form of an instruction's fields match its mnemonic (what the encoder expects)? -/
def tileFormOk (i : TileWord) : Bool :=
  match opForm i.op, i.args with
  | .g, .g .. => true
  | .i, .i .. => true
  | .m, .m .. => true
  | _, _ => false

end Sys2Proof.Machine
end

