-- ==== Sys2Proof/Machine/TileOps.lean ====
section
/-! DEFINITION. Machine/TileOps.lean: the registers of a tile (R126), its scratchpad bytes and lines (R88, R135), and
what an instruction reads (R134). Everything here acts on one tile. -/

namespace Sys2Proof.Machine

/-- Read S[i]: S0 reads as zero (R126). -/
def rdS (t : Tile) (i : Nat) : B64 := if i = 0 then 0 else smLook 0 t.s i
/-- A write of S[i] by the instruction issued as number `seq` supersedes the pending writes of earlier instructions. -/
def killS (seq : Nat) (t : Tile) (i : Nat) : Tile :=
  { t with
    vecQ := t.vecQ.map fun o => if o.seq < seq then { o with sW := o.sW.map fun w => if w.1 = i then (w.1, w.2.1, false) else w } else o
    atoms := t.atoms.map fun e => if e.rd = some i ∧ e.seq < seq then { e with live := false } else e }
/-- Write S[i], for the instruction issued as number `seq`: writes to S0 are ignored. -/
def wrSAt (seq : Nat) (t : Tile) (i : Nat) (x : B64) : Tile := if i = 0 then t else { killS seq t i with s := smPut 0 t.s i x }
/-- Write S[i], for the instruction that issues now. -/
def wrS (t : Tile) (i : Nat) (x : B64) : Tile := wrSAt t.retired t i x
/-- Read P[i]: P0 is stored as 1. -/
def rdP (t : Tile) (i : Nat) : Bool := if i = 0 then true else t.p.getLsbD i
/-- Write P[i]: writes to P0 are ignored. -/
def wrP (t : Tile) (i : Nat) (b : Bool) : Tile :=
  if i = 0 then t
  else { t with p := if b then t.p ||| (1#8 <<< i) else t.p &&& ~~~(1#8 <<< i) }
/-- Read A[i]. -/
def rdA (t : Tile) (i : Nat) : B64 := smLook 0 t.a i
/-- Write A[i]. -/
def wrA (t : Tile) (i : Nat) (x : B64) : Tile := { t with a := smPut 0 t.a i x }
/-- Read V[i]. -/
def rdV (t : Tile) (i : Nat) : BitVec 4096 := smLook 0 t.v i
/-- Write V[i]. -/
def wrV (t : Tile) (i : Nat) (x : BitVec 4096) : Tile := { t with v := smPut 0 t.v i x }

/-- FP32 lane `i` of a vector register: bytes 4i to 4i+3. -/
def lane32 (v : BitVec 4096) (i : Nat) : B32 := v.extractLsb' (32 * i) 32
/-- 16-bit lane `i`: bytes 2i and 2i+1. -/
def lane16 (v : BitVec 4096) (i : Nat) : B16 := v.extractLsb' (16 * i) 16
/-- All 128 FP32 lanes. -/
def lanes32 (v : BitVec 4096) : List B32 := (List.range 128).map (lane32 v)
/-- All 256 16-bit lanes. -/
def lanes16 (v : BitVec 4096) : List B16 := (List.range 256).map (lane16 v)
/-- A register from 32-bit lanes. -/
def of32 (l : List B32) : BitVec 4096 := BitVec.ofNat 4096 (packBits 32 (l.map BitVec.toNat))
/-- A register from 16-bit lanes. -/
def of16 (l : List B16) : BitVec 4096 := BitVec.ofNat 4096 (packBits 16 (l.map BitVec.toNat))
/-- A register from bytes. -/
def ofBytes (l : List Byte) : BitVec 4096 := BitVec.ofNat 4096 (leNat l)
/-- The 512 bytes of a register. -/
def vBytes (v : BitVec 4096) : List Byte := leBytes 512 v.toNat

/-- R88: the size of a scratchpad. -/
abbrev spSize : Nat := 0x180000

/-- `n` scratchpad bytes from `o`. -/
def spBytes (t : Tile) (o n : Nat) : List Byte := smLookList 0 t.sp o n
/-- R88, R468: note a write of a 64-byte line in its bank's row table. -/
def rowNote (m : SMap (List Nat)) (line : Nat) : SMap (List Nat) :=
  let rows := smLook [] m (line % 24)
  smPut [] m (line % 24) ((line / 24 :: rows.filter (· ≠ line / 24)).take 4)

/-- Write scratchpad bytes from `o`. -/
def spPut (t : Tile) (o : Nat) (l : List Byte) : Tile :=
  if l.isEmpty then t
  else
    { t with
      sp := smPutList 0 t.sp o l
      rowTab := (List.range ((o + l.length - 1) / 64 + 1 - o / 64)).foldl (fun m i => rowNote m (o / 64 + i)) t.rowTab }
/-- Write several runs of bytes in order. -/
def spPutAll (t : Tile) (ws : List (Nat × List Byte)) : Tile := ws.foldl (fun t w => spPut t w.1 w.2) t

/-- The scratchpad pointer in an address register (R127), or none when its must-be-zero bits are not zero. -/
def spPtr (x : B64) : Option (Nat × Nat) :=
  if x.extractLsb' 21 11 = 0 ∧ x.extractLsb' 52 12 = 0 then
    some ((x.extractLsb' 0 21).toNat, (x.extractLsb' 32 20).toNat)
  else none

/-- Do two byte ranges touch a common 64-byte line? -/
def lineHit (a b : SpRange) : Bool :=
  a.2 ≠ 0 && b.2 ≠ 0 && a.1 / 64 ≤ (b.1 + b.2 - 1) / 64 && b.1 / 64 ≤ (a.1 + a.2 - 1) / 64

/-- Does any range of one list touch a line of a range of the other? -/
def linesHit (as bs : List SpRange) : Bool := as.any fun a => bs.any (lineHit a)

/-- The ranges that the issued operations of the tile still read. -/
def busyReads (t : Tile) : List SpRange := (t.matQ.map (·.reads)).flatten ++ (t.vecQ.map (·.reads)).flatten
/-- The ranges that the issued operations of the tile still write. -/
def busyWrites (t : Tile) : List SpRange :=
  (t.matQ.map (·.wrs)).flatten ++ (t.vecQ.map (·.wrs)).flatten ++ (t.rdQ.map (·.wrs)).flatten

/-- R135: an access with these reads and writes must wait for an earlier instruction's line. -/
def lineHeld (t : Tile) (rds wrs : List SpRange) : Bool :=
  linesHit rds (busyWrites t) || linesHit wrs (busyReads t) || linesHit wrs (busyWrites t)

/-- Scalar registers with a write still to come (R134). -/
def pendS (t : Tile) : List Nat :=
  (t.vecQ.map fun o => o.sW.map (·.1)).flatten ++ t.atoms.filterMap (·.rd)
/-- Vector registers with a write still to come. -/
def pendV (t : Tile) : List Nat := (t.vecQ.map fun o => o.vW.map (·.1)).flatten

/-- The scalar and vector registers that an instruction reads, its guard aside. -/
def srcRegs (w : TileWord) : List Nat × List Nat :=
  match w.args with
  | .g d a b c fn =>
    let u := gUses w.op fn.toNat
    let pick (f : RFile) (x : Use) (r : BitVec 6) : List Nat := if x = some f then [r.toNat] else []
    let src (f : RFile) := pick f u.2.1 a ++ pick f u.2.2.1 b ++ pick f u.2.2.2 c
    match w.op with
    | .smxu => ([b.toNat, b.toNat + 1], [a.toNat])
    | .smxm => ([a.toNat, a.toNat + 1, b.toNat, b.toNat + 1], [])
    | .vcvt => ([], if fn.toNat % 2 = 0 then [a.toNat, a.toNat + 1] else [a.toNat])
    | .vqnt => ([], [d.toNat])
    | _ => (src .s, src .v)
  | .i d a _ _ =>
    match w.op with
    | .alui | .cmpi => ([a.toNat], [])
    | .movhi | .st => ([d.toNat], [])
    | .vst => ([], [d.toNat])
    | _ => ([], [])
  | .m .. => ([], [])

/-- R134: some register that the instruction reads has a write still to come. -/
def operandHeld (t : Tile) (w : TileWord) : Bool :=
  (srcRegs w).1.any (fun r => r ≠ 0 && (pendS t).contains r) || (srcRegs w).2.any ((pendV t).contains ·)

/-- The guard of R130. -/
def guardOn (t : Tile) (w : TileWord) : Bool := rdP t w.pg.toNat != w.pn

/-- What trying to issue an instruction gives: a precise fault with its FAULT_INFO, a fault after a read that has been
counted, a wait (R169's number), or the tile after the instruction has issued. -/
inductive Issue (α : Type) where
  | fault (c : TCause) (info : Nat)
  | late (c : TCause) (info : Nat) (x : α)
  | wait (kind : Nat)
  | go (x : α)
  deriving Repr

/-- Advance past an issued instruction, or one whose guard is off: R130 and R168 do not say whether the latter counts in
TILE_SEQ_RETIRED; the model counts it (DESIGN CHOICE, log entry 74). -/
def retire (t : Tile) : Tile := { t with pc := t.pc + 8, retired := t.retired + 1 }

end Sys2Proof.Machine
end

