-- ==== Sys2Proof/Machine/Access.lean ====
section
/-! DEFINITION. Machine/Access.lean: which addresses a requester reaches (R28 to R35, R253, R331, R579), and accesses
to a tile's scratchpad through its decoder (R231 to R234). -/

namespace Sys2Proof.Machine

/-- The chip of a global address (R29). -/
def gChip (g : Nat) : Nat := g / 2 ^ 40 % 32768
/-- The offset of a global address. -/
def gOff (g : Nat) : Nat := g % 2 ^ 40

/-- The end of the HBM range of R33. -/
abbrev hbmEnd : Nat := 0x8000000000
/-- The scratchpad window of R33. -/
abbrev spWin : Nat := 0x8000000000
/-- The start of register space. -/
abbrev regWin : Nat := 0xF000000000
/-- The start of the doorbell window. -/
abbrev dbWin : Nat := 0xF100000000

/-- R35: the tile and scratchpad offset of a window offset, or none outside every slot. -/
def spSlot (off : Nat) : Option (Nat × Nat) :=
  if spWin ≤ off ∧ off < spWin + 0x20000000 then
    let o := off - spWin
    let slot := o % 0x10000000 / spSize
    if slot < 136 then some (o / 0x10000000 * 136 + slot, o % 0x10000000 % spSize) else none
  else none

/-- R35: the window offset of a tile's scratchpad byte. -/
def spGlobal (t o : Nat) : Nat := spWin + t / 136 * 0x10000000 + t % 136 * spSize + o

/-- Does the floor plan report the tile as enabled (R35, R504)? -/
def tileOn (t : Nat) (s : State) : Bool := (getF (fldNth Reg.FP_TILES (t / 64)) s).testBit (t % 64)

/-- R329: the entry for a chip in a version of the route table. -/
def routeEntry (v chip : Nat) (s : State) : Nat := smLook 0x3F s.routes (v * 32768 + chip)

/-- Is the link part of the module (R6)? -/
def linkPresent (l : Nat) (s : State) : Bool := l < 6 && (getF Reg.LIC_CAP0_LINKS s).testBit l

/-- R329: the output of a route code toward another chip: a present link, or none. -/
def routePort (code : Nat) (s : State) : Option Nat := if linkPresent code s then some code else none

/-- R31: does version CURRENT hold a route to the chip? -/
def hasRoute (chip : Nat) (s : State) : Bool :=
  (routePort (routeEntry (getF Reg.FAB_EPOCH_CURRENT s) chip s % 8) s).isSome

/-- Is the partition enabled? Partition 0 always is (R252). -/
def partOn (p : Nat) (s : State) : Bool := p = 0 || getB (partF p Reg.PART_CFG_ENABLE) s

/-- Does the tile set of a partition hold the tile (R284)? Partition 0 takes every tile that no other enabled partition
holds (R254). -/
def inTileSet (p t : Nat) (s : State) : Bool :=
  (getF (partF p (fldNth Reg.PART_TILES (t / 64))) s).testBit (t % 64)
/-- The partition that a tile belongs to. -/
def tilePart (t : Nat) (s : State) : Nat :=
  match (List.range 8).find? fun p => p ≠ 0 && partOn p s && inTileSet p t s with
  | some p => p
  | none => 0

/-- R253: window `w` of partition `p` covers the range with the right asked for. -/
def winCovers (p w o n : Nat) (rd wr : Bool) (s : State) : Bool :=
  let f (x : Fld) : Fld := partF p { x with off := x.off + 16 * w }
  let base := getF (f Reg.PART_WIN_BASE_OFFSET) s / 4096 * 4096
  base ≤ o && o + n ≤ getF (f Reg.PART_WIN_LIMIT) s &&
  (!rd || getB (f Reg.PART_WIN_BASE_RD) s) && (!wr || getB (f Reg.PART_WIN_BASE_WR) s)

/-- R253: an HBM range within one of the partition's windows, with the rights asked for; partition 0 reaches all. -/
def winOk (p o n : Nat) (rd wr : Bool) (s : State) : Bool :=
  p = 0 || (List.range 4).any fun w => winCovers p w o n rd wr s

/-- R253: the partition of the context of the ring whose doorbell slot holds the offset. -/
def doorbellPart (off : Nat) (s : State) : Nat := (getC (getR ((off - dbWin) / 64) s).ctx s).part

/-- R253: a range within the doorbell window, every slot of which belongs to the partition; partition 0 reaches all. -/
def doorbellOk (part off n : Nat) (s : State) : Bool :=
  dbWin ≤ off && off + n ≤ dbWin + 0x1000000 &&
  (part = 0 || (List.range ((off % 64 + n + 63) / 64)).all fun i => doorbellPart (off + 64 * i) s = part)

/-- R507: may accesses leave through the router? -/
def routerOpen (s : State) : Bool := getB Reg.SYS_CHIP_CONFIRMED s

/-- R28, R33 to R35: a local access of the module's own tiles and DMA engines. -/
def localOk (part off n : Nat) (wr : Bool) (s : State) : Bool :=
  if off < hbmEnd then hbmBacked off n s && winOk part off n (!wr) wr s
  else match spSlot off with
    | some p => tileOn p.1 s && p.2 + n ≤ spSize && (part = 0 || inTileSet part p.1 s)
    | none => doorbellOk part off n s

/-- R579, R31, R32, R253: an access to another chip, as its source checks it. -/
def remoteOk (part chip off n : Nat) (wr : Bool) (s : State) : Bool :=
  routerOpen s && hasRoute chip s && (getB Reg.LIC_CAP0_Z_AXIS s || chip % 32 = 0) &&
  (if off < hbmEnd then off + n ≤ hbmEnd && winOk part off n (!wr) wr s
   else match spSlot off with
     | some p => p.2 + n ≤ spSize && (part = 0 || inTileSet part p.1 s)
     | none => false)

/-- The check of a global address at its source for `n` bytes: R28 to R35, R253 and R579. -/
def addrOk (part g n : Nat) (wr : Bool) (s : State) : Bool :=
  g / 2 ^ 55 = 0 &&
  (if gChip g = ownChip s then localOk part (gOff g) n wr s else remoteOk part (gChip g) (gOff g) n wr s)

/-- R331, R455: the check that a destination makes of a request from another module. While the compute rails are off,
every request for this module's memory is refused. -/
def destOk (off n : Nat) (s : State) : Bool :=
  if !getB Reg.PWR_RAILS_ON s then false
  else if off < hbmEnd then hbmBacked off n s
  else match spSlot off with
    | some p => tileOn p.1 s && p.2 + n ≤ spSize
    | none => false

/-! ### The scratchpad's decoder -/

/-- R231: does a word with `e` bit errors decode? What more than three errors become is settled when they appear
(`spUpset`). -/
def spGood (e : Nat) : Bool := e ≤ 2

/-- R231: `n` more bits of word `w` of a tile's scratchpad go bad. Four errors or more stay uncorrectable, or make a word
that the code takes for another one, with one or two errors (miscorrected) or with none (undetected): a free choice, with
free contents (log entry 9). -/
def spUpset (t w n : Nat) (s : State) : State :=
  let e := smLook 0 (getT t s).spErr w + n
  let put (k : Nat) (s : State) : State := modT t (fun x => { x with spErr := smPut 0 x.spErr w k }) s
  let swap (s : State) : State :=
    modT t (fun x => { x with sp := smPutList 0 x.sp (32 * w) ((List.range 32).map (Config.misread s.freeCtr)) }) s
  if n = 0 ∨ (getT t s).mode = .disabled then s
  else if e ≤ 3 ∨ Config.errOutcome s.freeCtr = 0 then put e (tick1 s)
  else if Config.errOutcome s.freeCtr = 1 then put (1 + freeNat s % 2) (tick1 (swap s))
  else put 0 (tick1 (swap s))

/-- R232: note a corrected word. -/
def spNoteCe (t w e : Nat) (s : State) : State :=
  let s := bump (tileF t Reg.TILE_SP_CE) 1 s
  let s := setSame (tileF t Reg.TILE_SP_LAST_CE_OFFSET) (32 * w)
    (setSame (tileF t Reg.TILE_SP_LAST_CE_BITS) e (setSame (tileF t Reg.TILE_SP_LAST_CE_VALID) 1 s))
  modT t (fun x => { x with spFix := if x.spFix.contains w then x.spFix else x.spFix ++ [w] }) s

/-- R234: note an uncorrectable word and log it. -/
def spNoteUe (t w : Nat) (s : State) : State :=
  let s := bump (tileF t Reg.TILE_SP_UE) 1 s
  let s := setSame (tileF t Reg.TILE_SP_LAST_UE_OFFSET) (32 * w) (setSame (tileF t Reg.TILE_SP_LAST_UE_VALID) 1 s)
  logEv .scratchpadUe none none (ownGlobal (spGlobal t (32 * w)) s) [] s

/-- Decode one word: its bytes, or none when uncorrectable. -/
def spWord (t w : Nat) (s : State) : Option (List Byte) × State :=
  let e := smLook 0 (getT t s).spErr w
  if e = 0 then (some (spBytes (getT t s) (32 * w) 32), s)
  else if spGood e then (some (spBytes (getT t s) (32 * w) 32), spNoteCe t w e s)
  else (none, spNoteUe t w s)

/-- The words that a range of bytes touches. -/
def wordsOf (o n : Nat) : List Nat :=
  if n = 0 then [] else (List.range ((o + n - 1) / 32 + 1 - o / 32)).map fun i => o / 32 + i

/-- Read scratchpad bytes through the decoder: the bytes, or the first uncorrectable word. -/
def spRead (t o n : Nat) (s : State) : Except Nat (List Byte) × State :=
  let r := (wordsOf o n).foldl (fun (acc : Except Nat (List Byte) × State) w =>
    match acc with
    | (.error e, s) => (.error e, s)
    | (.ok l, s) =>
      match spWord t w s with
      | (none, s) => (.error w, s)
      | (some b, s) => (.ok (l ++ b), s)) (.ok [], s)
  match r with
  | (.ok l, s) => (.ok (sliceB l (o % 32) n), s)
  | r => r

/-- The words that a write of `n` bytes at `o` writes in part and that have errors: each is read first (R233). -/
def partWords (t o n : Nat) (s : State) : List Nat :=
  (wordsOf o n).filter fun w => !(o ≤ 32 * w && 32 * w + 32 ≤ o + n) && smLook 0 (getT t s).spErr w ≠ 0

/-- Read words for a write: the first that does not decode. -/
def spPreRead (t : Nat) : List Nat → State → Option Nat × State
  | [], s => (none, s)
  | w :: l, s =>
    match spWord t w s with
    | (none, s) => (some w, s)
    | (some _, s) => spPreRead t l s

/-- Store scratchpad bytes; every word that they touch is encoded afresh. -/
def spStore (t o : Nat) (l : List Byte) (s : State) : State :=
  let ws := wordsOf o l.length
  modT t (fun x => { spPut x o l with
    spErr := ws.foldl (fun m w => smPut 0 m w 0) x.spErr, spFix := x.spFix.filter fun w => !ws.contains w }) s

/-- R233: write scratchpad bytes. A word written in part is read first; when that read fails nothing is written (R347; log entry
58), and the answer is the failing word. -/
def spWrite (t o : Nat) (l : List Byte) (s : State) : Option Nat × State :=
  match spPreRead t (partWords t o l.length s) s with
  | (some w, s) => (some w, s)
  | (none, s) => (none, spStore t o l s)

end Sys2Proof.Machine
end

