-- ==== Sys2Proof/Machine/Rrc.lean ====
section
/-! DEFINITION. Machine/Rrc.lean: the remote-read caches (R355 to R360), memory requests and packets of the module's
own units (R326, R327, R336, R358), and the three registers that act on a cache (R381). -/

namespace Sys2Proof.Machine

/-- The entries of a die's cache. -/
def rrcOf (d : Nat) (s : State) : List RrcEntry := if d = 0 then s.rrc0 else s.rrc1
/-- Replace the entries of a die's cache. -/
def setRrc (d : Nat) (l : List RrcEntry) (s : State) : State := if d = 0 then { s with rrc0 := l } else { s with rrc1 := l }
/-- The fills in flight of a die. -/
def fillsOf (d : Nat) (s : State) : List RrcFill := if d = 0 then s.fills0 else s.fills1
/-- Replace the fills of a die. -/
def setFills (d : Nat) (l : List RrcFill) (s : State) : State :=
  if d = 0 then { s with fills0 := l } else { s with fills1 := l }

/-- Remove the entries that `p` picks, counting them, and make the fills that it picks uninstallable (R357, R366). -/
def rrcDrop (d : Nat) (p : Nat → Nat → Bool) (s : State) : State :=
  let gone := (rrcOf d s).filter fun e => p e.block e.part
  let s := bump (rrcF d Reg.MEM_RRC_INVALIDATED) gone.length s
  let s := setRrc d ((rrcOf d s).filter fun e => !p e.block e.part) s
  setFills d ((fillsOf d s).map fun f => if p f.block f.part then { f with installable := false } else f) s

/-- The scope of an acquire (R157): 0 the whole cache, 1 a chip, 2 a range; a range above 32 MiB acts as scope 1, and
one that names the own chip, or of length 0, takes nothing. -/
def acqCovers (own scope chip addr len : Nat) (block : Nat) : Bool :=
  match scope with
  | 0 => true
  | 1 => chip ≠ own && gChip block = chip
  | _ =>
    let c := gChip addr
    if c = own ∨ len = 0 then false
    else if 0x2000000 < len then gChip block = c
    else gChip block = c && gOff addr < gOff block + 512 && gOff block < gOff addr + len

/-- R366: an acquire acts on one die's cache. -/
def acquire (d scope chip addr len : Nat) (s : State) : State :=
  let own := ownChip s
  rrcDrop d (fun b _ => acqCovers own scope chip addr len b) s

/-- R358: a write to another chip's block invalidates it on both dies before it leaves. -/
def rrcOnWrite (g : Nat) (s : State) : State :=
  let b := g / 512 * 512
  rrcDrop 1 (fun x _ => x = b) (rrcDrop 0 (fun x _ => x = b) s)

/-- The SRC_UNIT code of a unit (R336). -/
def unitCode : RUnit → Nat
  | .dma t _ _ | .atom t | .waitf t | .icache t _ => t
  | .walker w _ _ _ => 0x300 + w
  | .command _ _ _ code => code
  | .fill d _ => 0x280 + d
  | .remote .. => 0
  | .collective .. => 0x380

/-- The router input of a unit: 6 and 7 are the die ports, 8 the hub. -/
def unitPort (u : RUnit) : Nat :=
  match u with
  | .dma t _ _ | .atom t | .waitf t | .icache t _ => 6 + t / 136
  | .walker w _ _ _ => 6 + w / 8
  | .fill d _ => 6 + d
  | .command _ _ _ code => if code < 0x280 then 6 + (code - 0x200) / 8 else 6 + (code - 0x280)
  | _ => 8

/-- An empty packet. -/
def packet0 : Packet := ⟨0, 0, 0, false, 0, false, 0, 0, 0, 0, 0, 0, 0, 0, 0, 0, 0, 0, 0, []⟩

/-- Hand a packet to a router input; it takes EPOCH = CURRENT there (R342). -/
def sendPacket (port : Nat) (p : Packet) (s : State) : State :=
  { s with rtIn := smMod [] s.rtIn port (· ++ [{ p with epoch := getF Reg.FAB_EPOCH_CURRENT s }]) }

/-- The request packet of a request (R326, R327). -/
def reqPacket (id : Nat) (r : Req) (s : State) : Packet :=
  let base := { packet0 with
    part := r.part, dst := gChip r.gaddr, src := ownChip s, unit := unitCode r.unit, tag := id % 65536,
    addr := gOff r.gaddr, fence := r.fence }
  match r.kind with
  | .write d => { base with typ := 2, vc := if d.length ≤ 64 then 0 else 3, len := d.length, data := d }
  | _ => { base with typ := 1, vc := 0, rlen := r.len }

/-- Replace a request. -/
def setReq (id : Nat) (r : Req) (s : State) : State := { s with reqs := putO s.reqs id r }
/-- Remove a request. -/
def delReq (id : Nat) (s : State) : State := { s with reqs := smDel s.reqs id }

/-- Is a request to another chip still without its response? -/
def reqOpen (r : Req) : Bool := match r.stage with | .done .. => false | _ => true

/-- R336: an earlier request of the same unit to the same chip that has had no response. -/
def fenceHeld (id : Nat) (r : Req) (s : State) : Bool :=
  s.reqs.any fun e => e.1 < id && unitCode e.2.unit == unitCode r.unit && gChip e.2.gaddr == gChip r.gaddr &&
    reqOpen e.2

/-- The command that a request belongs to: its own, or the one that its tile or walker serves. -/
def reqCmd (u : RUnit) (s : State) : Option Nat :=
  match u with
  | .command ring idx _ _ => some (cmdKey ring idx)
  | .dma t _ _ | .atom t | .waitf t | .icache t _ => (getT t s).kern
  | .walker _ key _ _ => some (key / 1024)
  | _ => none

/-- Does a command that is in progress have, or may it still make, a write to the chip? A KERNEL counts until it has
completed (R361), and so does a command whose destinations are not known yet. -/
def cmdWritesTo (ring : Nat) (c : RCmd) (chip : Nat) (s : State) : Bool :=
  match c.work with
  | .kernel | .gather .. => true
  | .copy _ dst _ _ _ _ _ => gChip dst == chip
  | .trim .. => chip == ownChip s
  | .writes todo _ _ _ => (c.desc.headD 0).toNat = 1 || todo.any (fun w => gChip w.1 == chip) ||
      s.reqs.any fun e => match e.2.unit, e.2.kind with
        | .command r2 i2 _ _, .write _ => r2 == ring && i2 == c.idx && gChip e.2.gaddr == chip
        | _, _ => false
  | .elsewhere => (c.desc.headD 0).toNat = 0x10 || ((c.desc.headD 0).toNat ≠ 0x20 && chip == ownChip s)
  | _ => false

/-- R270, R361, R412: what command `idx` of an ORDERED ring does to a chip waits for the writes of earlier commands to it, for earlier
kernels, and for the completion of earlier collectives. -/
def orderBehind (ring idx chip : Nat) (s : State) : Bool :=
  let x := getR ring s
  !x.unordered && x.cmds.any (fun c => c.idx = idx) && (x.cmds.takeWhile fun c => c.idx ≠ idx).any fun c =>
    match c.st with
    | .running => cmdWritesTo ring c chip s
    | .done .. => (c.desc.headD 0).toNat = 0x10

/-- R270, R361, R412: is a request held by the order of its ring? -/
def orderHeld (r : Req) (s : State) : Bool :=
  match reqCmd r.unit s with
  | none => false
  | some key => orderBehind (key / 2 ^ 32) (key % 2 ^ 32) (gChip r.gaddr) s

/-- Hand a request for another chip to the router. -/
def sendReq (id : Nat) (r : Req) (s : State) : State :=
  let s := match r.kind with | .write _ => rrcOnWrite r.gaddr s | _ => s
  sendPacket (unitPort r.unit) (reqPacket id r s) s

/-- The die whose cache a unit's reads look up, if the unit's remote reads are ever cached (R355): those of a command
processor itself, which is no command DMA channel, are not. -/
def rrcDie (u : RUnit) (s : State) : Option Nat :=
  match u with
  | .dma t _ _ => some (t / 136)
  | .walker w _ _ _ => some (w / 8)
  | .command r _ _ code => if code < 0x280 then some (getR r s).die else none
  | _ => none

/-- The 64-byte lines of its block that a read of `n` bytes at `g` covers. -/
def rrcLines (g n : Nat) : List Nat :=
  (List.range ((g % 512 + n - 1) / 64 + 1 - g % 512 / 64)).map (g % 512 / 64 + ·)

/-- The entry that a read hits: the block, the partition, and every line that it covers still there (R356). -/
def rrcHit (d g n part : Nat) (s : State) : Option RrcEntry :=
  (rrcOf d s).find? fun e => e.block = g / 512 * 512 && e.part = part && (rrcLines g n).all fun i => !e.lost.contains i

/-- R236: the first line that a read covers fails its parity: the cache discards it, and the refetch is counted. -/
def rrcParity (d g n part : Nat) (s : State) : State :=
  match rrcHit d g n part s with
  | some e =>
    if getB (rrcF d Reg.MEM_RRC_CTL_BYPASS) s then s
    else bump Reg.MEM_COPY_REFETCH 1 (setRrc d ((rrcOf d s).map fun x =>
      if x = e then { e with lost := e.lost ++ (rrcLines g n).take 1 } else x) s)
  | none => s

/-- R236: does the line that a walker's read finds fail its parity? A free choice; a DMA read takes it from its command. -/
def rrcUpset (d : Nat) (r : Req) (s : State) : State :=
  match r.unit, rrcHit d r.gaddr r.len r.part s with
  | .walker .., some _ => if freeNat s = 0 then rrcParity d r.gaddr r.len r.part (tick1 s) else tick1 s
  | _, _ => s

/-- R359, R360: the entries of a block that is being fetched again are replaced by the fill: those of another partition, whose value
may be older, and one that has lost a line (log entry 11). -/
def rrcReplace (d b : Nat) (s : State) : State :=
  let old := (rrcOf d s).filter fun e => e.block = b
  bump (rrcF d Reg.MEM_RRC_EVICTIONS) old.length (setRrc d ((rrcOf d s).filter fun e => e.block ≠ b) s)

/-- R355 to R357: look a read up; a hit answers at once, a miss waits for the block's installable fill or starts one. -/
def rrcRead (d id : Nat) (r : Req) (s : State) : State :=
  let b := r.gaddr / 512 * 512
  let s := rrcUpset d r s
  match rrcHit d r.gaddr r.len r.part s with
  | some e =>
    let s := bump (rrcF d Reg.MEM_RRC_HITS) 1 s
    let s := setRrc d ((rrcOf d s).filter (fun x => x ≠ e) ++ [e]) s
    setReq id { r with stage := .done .ok (sliceB e.data (r.gaddr % 512) r.len) } s
  | none =>
    let s := setReq id { r with stage := .waitFill } (bump (rrcF d Reg.MEM_RRC_MISSES) 1 s)
    if (fillsOf d s).any fun f => f.block = b && f.installable then
      setFills d ((fillsOf d s).map fun f =>
        if f.block = b ∧ f.installable then { f with waiters := f.waiters ++ [id] } else f) s
    else
      let s := rrcReplace d b s
      let fid := s.nextReq
      let fr : Req := ⟨.fill d b, .read, b, 512, false, false, r.part, .sent, []⟩
      let busy := s.reqs.any fun e => match e.2.kind with
        | .write _ => e.2.gaddr / 512 * 512 == b && reqOpen e.2 && !s.fenced.contains e.1
        | _ => false
      let s := setReq fid fr { s with nextReq := fid + 1 }
      sendReq fid fr (setFills d (fillsOf d s ++ [⟨fid, b, r.part, !busy, [id]⟩]) s)

/-- A remote request that nothing holds: a read that R355 caches looks up its die's cache unless it is FRESH or the die
bypasses its cache; any other is sent. -/
def leaveReq (id : Nat) (r : Req) (s : State) : State :=
  match r.kind, rrcDie r.unit s with
  | .read, some d =>
    if !r.fresh && !getB (rrcF d Reg.MEM_RRC_CTL_BYPASS) s && gOff r.gaddr < hbmEnd then rrcRead d id r s
    else sendReq id r s
  | _, _ => sendReq id r s

/-- Make a request: its number and the state. A local request is queued at its home; a remote one leaves, or is held
behind its fence (R336) or by the order of its ring (R270). -/
def makeReq (u : RUnit) (k : RKind) (g n : Nat) (fresh fence : Bool) (part : Nat) (s : State) : Nat × State :=
  let id := s.nextReq
  let s := { s with nextReq := id + 1 }
  let loc := gChip g = ownChip s
  let r : Req := ⟨u, k, g, n, fresh, fence, part, if loc then .queued else .sent, []⟩
  let s := setReq id r s
  if loc then (id, s)
  else if (fence && fenceHeld id r s) || orderHeld r s then (id, { s with fenced := s.fenced ++ [id] })
  else (id, leaveReq id r s)

/-- MEM_RRC_CTL.BYPASS written 1: the cache is invalidated as by an acquire of scope 0, and reads become FRESH (R381). -/
def execMemRrcBypass (die : DieId) (s : State) : Ans :=
  .next (setB (rrcF die.val Reg.MEM_RRC_CTL_BYPASS) true (acquire die.val 0 0 0 0 s))

/-- MEM_RRC_CTL.INVALIDATE written 1 (R381). -/
def execMemRrcInvalidate (die : DieId) (s : State) : Ans := .next (acquire die.val 0 0 0 0 s)

/-- MEM_RRC_CLEAR written 1 (R381). -/
def execMemRrcClear (die : DieId) (s : State) : Ans := .next (clearRegs (blkBase .rrc die.val) 0x08 0x28 s)

/-- R355: 32 MiB in 16 ways of 512 bytes are 4,096 sets; which of them a block goes to is left open (log entry 11). -/
def rrcSet (block : Nat) : Nat := Config.rrcSet block % 4096

/-- R357 to R359: install a returned fill. A full set gives up one of its ways by pseudo-LRU, which never takes the way used last;
which of the others it takes is a free choice (log entry 11). -/
def rrcInstall (d : Nat) (e : RrcEntry) (s : State) : State :=
  let same := (rrcOf d s).filter fun x => rrcSet x.block = rrcSet e.block
  if same.length < 16 then setRrc d (rrcOf d s ++ [e]) s
  else
    let victim := same.getD (freeNat s % (same.length - 1)) e
    let s := bump (rrcF d Reg.MEM_RRC_EVICTIONS) 1 (tick1 s)
    setRrc d ((rrcOf d s).filter (fun x => x ≠ victim) ++ [e]) s

/-- A fill of the die whose response has arrived delivers its data to every waiting requester and is installed if it
still can be (R356 to R358). The operand names the fill's request. -/
def execRrcFillReturn (die : DieId) (req : Nat) (s : State) : Ans :=
  match (fillsOf die.val s).find? (·.id = req), lookO s.reqs req with
  | some f, some r =>
    match r.stage with
    | .done st data =>
      let s := f.waiters.foldl (fun s w =>
        match lookO s.reqs w with
        | some q => setReq w { q with stage := .done st (sliceB data (q.gaddr % 512) q.len) } s
        | none => s) s
      let s := delReq req (setFills die.val ((fillsOf die.val s).filter fun x => x.id ≠ req) s)
      if f.installable && st = .ok then .next (rrcInstall die.val ⟨f.block, f.part, data, []⟩ s)
      else .next (bump (rrcF die.val Reg.MEM_RRC_FILLS_DROPPED) 1 s)
    | _ => .next s
  | _, _ => .next s

end Sys2Proof.Machine
end

