-- ==== Sys2Proof/Machine/Ctx.lean ====
section
/-! DEFINITION. Machine/Ctx.lean: what the module sends to hosts (R242, R257), contexts and their faults (R256, R276),
completions (R269 to R275), and doorbells (R260, R261). -/

namespace Sys2Proof.Machine

/-! ### Messages on queue pairs -/

/-- Queue pair `q`. -/
def getQ (q : Nat) (s : State) : Qp := smLook {} s.qps q
/-- Replace queue pair `q`. -/
def setQ (q : Nat) (x : Qp) (s : State) : State := { s with qps := smPut {} s.qps q x }
/-- Change queue pair `q`. -/
def modQ (q : Nat) (f : Qp → Qp) (s : State) : State := setQ q (f (getQ q s)) s

/-- Send something to the outside. -/
def emit (o : OutEv) (s : State) : State := { s with sent := s.sent ++ [o] }

/-! ### MAC addresses (R577) -/

/-- R577: the MAC address of Ethernet port `p`, or of its half `b` while it is split. -/
def portMac (p : Nat) (b : Bool) (s : State) : Nat :=
  (s.fuse.mac + 2 * p + (if (smLook {} s.ports p).split && b then 1 else 0)) % 2 ^ 48

/-- R577: the MAC address of the service port. -/
def serviceMac (s : State) : Nat := (s.fuse.mac + 8) % 2 ^ 48

/-- R284: the DSCP of a partition's RoCEv2 packets. -/
def partDscp (p : Nat) (s : State) : Nat := getF (partF p Reg.PART_CFG2_DSCP) s

/-- R242: send a RoCEv2 message of queue pair `q`: from its port, with its partition's DSCP and its path MTU. -/
def emitQ (q : Nat) (o : OutEv) (s : State) : State :=
  let x := getQ q s
  emit (.roce (portMac (x.half / 2) (x.half % 2 = 1) s) (partDscp x.part s) x.mtu o) s

/-- The packet of a message. -/
def wqeOut (q : Nat) (w : Wqe) : OutEv :=
  match w.target with
  | some t => .rdmaWrite q w.psn t.1 t.2 w.data
  | none => .send q w.psn w.data

/-- Is half port `h` (port × 2 + half) up (R285)? -/
def halfUp (h : Nat) (s : State) : Bool :=
  getB (ethF (h / 2) (if h % 2 = 0 then Reg.ETH_STAT_UP_A else Reg.ETH_STAT_UP_B)) s

/-- Send a message of queue pair `q`, if its half port is up. -/
def qpSend (q : Nat) (s : State) (w : Wqe) : State := if halfUp (getQ q s).half s then emitQ q (wqeOut q w) s else s

/-- Post a message on a queue pair. -/
def qpPost (q : Nat) (target : Option (Nat × Nat)) (data : List Byte) (part : Nat) (s : State) : State :=
  let x := getQ q s
  let w : Wqe := ⟨x.psn, target, data, part, 0⟩
  qpSend q (setQ q { x with psn := (x.psn + 1) % 2 ^ 24, unacked := x.unacked ++ [w] } s) w

/-- Can the queue pair carry messages (R274)? -/
def qpUsable (q : Nat) (s : State) : Bool := (getQ q s).conn && !(getQ q s).err

/-- R257: the 32 bytes of a notification. -/
def notifyBytes (ev : Ev) (part : Nat) (ring : Option Nat) (ctx status time detail : Nat) : List Byte :=
  leBytes 2 (evCode ev) ++ leBytes 1 part ++ leBytes 1 0 ++
  leBytes 4 (match ring with | some r => r | none => 0xFFFFFFFF) ++ leBytes 2 ctx ++ leBytes 2 status ++
  leBytes 4 0 ++ leBytes 8 time ++ leBytes 8 detail

/-- R257: send a notification when PART_NOTIFY.QPN names a connected queue pair. -/
def notify (ev : Ev) (part : Nat) (ring : Option Nat) (ctx status detail : Nat) (s : State) : State :=
  let q := getF (partF part Reg.PART_NOTIFY_QPN) s
  if q ≠ 0 ∧ qpUsable q s then
    let t := stampVal .mgmt s
    qpPost q none (notifyBytes ev part ring ctx status t detail) part (stampUse .mgmt s)
  else s

/-! ### Contexts -/

/-- The rings of a context that are enabled. -/
def ctxRings (c : Nat) (s : State) : List Nat := (s.rings.filter fun e => e.2.enable && e.2.ctx = c).map (·.1)

/-- Log CONTEXT_FAULTED (R466, R481): the context, the ring and the status. -/
def logFault (c : Nat) (ring : Option Nat) (status : Nat) (s : State) : State :=
  logEv .contextFaulted (some (getC c s).part) (some c) (match ring with | some r => r | none => 0) (arg16 [status]) s

/-- R276: fault a context: it enters FAULTED with its first status, and its partition is notified. `logged` says that
the event is in the log already. A context that is not ACTIVE stays as it is. -/
def ctxFault (c : Nat) (ring : Option Nat) (status detail : Nat) (logged : Bool) (s : State) : State :=
  if (getC c s).st = .active then
    let s := if logged then s else logFault c ring status s
    notify .contextFaulted (getC c s).part ring c status detail
      (timerSet .autoReset c (modC c (fun x => { x with st := .faulted, faultStatus := status }) s))
  else s

/-! ### Rings -/

/-- Does the command hold the later commands of its ring (R268): a KERNEL that waits for tiles, or a WAIT_VALUE? -/
def cmdHolds (r : Nat) (c : RCmd) (s : State) : Bool :=
  match c.st, c.work with
  | .running, .poll .. => true
  | .running, .kernel =>
    match getK (cmdKey r c.idx) s with
    | some k => k.phase = .waiting || k.phase = .reserving
    | none => false
  | .running, .gather .. => (c.desc.headD 0).toNat = 1
  | _, _ => false

/-- CMD_RING_STAT.STATE (R283). -/
def ringState (r : Nat) (s : State) : RingSt :=
  let x := getR r s
  if !x.enable then .disabled
  else if x.halted then .halted
  else if x.blocked then .cqBlocked
  else if x.cmds.isEmpty && x.next = x.producer then .idle
  else if x.cmds.any (cmdHolds r · s) then .waiting
  else .running

/-- The code of a ring state. -/
def ringStCode : RingSt → Nat
  | .disabled => 0 | .idle => 1 | .running => 2 | .waiting => 3 | .cqBlocked => 4 | .halted => 5

/-- Change command `i` of ring `r`. -/
def modCmd (r i : Nat) (f : RCmd → RCmd) (s : State) : State :=
  modR r (fun x => { x with cmds := x.cmds.map fun c => if c.idx = i then f c else c }) s

/-- Command `i` of ring `r`, if it is in progress or waits for its completion. -/
def getCmd (r i : Nat) (s : State) : Option RCmd := (getR r s).cmds.find? fun c => c.idx = i

/-- Decide how a command ends, once. -/
def finishCmd (r i status aux detail : Nat) (part alert : Bool) (s : State) : State :=
  modCmd r i (fun c => match c.st with
    | .running => { c with st := .done status aux detail part alert, work := .nothing }
    | _ => c) { s with chans := s.chans.filter fun e => e.2 ≠ cmdKey r i + 1 }

/-- The partition of a ring's context. -/
def ringPart (r : Nat) (s : State) : Nat := (getC (getR r s).ctx s).part

/-! ### Completions -/

/-- R273: DETAIL of a completion or a notification, without PHASE: an address or PC, and PARTIAL. -/
def detailOf (detail : Nat) (part : Bool) : Nat := detail % 2 ^ 55 + if part then 2 ^ 62 else 0

/-- R273: the bytes of a completion. -/
def complBytes (c : Compl) (time : Nat) (phase : Bool) : List Byte :=
  leBytes 4 c.idx ++ leBytes 2 c.status ++ leBytes 1 c.opcode ++ leBytes 1 (c.kind + if c.alert then 4 else 0) ++
  leBytes 4 c.tag ++ leBytes 4 c.aux ++ leBytes 8 time ++
  leBytes 8 (detailOf c.detail c.partl + if phase then 2 ^ 63 else 0)

/-- R272: is the completion ring full? -/
def cqFull (x : Ring) : Bool := 2 ^ x.cqLog2 ≤ (x.cqProduced + 2 ^ 32 - x.cqConsumed) % 2 ^ 32

/-- R274: can the completion ring take no entry: it is full, or its queue pair is not usable? -/
def cqStuck (x : Ring) (s : State) : Bool := cqFull x || (x.cqHost && !qpUsable x.cqQpn s)

/-- R274: the ring enters CQ_BLOCKED; the notification carries the block of an entry that failed. -/
def cqBlock (r detail : Nat) (s : State) : State :=
  if (getR r s).blocked then s
  else
    let c := (getR r s).ctx
    let p := (getC c s).part
    notify .ringCqBlocked p (some r) c 0 detail (logEv .ringCqBlocked (some p) (some c) r []
      (modR r (fun x => { x with blocked := true }) s))

/-- R272, R274: write one completion entry, or enter CQ_BLOCKED. True when the entry is written. -/
def postOne (r : Nat) (c : Compl) (s : State) : Bool × State :=
  let x := getR r s
  let size := 2 ^ x.cqLog2
  let bytes := complBytes c (stampVal .arith s) (x.cqProduced / size % 2 = 0)
  let at_ := x.cqAddr + x.cqProduced % size * 32
  let ok (s : State) : State :=
    modR r (fun y => { y with cqProduced := (y.cqProduced + 1) % 2 ^ 32, blocked := false }) s
  if cqFull x then (false, cqBlock r 0 s)
  else if x.cqHost then
    if qpUsable x.cqQpn s then (true, ok (qpPost x.cqQpn (some (at_, x.cqRkey)) bytes (ringPart r s) (stampUse .arith s)))
    else (false, cqBlock r 0 s)
  else
    match hbmWrite at_ bytes (0x280 + x.die) (stampUse .arith s) with
    | (none, s) => (true, ok s)
    | (some blk, s) =>
      let s := timerSet .postRetry r (cqBlock r (ownGlobal blk s) s)
      if (getR r s).cqFailed then (false, s)
      else (false, ctxFault x.ctx (some r) 0x0202 (ownGlobal blk s) false (modR r (fun y => { y with cqFailed := true }) s))

/-- R276: does a completion fault the context? -/
def faultsCtx (status : Nat) (part : Bool) : Bool := (0x0200 ≤ status && status ≤ 0x02FF) || part

/-- The completion of a finished command. -/
def cmdCompl (c : RCmd) (status aux detail : Nat) (part alert : Bool) (kind : Nat) : Compl :=
  ⟨c.idx, status, (c.desc.headD 0).toNat, kind, alert, leNat (sliceB c.desc 4 4), aux, detail, part⟩

/-- The KIND of the completion of a command that ends (R273, R409). -/
def complKind (c : RCmd) (status : Nat) : Nat :=
  if (c.desc.headD 0).toNat = 0x10 then (if status = 0 then 1 else if status = 0x0310 then 3 else 0) else 0

/-- The collective of a command, while it is admitted or waiting. -/
def collAt (r idx : Nat) (s : State) : Option (Nat × Coll) :=
  s.colls.find? fun e => e.2.ring = r && e.2.idx = idx && (e.2.st = .waiting || e.2.st = .running)

/-- R399, R409: the collective of a command whose RESULT, or REVOKED in its place, is posted. -/
def collPosted (r idx : Nat) (s : State) : State :=
  match s.colls.find? fun e => e.2.ring = r && e.2.idx = idx && e.2.st = .ended with
  | none => s
  | some e =>
    if e.2.revoke.isSome then { s with colls := smIns s.colls e.1 { e.2 with st := .revoked s.tb, foot := 0 } }
    else bump Reg.COL_COMPLETED 1 { s with colls := smIns s.colls e.1 { e.2 with st := .resulted s.tb, foot := 0 } }

/-- Advance CONSUMED past the head command, and fault the context if its completion does. -/
def retireHead (r : Nat) (c : RCmd) (status detail : Nat) (part : Bool) (s : State) : State :=
  let logged := match getK (cmdKey r c.idx) s with | some k => k.faultLogged | none => false
  let s := modR r (fun x => { x with
    cmds := x.cmds.drop 1, consumed := (c.idx + 1) % 2 ^ 32
    lastStatus := if status = 0 then x.lastStatus else status }) (collPosted r c.idx (delK (cmdKey r c.idx) s))
  let s := if (getR r s).haltNote then
      notify .ringHalted (ringPart r s) (some r) (getR r s).ctx status (detailOf detail part)
        (modR r (fun x => { x with haltNote := false }) s)
    else s
  if faultsCtx status part then ctxFault (getR r s).ctx (some r) status (detailOf detail part) logged s else s

/-- R269, R278, R470: write the completion of the oldest command once it is due, unless its context is RESETTING. True when one was retired. -/
def postHead (r : Nat) (s : State) : Bool × State :=
  match (getR r s).cmds with
  | [] => (false, s)
  | c :: _ =>
    match c.st with
    | .running => (false, s)
    | .done status aux detail part alert =>
      if (getC (getR r s).ctx s).st = .resetting then (false, s) else
      let quiet := ((c.desc.getD 1 0).getLsbD 1) && status = 0
      if quiet then (true, retireHead r c status detail part s)
      else
        match postOne r (cmdCompl c status aux detail part alert (complKind c status)) s with
        | (true, s) => (true, retireHead r c status detail part s)
        | (false, s) => (false, s)

/-- Write completions that are due, at most `n`. -/
def postDue (r : Nat) : Nat → State → State
  | 0, s => s
  | n + 1, s =>
    match postHead r s with
    | (true, s) => postDue r n s
    | (false, s) => s

/-- Write the SETTLED and REVOKED completions that wait. -/
def postLate (r : Nat) : Nat → State → State
  | 0, s => s
  | n + 1, s =>
    match (getR r s).late with
    | [] => s
    | c :: l =>
      match postOne r c s with
      | (true, s) => postLate r n (modR r (fun x => { x with late := l }) s)
      | (false, s) => s

/-- R269: does a ring have a completion that is due? -/
def postWaits (x : Ring) : Bool :=
  !x.late.isEmpty || match x.cmds.head? with | some c => c.st ≠ .running | none => false

/-- R274: a ring whose completion ring can take entries again writes the completions that wait, and leaves CQ_BLOCKED. -/
def cqRetry (r : Nat) (s : State) : State :=
  let x := getR r s
  if !x.blocked || cqStuck x s then s
  else
    let s := postLate r (x.late.length + 1) (postDue r (x.cmds.length + 1) s)
    if postWaits (getR r s) then s else modR r (fun y => { y with blocked := false }) s

/-- R270, R274, R280: nothing is posted while a snapshot freeze lasts; the command that would post waits for its end. -/
def heldOr (i : Instr) (f : State → State) (s : State) : State :=
  if s.frozen then { s with held := s.held ++ [i] } else f s

/-- R280: an event that would change the state of ring `r` during a snapshot freeze waits for its end. -/
def ringHeld (i : Instr) (r : Nat) (f : State → State) (s : State) : State :=
  if s.frozen && ringState r (f s) ≠ ringState r s then { s with held := s.held ++ [i] } else f s

/-! ### Doorbells -/

/-- R261: how a doorbell value compares with the current one. -/
inductive DbCmp where
  | same | newer | stale
  deriving DecidableEq, Repr

/-- R261: compare modulo 2^32. -/
def dbCompare (v c : Nat) : DbCmp :=
  let d := (v + 2 ^ 32 - c) % 2 ^ 32
  if d = 0 then .same else if d < 2 ^ 31 then .newer else .stale

/-- A ring number. -/
def ringId (r : Nat) : RingId := ⟨r % 262144, Nat.mod_lt _ (by decide)⟩

/-- R261, R280: a PRODUCER value. -/
def doorbellProducer (r v : Nat) : State → State :=
  heldOr (.doorbellProducer (ringId r) (BitVec.ofNat 32 v)) fun s =>
    let x := getR r s
    if !x.enable then s
    else match dbCompare v x.producer with
      | .same => s
      | .stale => bump Reg.CMD_STALE_DOORBELLS 1 s
      | .newer =>
        if 2 ^ x.log2 < (v + 2 ^ 32 - x.consumed) % 2 ^ 32 then ctxFault x.ctx (some r) 0x0206 0 false s
        else modR r (fun x => { x with producer := v }) s

/-- R261, R280: a CQ_CONSUMED value. -/
def doorbellCq (r v : Nat) : State → State :=
  heldOr (.doorbellCqConsumed (ringId r) (BitVec.ofNat 32 v)) fun s =>
    let x := getR r s
    if !x.enable then s
    else match dbCompare v x.cqConsumed with
      | .same => s
      | .stale => bump Reg.CMD_STALE_DOORBELLS 1 s
      | .newer =>
        if (x.cqProduced + 2 ^ 32 - x.cqConsumed) % 2 ^ 32 < (v + 2 ^ 32 - x.cqConsumed) % 2 ^ 32 then
          bump Reg.CMD_DOORBELL_DISCARDS 1 s
        else cqRetry r (modR r (fun x => { x with cqConsumed := v }) s)

/-- R260: a write of bytes into the doorbell window (R36). -/
def doorbellWrite (off : Nat) (l : List Byte) (s : State) : State :=
  let r := (off - dbWin) / 64
  let o := (off - dbWin) % 64
  let n := l.length
  if (o ≠ 0 ∧ o ≠ 8) ∨ (n ≠ 4 ∧ n ≠ 8 ∧ n ≠ 16) ∨ 16 < o + n then bump Reg.CMD_DOORBELL_DISCARDS 1 s
  else if o = 8 then doorbellCq r (leNat (l.take 4)) s
  else
    let s := doorbellProducer r (leNat (l.take 4)) s
    if n = 16 then doorbellCq r (leNat (sliceB l 8 4)) s else s

/-- DOORBELL_PRODUCER (R261): ring and value. -/
def execDoorbellProducer (ring : RingId) (v : B32) (s : State) : Ans := .next (doorbellProducer ring.val v.toNat s)

/-- DOORBELL_CQ_CONSUMED (R261): ring and value. -/
def execDoorbellCqConsumed (ring : RingId) (v : B32) (s : State) : Ans := .next (doorbellCq ring.val v.toNat s)

/-- COMPLETION_RETRY (R274), every 1 ms ± 0.1 ms: a completion entry that failed is tried again. -/
def execCompletionRetry (ring : RingId) (s : State) : Ans :=
  .next (heldOr (.completionRetry ring) (every .postRetry ring.val 900000 (cqRetry ring.val)) s)

/-- COMMAND_COMPLETE (R269, R272): the oldest command of the ring, if its effects are all visible, has its completion
written. -/
def execCommandComplete (ring : RingId) (s : State) : Ans :=
  .next (heldOr (.commandComplete ring) (fun s =>
    if (getR ring.val s).blocked then s else postLate ring.val 16 (postHead ring.val s).2) s)

end Sys2Proof.Machine
end

