-- ==== Sys2Proof/Machine/Home.lean ====
section
/-! DEFINITION. Machine/Home.lean: performing a request at its home (R213, R331, R351 to R353): HBM at the stack
controller, a scratchpad through its window, the doorbell window; and answering other modules (R327). -/

namespace Sys2Proof.Machine

/-- The requester number that HBM_UE_DEMAND names (R216). -/
def reqCode (u : RUnit) : Nat :=
  match u with | .remote _ _ code _ _ _ => code | _ => unitCode u

/-- The global address on this module of a failing block or word. -/
def failAt (off : Nat) (s : State) : Nat := ownGlobal off s

/-- Perform a read at this module's offset `off`. -/
def homeRead (off n code : Nat) (s : State) : RStatus × List Byte × State :=
  if off < hbmEnd then
    match hbmRead off n code s with
    | (.ok l, s) => (.ok, l, s)
    | (.error b, s) => (.uncorrectable (failAt b s), [], s)
  else match spSlot off with
    | some p =>
      match spRead p.1 p.2 n s with
      | (.ok l, s) => (.ok, l, s)
      | (.error w, s) => (.uncorrectable (failAt (spGlobal p.1 (32 * w)) s), [], s)
    | none => (.ok, List.replicate n 0, s)

/-- Perform a write at this module's offset `off`. -/
def homeWrite (off : Nat) (l : List Byte) (code : Nat) (s : State) : RStatus × State :=
  if off < hbmEnd then
    match hbmWrite off l code s with
    | (none, s) => (.ok, s)
    | (some b, s) => (.uncorrectable (failAt b s), s)
  else match spSlot off with
    | some p =>
      match spWrite p.1 p.2 l s with
      | (none, s) => (.ok, s)
      | (some w, s) => (.uncorrectable (failAt (spGlobal p.1 (32 * w)) s), s)
    | none => if dbWin ≤ off then (.ok, doorbellWrite off l s) else (.refused, s)

/-- Perform a request's access, with the check that the destination makes of it (R331): the backing of R34 and R35 is
looked at again when the access arrives. -/
def perform (r : Req) (s : State) : RStatus × List Byte × State :=
  let off := gOff r.gaddr
  match r.kind with
  | .read =>
    if off < dbWin && !destOk off r.len s then (.refused, [], s) else homeRead off r.len (reqCode r.unit) s
  | .write d =>
    if off < dbWin && !destOk off d.length s then (.refused, [], s)
    else
      let x := homeWrite off d (reqCode r.unit) s
      (x.1, [], x.2)
  | .atomic op wide unsgn b c =>
    if !destOk off r.len s then (.refused, [], s)
    else match hbmAtomic off op wide unsgn b c (reqCode r.unit) s with
    | (some old, s) => (.ok, leBytes 8 old.toNat, s)
    | (none, s) => (.uncorrectable (failAt (off / 512 * 512) s), [], s)

/-- The response to a request from another module: the code of R326 for its status. -/
def stCode : RStatus → Nat
  | .ok => 0 | .refused => 1 | .uncorrectable _ => 2 | .noRoute => 3

/-- R327, R342: answer another module through the port of the die, or of the hub. -/
def answer (r : Req) (st : RStatus) (data : List Byte) (s : State) : State :=
  match r.unit with
  | .remote _ src unit tag rport _ =>
    let p : Packet := { packet0 with
      vc := 1, part := r.part, dst := src, src := ownChip s, unit := unit, tag := tag, status := stCode st }
    let p := match r.kind with
      | .read => { p with typ := 3, len := data.length, data := data }
      | _ => { p with typ := 4 }
    sendPacket rport p s
  | _ => s

/-- Mark a request done, or answer it when it came from another module. -/
def settleReq (id : Nat) (r : Req) (st : RStatus) (data : List Byte) (s : State) : State :=
  match r.unit with
  | .remote .. => answer r st data (delReq id s)
  | _ => setReq id { r with stage := .done st data } s

/-- Is the unit the DMA engine of a tile? -/
def isDmaUnit (u : RUnit) : Bool := match u with | .dma .. => true | _ => false

/-- R362: has an earlier transfer of the tile's DMA engine requests for this module that it has still to make? -/
def dmaBehind (u : RUnit) (s : State) : Bool :=
  match u with
  | .dma t id _ => (getT t s).xfers.any fun x => x.id < id && !x.sent && gChip x.desc.gaddr = ownChip s
  | _ => false

/-- R362: a fenced request to this module waits for every earlier request of the same DMA engine to this module: those made, and
those that earlier transfers have still to make. -/
def localFence (id : Nat) (r : Req) (s : State) : Bool :=
  r.fence && (dmaBehind r.unit s || s.reqs.any fun e => e.1 < id && e.2.stage = .queued && isDmaUnit e.2.unit &&
    unitCode e.2.unit == unitCode r.unit && gChip e.2.gaddr = gChip r.gaddr)

/-- R361: an ATOM to a block is held until the tile's earlier ATOM to it has returned. -/
def atomAhead (id : Nat) (r : Req) (s : State) : Bool :=
  match r.unit with
  | .atom t => s.reqs.any fun e => e.1 < id && e.2.unit = .atom t && e.2.gaddr / 512 = r.gaddr / 512
  | _ => false

/-- May a queued request be performed now? -/
def mayPerform (id : Nat) (r : Req) (s : State) : Bool :=
  r.stage = .queued && !localFence id r s && !orderHeld r s && !atomAhead id r s

/-- R351: the lines of a scratchpad request for `n` bytes at `o` that are still to be performed. -/
def spTodo (o n : Nat) (r : Req) : List Nat :=
  if n = 0 then [] else ((List.range ((o + n - 1) / 64 + 1 - o / 64)).map (o / 64 + ·)).filter fun i => (lookO r.lines i).isNone

/-- R90, R351: one line of a request for a tile's scratchpad is performed at its bank: line `i`. The words that a write covers in
part are read before its first line is written, so that it lands wholly or not at all (R233, R347; log entry 58). -/
def spLine (i t o : Nat) (r : Req) (s : State) : Except Nat (List Byte) × State :=
  let lo := max o (64 * i)
  match r.kind with
  | .write d =>
    let x := if r.lines.isEmpty then spPreRead t (partWords t o d.length s) s else (none, s)
    match x.1 with
    | some w => (.error w, x.2)
    | none => (.ok [], spStore t lo (sliceB d (lo - o) (min (o + d.length) (64 * i + 64) - lo)) x.2)
  | _ => spRead t lo (min (o + r.len) (64 * i + 64) - lo) s

/-- R351, R361: a scratchpad request goes on by one of its lines, a free choice, and is complete after its last. -/
def performLine (id t o : Nat) (r : Req) (s : State) : State :=
  let n := match r.kind with | .write d => d.length | _ => r.len
  let todo := spTodo o n r
  let i := todo.getD (freeNat s % todo.length) 0
  match spLine i t o r (if todo.length ≤ 1 then s else tick1 s) with
  | (.error w, s) => settleReq id r (.uncorrectable (failAt (spGlobal t (32 * w)) s)) [] s
  | (.ok l, s) =>
    let r := { r with lines := putO r.lines i l }
    if todo.length ≤ 1 then settleReq id { r with lines := [] } .ok (r.lines.map (·.2)).flatten s else setReq id r s

/-- R203, R205: `sym` symbols of the stored block of a request have gone bad since it was last written. -/
def decay (r : Req) (sym : Nat) (s : State) : State :=
  let o := gOff r.gaddr
  if o < hbmEnd ∧ granuleWritten o s then blockDecay o sym s else s

/-- HBM_ACCESS (R213): the home performs the queued request `req` wholly, on a block of which `sym` symbols have gone
bad. Requests to one block take effect in the order in which they are presented here, which is their order of arrival,
within the orders of R361. Requests for a scratchpad window, line by line, and for the doorbell window are presented by the same
command (log entry 61). -/
def execHbmAccess (req sym : Nat) (s : State) : Ans :=
  match lookO s.reqs req with
  | none => .next s
  | some r =>
    if mayPerform req r s then
      match spSlot (gOff r.gaddr), destOk (gOff r.gaddr) r.len s with
      | some p, true => .next (performLine req p.1 p.2 r s)
      | _, _ =>
        let x := perform r (decay r sym s)
        .next (settleReq req r x.1 x.2.1 x.2.2)
    else .next s

end Sys2Proof.Machine
end

