-- ==== Sys2Proof/Machine/Operands.lean ====
section
/-! DEFINITION. Machine/Operands.lean: the scalar and lane functions that FN selects (R142, R145, R146). -/

namespace Sys2Proof.Machine

/-- R142: ALU and ALUI. Integer arithmetic wraps modulo 2^64. -/
def aluFn (fn : Nat) (a b : B64) : B64 :=
  let sh := (b.extractLsb' 0 6).toNat
  match fn with
  | 0 => a + b
  | 1 => a - b
  | 2 => a &&& b
  | 3 => a ||| b
  | 4 => a ^^^ b
  | 5 => a <<< sh
  | 6 => a >>> sh
  | 7 => a.sshiftRight sh
  | 8 => a * b
  | 9 => if a.slt b then a else b
  | 10 => if a.slt b then b else a
  | 11 => if a.ult b then a else b
  | _ => if a.ult b then b else a

/-- The FP32 view of a scalar register: bits [31:0] (R126). -/
def lo32 (x : B64) : B32 := x.extractLsb' 0 32

/-- R142: FPU. An FP32 result is written to [31:0] with zero in [63:32]. -/
def fpuFn (fn : Nat) (a b c : B64) : B64 :=
  let x := lo32 a
  let y := lo32 b
  let f (r : B32) : B64 := r.setWidth 64
  match fn with
  | 0 => f (add32 x y)
  | 1 => f (sub32 x y)
  | 2 => f (mul32 x y)
  | 3 => f (fma32 x y (lo32 c))
  | 4 => f (min32 x y)
  | 5 => f (max32 x y)
  | 6 => f (recipf x)
  | 7 => f (rsqrtf x)
  | 8 => f (exp2f x)
  | 9 => f (log2f x)
  | 10 => f (i64ToF a)
  | _ => fToI64 x

/-- R145: one FP32 lane of VALU or VALUS. -/
def valu32 (fn : Nat) (a b c : B32) : B32 :=
  match fn with
  | 0 => add32 a b
  | 1 => sub32 a b
  | 2 => mul32 a b
  | 3 => fma32 a b c
  | 4 => max32 a b
  | 5 => min32 a b
  | 6 => if fvLt (dec32 a) (dec32 b) then 0xFFFFFFFF#32 else 0
  | 7 => if c ≠ 0 then a else b
  | _ => a &&& 0x7FFFFFFF#32

/-- R145: one BF16 lane: inputs widened exactly, the exact result rounded once to BF16. -/
def valu16 (fn : Nat) (a b c : B16) : B16 :=
  let x := decBf a
  let y := decBf b
  let seed := seed3 (16 + fn) (cvtBf32 a) (cvtBf32 b) (cvtBf32 c)
  match fn with
  | 0 => encBf seed (fvAdd x y)
  | 1 => encBf seed (fvAdd x (fvNeg y))
  | 2 => encBf seed (fvMul x y)
  | 3 => encBf seed (fvAdd (fvMul x y) (decBf c))
  | 4 => if x = .nan ∨ y = .nan then encBf seed .nan else if fvRankLt x y then b else a
  | 5 => if x = .nan ∨ y = .nan then encBf seed .nan else if fvRankLt y x then b else a
  | 6 => if fvLt x y then 0xFFFF#16 else 0
  | 7 => if c ≠ 0 then a else b
  | _ => a &&& 0x7FFF#16

/-- R145: VALU and VALUS on whole registers; FN[0] selects the lane type. -/
def valuFn (fn : Nat) (a b c : BitVec 4096) : BitVec 4096 :=
  if fn % 2 = 0 then of32 ((List.range 128).map fun i => valu32 (fn / 2) (lane32 a i) (lane32 b i) (lane32 c i))
  else of16 ((List.range 256).map fun i => valu16 (fn / 2) (lane16 a i) (lane16 b i) (lane16 c i))

/-- One level of a pairwise tree. -/
def treeLevel (f : B32 → B32 → B32) : List B32 → List B32
  | a :: b :: l => f a b :: treeLevel f l
  | l => l

/-- R146: the pairwise tree over 128 lanes: seven levels of adjacent pairs. -/
def tree128 (f : B32 → B32 → B32) (l : List B32) : B32 :=
  ((List.range 7).foldl (fun l _ => treeLevel f l) l).headD 0

/-- R146: VRED: sum, maximum or minimum of the FP32 lanes. -/
def vredFn (fn : Nat) (v : BitVec 4096) : B32 :=
  tree128 (match fn with | 0 => add32 | 1 => max32 | _ => min32) (lanes32 v)

/-- R147: VCVT to one 16-bit register from a pair (FN 0 and 2). -/
def vcvtDown (fn : Nat) (a b : BitVec 4096) : BitVec 4096 :=
  of16 ((lanes32 a ++ lanes32 b).map (if fn = 0 then cvt32Bf else cvt32Fp16))

/-- R147: VCVT to a pair of FP32 registers (FN 1 and 3). -/
def vcvtUp (fn : Nat) (a : BitVec 4096) : BitVec 4096 × BitVec 4096 :=
  let l := (lanes16 a).map (if fn = 1 then cvtBf32 else cvtFp1632)
  (of32 (l.take 128), of32 (l.drop 128))

/-- R146: VBCAST. -/
def vbcastFn (fn : Nat) (x : B64) : BitVec 4096 :=
  if fn = 0 then of32 (List.replicate 128 (lo32 x)) else of16 (List.replicate 256 (x.extractLsb' 0 16))

/-- −infinity as FP32. -/
abbrev negInf32 : B32 := 0xFF800000#32
/-- 1.0 as FP32. -/
abbrev one32 : B32 := 0x3F800000#32

/-- R154: SMXU: the new register, m, l and c from the scores and the old m and l. -/
def smxuFn (va : BitVec 4096) (m l : B32) : BitVec 4096 × B32 × B32 × B32 :=
  let mn := max32 m (tree128 max32 (lanes32 va))
  if mn = negInf32 then (0, mn, l, one32)
  else
    let c := if m = negInf32 then (if dec32 mn = .nan then nan32 (seed2 10 m mn) else 0) else exp2f (sub32 m mn)
    let vd := (lanes32 va).map fun x => exp2f (sub32 x mn)
    (of32 vd, mn, add32 (mul32 l c) (tree128 add32 vd), c)

/-- R155: SMXM: m, l, ca and cb from two partial states. -/
def smxmFn (ma la mb lb : B32) : B32 × B32 × B32 × B32 :=
  let m := max32 ma mb
  let cf (x : B32) : B32 :=
    if m = negInf32 then one32 else if x = negInf32 then 0 else exp2f (sub32 x m)
  (m, add32 (mul32 la (cf ma)) (mul32 lb (cf mb)), cf ma, cf mb)

end Sys2Proof.Machine
end

