-- ==== Sys2Proof/Machine/Flags.lean ====
section
/-! DEFINITION. Machine/Flags.lean: every predicate that an instruction computes (R142). -/

namespace Sys2Proof.Machine

/-- R142: CMP and CMPI. -/
def cmpFn (fn : Nat) (a b : B64) : Bool :=
  match fn with
  | 0 => a == b
  | 1 => a != b
  | 2 => a.slt b
  | 3 => !a.slt b
  | 4 => a.ult b
  | _ => !a.ult b

/-- R142: PLOG. -/
def plogFn (fn : Nat) (a b : Bool) : Bool :=
  match fn with
  | 0 => a && b
  | 1 => a || b
  | 2 => a != b
  | _ => a && !b

/-- R142: FCMP on [31:0]. Comparisons other than FN 3 are false when either input is NaN. -/
def fcmpFn (fn : Nat) (a b : B64) : Bool :=
  let x := dec32 (lo32 a)
  let y := dec32 (lo32 b)
  match fn with
  | 0 => fvEq x y
  | 1 => fvLt x y
  | 2 => fvLt x y || fvEq x y
  | _ => x = .nan || y = .nan

/-- R162, R266: the comparison of a polled word with a value under a mask. -/
def waitCond (fn : Nat) (v mask cmp : B64) : Bool :=
  match fn with
  | 0 => (v &&& mask) == cmp
  | 1 => (v &&& mask) != cmp
  | _ => !(v &&& mask).ult cmp

end Sys2Proof.Machine
end

