-- ==== Sys2Proof/Machine/Matrix.lean ====
section
/-! DEFINITION. Machine/Matrix.lean: operand layouts (R94 to R96), the accumulation order (R58, R103), the costs of
R100 to R102, accumulator read-out (R106), and the Crema lane's comparison and escalation (R67 to R75). Everything here
is a function of one tile and of an operation's fields. -/

namespace Sys2Proof.Machine

/-- Elements per reduction step for a weight format (R94). -/
def kstepOf : Fmt → Nat
  | .t2 => 512
  | _ => 256

/-- The bytes of one step's weight panel (R94). -/
def panelBytes : Fmt → Nat
  | .mxfp4 => 21760 | .f3lb => 17600 | .t2 => 21120 | .e4m3 | .e5m2 => 40960 | .mxe4m3 | .mxe5m2 => 42240
  | _ => 81920

/-- Is it an FP8 format, plain or MX? -/
def isFp8 : Fmt → Bool
  | .e4m3 | .e5m2 | .mxe4m3 | .mxe5m2 => true
  | _ => false

/-- R100: cycles per activation row per step for an operand pair, or none for a pair that the engine refuses. -/
def pairCost (w a : Fmt) : Option Nat :=
  match w with
  | .mxfp4 | .f3lb => if a = .mxfp4 then some 1 else if isFp8 a then some 2 else none
  | .t2 => if a = .mxfp4 then some 1 else if isFp8 a then some 4 else none
  | .bf16 => if a = .bf16 then some 8 else none
  | .e4m3 | .e5m2 | .mxe4m3 | .mxe5m2 => if isFp8 a then some 2 else none
  | _ => none

/-- R100: MACs per cycle of a pair are Kstep × 160 / c. -/
def pairMacs (w : Fmt) (m ksteps : Nat) : Nat := m * 160 * kstepOf w * ksteps

/-- R101: cycles to load one panel, 4 lines a cycle. -/
def loadCycles (w : Fmt) : Nat := (panelBytes w / 64 + 3) / 4

/-- The bytes of one activation row of `k` elements, its scales after its elements (R95). -/
def rowBytes (f : Fmt) (k : Nat) : Nat := fmtElemBytes f k + (if fmtScaled f then k / 32 else 0)

/-- The groups of one activation row. -/
def actRow (t : Tile) (f : Fmt) (base k : Nat) : List Grp :=
  fmtGroups f k (spBytes t base (fmtElemBytes f k)) (spBytes t (base + fmtElemBytes f k) (k / 32))

/-- The groups of column `n` of one step's panel (R94). -/
def panelCol (t : Tile) (f : Fmt) (panel n : Nat) : List Grp :=
  let k := kstepOf f
  let eb := fmtElemBytes f k
  fmtGroups f k (spBytes t (panel + n * eb) eb) (spBytes t (panel + 160 * eb + n * 8) 8)

/-- The groups of column `n` over all steps, in order of increasing k. -/
def wgtCol (t : Tile) (f : Fmt) (base stride ksteps n : Nat) : List Grp :=
  ((List.range ksteps).map fun s => panelCol t f (base + s * stride) n).flatten

/-- One group step of R103: the exact sum of 8 products, scaled exactly, added with one rounding. -/
def macStep (acc : B32) (a w : Grp) : B32 :=
  let p := (List.zipWith fvMul a.1 w.1).foldl fvAdd (.num false 0 0)
  let p := match a.2, w.2 with
    | some x, some y => fvScale (x + y) p
    | _, _ => .nan
  enc32 (seed2 11 acc 0) (fvAdd (dec32 acc) p)

/-- R103: accumulate a row against a column. -/
def macRow (acc : B32) : List Grp → List Grp → B32
  | a :: as, w :: ws => macRow (macStep acc a w) as ws
  | _, _ => acc

/-- The accumulator file with the writes of issued operations applied: what a later operation reads (R105). -/
def accView (t : Tile) : SMap B32 :=
  t.matQ.foldl (fun acc o => o.writes.foldl (fun acc w => smPut 0 acc w.1 w.2) acc) t.acc

/-- The index of accumulator element (row, column). -/
abbrev accIx (r n : Nat) : Nat := r * 160 + n

/-- R97: the rows that a multiply writes: `rows` of activations against `cols` of weights. -/
def mmRows (prior : Nat → B32) (row0 : Nat) (rows cols : List (List Grp)) : List (Nat × B32) :=
  (rows.mapIdx fun m a => cols.mapIdx fun n w => (accIx (row0 + m) n, macRow (prior (accIx (row0 + m) n)) a w)).flatten

/-- Quantised activations of a QMMUL: groups of each row, the bytes of each row (R95), and the rounding state. The
elements are rounded step by step, row by row, in order of increasing k (R65). -/
def quantActs (f : Fmt) (stoch ceil : Bool) (kstep : Nat) (rows : List (List B16)) (st : QSt) :
    List (List Grp) × List (List Byte) × QSt :=
  match fmtElem f with
  | none => ([], [], st)
  | some el =>
    let m := rows.length
    let k := (rows.headD []).length
    let vals := rows.map (·.map cvtBf32)
    let exps := vals.map (mxExps ceil f el)
    let order := (List.range (k / kstep)).map fun s => (List.range m).map fun r => (List.range kstep).map fun i =>
      ((vals.getD r []).getD (s * kstep + i) 0, (exps.getD r []).getD ((s * kstep + i) / 32) 0)
    let q := quantSeq el stoch order.flatten.flatten st
    let codes := (List.range m).map fun r => (List.range k).map fun j =>
      q.1.getD (j / kstep * (m * kstep) + r * kstep + j % kstep) 0
    let bytes := codes.mapIdx fun r cs =>
      (packElems f cs, if fmtScaled f then (exps.getD r []).map scaleByte else [])
    (bytes.map fun b => fmtGroups f k b.1 b.2, bytes.map fun b => b.1 ++ b.2, q.2)

/-- R106: the bytes of one row of a row-major output format, or 0 for a format the read-out does not write row-major. -/
def outRowBytes : Fmt → Nat
  | .fp32 => 640 | .bf16 | .fp16 => 320 | .e4m3 | .e5m2 => 160 | .mxe4m3 | .mxe5m2 => 165 | .mxfp4 => 85
  | _ => 0

/-- R106: is it an output format of the read-out? -/
def outFmt (f : Fmt) : Bool := outRowBytes f ≠ 0 || f = .f3lb

/-- R106: the bytes that a row-major read-out writes for each row, and the rounding state. Elements are rounded in
row-major order. -/
def readRows (f : Fmt) (stoch ceil : Bool) (rows : List (List B32)) (st : QSt) : List (List Byte) × QSt :=
  match f with
  | .fp32 => (rows.map fun r => (r.map fun x => leBytes 4 x.toNat).flatten, st)
  | .bf16 => (rows.map fun r => (r.map fun x => leBytes 2 (cvt32Bf x).toNat).flatten, st)
  | .fp16 => (rows.map fun r => (r.map fun x => leBytes 2 (cvt32Fp16 x).toNat).flatten, st)
  | f => rows.foldl (fun acc r =>
      let q := quantRun f stoch ceil r acc.2
      (acc.1 ++ [q.1 ++ q.2.1], q.2.2)) ([], st)

/-- R106: the F3-LB read-out: super-blocks along M of each column, one column after another; the elements are rounded
in row-major order (R65). -/
def readF3 (stoch ceil : Bool) (rows : List (List B32)) (st : QSt) : List Byte × QSt :=
  let m := rows.length
  let blks := m / 128
  let el (r n : Nat) : B32 := (rows.getD r []).getD n 0
  let scales := (List.range 160).map fun n => (List.range blks).map fun b =>
    f3Scales ceil ((List.range 128).map fun i => el (128 * b + i) n)
  let sc (n b : Nat) : Int × List Nat := (scales.getD n []).getD b (0, [])
  let q := quantSeq elF3 stoch (((List.range m).map fun r => (List.range 160).map fun n =>
    (el r n, (sc n (r / 128)).1 - ((sc n (r / 128)).2.getD (r % 128 / 8) 0 : Nat))).flatten) st
  (((List.range 160).map fun n => (List.range blks).map fun b =>
    f3Block ((List.range 128).map fun i => q.1.getD ((128 * b + i) * 160 + n) 0) (sc n b)).flatten.flatten, q.2)

/-! ### The Crema lane -/

/-- The fields of the precision control word (R81). -/
def pcMode (p : B64) : Nat := (p.extractLsb' 0 2).toNat
/-- K of R81. -/
def pcK (p : B64) : Nat := (p.extractLsb' 2 4).toNat
/-- PHASE of R81. -/
def pcPhase (p : B64) : Nat := (p.extractLsb' 6 12).toNat
/-- REQUIRE_ESCALATE of R81. -/
def pcRequire (p : B64) : Bool := p.getLsbD 18
/-- ROUNDING of R81: true is stochastic. -/
def pcStoch (p : B64) : Bool := p.getLsbD 19
/-- RESEED of R81. -/
def pcReseed (p : B64) : Bool := p.getLsbD 20
/-- QSCALE of R81: true is the ceiling rule. -/
def pcCeil (p : B64) : Bool := p.getLsbD 21
/-- BURST of R81. -/
def pcBurst (p : B64) : Nat := (p.extractLsb' 24 8).toNat
/-- THRESHOLD of R81. -/
def pcThresh (p : B64) : Nat := (p.extractLsb' 32 16).toNat
/-- SEED_SALT of R81. -/
def pcSalt (p : B64) : Nat := (p.extractLsb' 48 16).toNat

/-- R79: does the word break a rule that refuses the kernel? -/
def pcInvalid (p : B64) : Bool :=
  pcMode p == 3 || p.extractLsb' 22 2 != 0 || (pcMode p != 0 && !(4 ≤ pcK p && pcK p ≤ 12))

/-- R67: is block `b` a sampling candidate? -/
def candidate (p : B64) (bursts : List (Nat × Nat)) (b : Nat) : Bool :=
  pcMode p != 0 && (b % 2 ^ pcK p == pcPhase p % 2 ^ pcK p || bursts.any fun r => r.1 ≤ b && b ≤ r.2)

/-- R70: the two FP32 results of a sample, each accumulated from zero. -/
def sampleResults (c : CSample) : List B32 × List B32 :=
  let toGrps (l : List B16) : List Grp := (chunks 8 (l.length / 8) l).map fun g => (g.map decBf, some 0)
  let run (rows : List (List Grp)) : List B32 := (mmRows (fun _ => 0) 0 rows c.wgt).map (·.2)
  (run (c.ref.map toGrps), run c.used)

/-- Positive infinity as FP32. -/
abbrev posInf32 : B32 := 0x7F800000#32

/-- R70: the relative L2 error of a sample. -/
def sampleError (yref yq : List B32) : B32 :=
  let sums := (List.zip yq yref).foldl (fun (s : B32 × B32) y =>
    let d := sub32 y.1 y.2
    (add32 s.1 (mul32 d d), add32 s.2 (mul32 y.2 y.2))) (0, 0)
  if (yq ++ yref).any (fun y => !fvFinite (dec32 y)) then posInf32
  else if yref.all (fun y => fvZero (dec32 y)) then (if yq.all (fun y => fvZero (dec32 y)) then 0 else posInf32)
  else if fvZero (dec32 sums.2) then (if fvZero (dec32 sums.1) then 0 else posInf32)
  else
    let rt (x : B32) : B32 := enc32 (seed2 12 x 0) (fvSqrt (dec32 x))
    let e := enc32 (seed2 13 sums.1 sums.2) (fvDiv (dec32 (rt sums.1)) (dec32 (rt sums.2)))
    if dec32 e = .nan then posInf32 else e

/-- R70: is an error above THRESHOLD / 65,536? -/
def isExcursion (p : B64) (e : B32) : Bool := fvLt (.num false (pcThresh p) (-16)) (dec32 e)

/-- R73, R74: the rows of an escalated block and its saturations: FP8 E4M3 activations with 32-element scales, rounded
to nearest even. -/
def escalate (ceil : Bool) (c : CSample) : List (Nat × B32) × Nat :=
  let q := quantActs .mxe4m3 false ceil ((c.ref.headD []).length) c.ref ⟨1, 0, 0⟩
  let prior (i : Nat) : B32 := if c.acc then c.prior.getD (i - accIx c.row0 0) 0 else 0
  (mmRows prior c.row0 q.1 c.wgt, q.2.2.sat)

/-- The larger of two errors (MAX_ERR). -/
def maxErr (a b : B32) : B32 := if fvLt (dec32 a) (dec32 b) then b else a

end Sys2Proof.Machine
end

