-- ==== Sys2Proof/Machine/TileIssue.lean ====
section
/-! DEFINITION. Machine/TileIssue.lean: what each tile instruction does when it executes (R138 to R151, R154, R155),
as a function of one tile: a precise fault, a wait, or the tile after it has issued. Instructions that reach outside
the tile (DMA, ATOM, ACQ, the waits) are in Machine/TileMem.lean. -/

namespace Sys2Proof.Machine

/-- What an instruction can ask of the rest of the module (MFSR, R140). -/
structure TEnv where
  phys : Nat
  tileCount : Nat
  chip : Nat
  time : Nat
  cycles : Nat
  arg : Nat
  imageLen : Nat
  word : B64

/-- The outcome of a tile-local instruction. -/
abbrev TIss := Issue Tile

/-- R140: the special value that IMM selects. -/
def specialReg (e : TEnv) (t : Tile) (n : Nat) : B64 :=
  match n with
  | 0 => BitVec.ofNat 64 t.logical
  | 1 => BitVec.ofNat 64 e.tileCount
  | 2 => BitVec.ofNat 64 e.phys
  | 3 => BitVec.ofNat 64 (e.chip % 32768)
  | 4 => BitVec.ofNat 64 e.time
  | 5 => BitVec.ofNat 64 e.cycles
  | 6 => BitVec.ofNat 64 e.arg
  | 7 => BitVec.ofNat 64 t.ctx
  | 8 => t.lfsr.setWidth 64
  | _ => t.prec

/-- R137: NOP costs one issue cycle. -/
def issNop (_ : TEnv) (_ : TileWord) (t : Tile) : TIss := .go (retire t)

/-- R138: END starts the drain; no further instruction issues. -/
def issEnd (_ : TEnv) (_ : TileWord) (t : Tile) : TIss := .go { retire t with draining := true }

/-- R139: BR. -/
def issBr (e : TEnv) (w : TileWord) (t : Tile) : TIss :=
  match w.args with
  | .i _ _ _ imm =>
    let target : Int := t.pc + imm.toInt * 8
    if target < 0 ∨ (e.imageLen : Int) ≤ target then .fault .fetchFault (BitVec.ofInt 64 target).toNat
    else .go { retire t with pc := target.toNat }
  | _ => .go t

/-- R140: MFSR. -/
def issMfsr (e : TEnv) (w : TileWord) (t : Tile) : TIss :=
  match w.args with
  | .i d _ _ imm => .go (retire (wrS t d.toNat (specialReg e t imm.toNat)))
  | _ => .go t

/-- R141: LFSRLD: zero loads 0x0000_0001. -/
def issLfsrld (_ : TEnv) (w : TileWord) (t : Tile) : TIss :=
  match w.args with
  | .g _ a _ _ _ =>
    let x := lo32 (rdS t a.toNat)
    .go (retire { t with lfsr := if x = 0 then 1 else x })
  | _ => .go t

/-- R142: ALU. -/
def issAlu (_ : TEnv) (w : TileWord) (t : Tile) : TIss :=
  match w.args with
  | .g d a b _ fn => .go (retire (wrS t d.toNat (aluFn fn.toNat (rdS t a.toNat) (rdS t b.toNat))))
  | _ => .go t

/-- R142: ALUI: IMM sign-extended replaces Sb. -/
def issAlui (_ : TEnv) (w : TileWord) (t : Tile) : TIss :=
  match w.args with
  | .i d a fn imm => .go (retire (wrS t d.toNat (aluFn fn.toNat (rdS t a.toNat) (imm.signExtend 64))))
  | _ => .go t

/-- R143: MOVI. -/
def issMovi (_ : TEnv) (w : TileWord) (t : Tile) : TIss :=
  match w.args with
  | .i d _ _ imm => .go (retire (wrS t d.toNat (imm.signExtend 64)))
  | _ => .go t

/-- R143: MOVHI keeps Sd[31:0]. -/
def issMovhi (_ : TEnv) (w : TileWord) (t : Tile) : TIss :=
  match w.args with
  | .i d _ _ imm => .go (retire (wrS t d.toNat (imm ++ lo32 (rdS t d.toNat))))
  | _ => .go t

/-- R142: CMP. -/
def issCmp (_ : TEnv) (w : TileWord) (t : Tile) : TIss :=
  match w.args with
  | .g d a b _ fn => .go (retire (wrP t d.toNat (cmpFn fn.toNat (rdS t a.toNat) (rdS t b.toNat))))
  | _ => .go t

/-- R142: CMPI. -/
def issCmpi (_ : TEnv) (w : TileWord) (t : Tile) : TIss :=
  match w.args with
  | .i d a fn imm => .go (retire (wrP t d.toNat (cmpFn fn.toNat (rdS t a.toNat) (imm.signExtend 64))))
  | _ => .go t

/-- R142: PLOG. -/
def issPlog (_ : TEnv) (w : TileWord) (t : Tile) : TIss :=
  match w.args with
  | .g d a b _ fn => .go (retire (wrP t d.toNat (plogFn fn.toNat (rdP t a.toNat) (rdP t b.toNat))))
  | _ => .go t

/-- R142: FPU. -/
def issFpu (_ : TEnv) (w : TileWord) (t : Tile) : TIss :=
  match w.args with
  | .g d a b c fn =>
    .go (retire (wrS t d.toNat (fpuFn fn.toNat (rdS t a.toNat) (rdS t b.toNat) (rdS t c.toNat))))
  | _ => .go t

/-- R142: FCMP. -/
def issFcmp (_ : TEnv) (w : TileWord) (t : Tile) : TIss :=
  match w.args with
  | .g d a b _ fn => .go (retire (wrP t d.toNat (fcmpFn fn.toNat (rdS t a.toNat) (rdS t b.toNat))))
  | _ => .go t

/-- R143: AMOV. -/
def issAmov (_ : TEnv) (w : TileWord) (t : Tile) : TIss :=
  match w.args with
  | .g d a _ _ _ => .go (retire (wrA t d.toNat (rdS t a.toNat)))
  | _ => .go t

/-- R143: ADDA adds to the whole 64-bit value. -/
def issAdda (_ : TEnv) (w : TileWord) (t : Tile) : TIss :=
  match w.args with
  | .i d a _ imm => .go (retire (wrA t d.toNat (rdA t a.toNat + imm.signExtend 64)))
  | _ => .go t

/-- R143: MOVA. -/
def issMova (_ : TEnv) (w : TileWord) (t : Tile) : TIss :=
  match w.args with
  | .g d a _ _ _ => .go (retire (wrS t d.toNat (rdA t a.toNat)))
  | _ => .go t

/-- R127, R144: the offset BASE + IMM of a scratchpad access, if it lies wholly in the scratchpad; else the offending
value, which R163 gives as "offending offset, or instruction word": the whole pointer when it is malformed, else the offset; SPOFF for
a DMA element and the word for matrix operands (DESIGN CHOICE, log entry 72). -/
def spOffset (x : B64) (imm : BitVec 32) (n : Nat) : Except Nat Nat :=
  match spPtr x with
  | none => .error x.toNat
  | some p =>
    let o : Int := p.1 + imm.toInt
    if o < 0 ∨ (spSize : Int) < o + n then .error (BitVec.ofInt 64 o).toNat else .ok o.toNat

/-- R144: sizes of LD and ST. -/
def ldSize (fn : Nat) : Nat := 2 ^ (fn % 4)

/-- R144: LD's value: sign-extended when FN[2] = 1. -/
def ldValue (fn : Nat) (bytes : List Byte) : B64 :=
  let v := leNat bytes
  let n := 8 * ldSize fn
  if fn / 4 % 2 = 1 then (BitVec.ofNat n v).signExtend 64 else BitVec.ofNat 64 v

/-- R144: LD. -/
def issLd (_ : TEnv) (w : TileWord) (t : Tile) : TIss :=
  match w.args with
  | .i d a fn imm =>
    match spOffset (rdA t a.toNat) imm (ldSize fn.toNat) with
    | .error v => .fault .operandRange v
    | .ok o =>
      if lineHeld t [(o, ldSize fn.toNat)] [] then .wait 3
      else .go (retire (wrS t d.toNat (ldValue fn.toNat (spBytes t o (ldSize fn.toNat)))))
  | _ => .go t

/-- R144: ST writes the low bytes of Sd. -/
def issSt (_ : TEnv) (w : TileWord) (t : Tile) : TIss :=
  match w.args with
  | .i d a fn imm =>
    match spOffset (rdA t a.toNat) imm (ldSize fn.toNat) with
    | .error v => .fault .operandRange v
    | .ok o =>
      if lineHeld t [] [(o, ldSize fn.toNat)] then .wait 3
      else .go (retire (spPut t o (leBytes (ldSize fn.toNat) (rdS t d.toNat).toNat)))
  | _ => .go t

/-- R134: queue a vector-engine instruction: one executing and three waiting. -/
def queueVec (t : Tile) (o : VecOp) : TIss :=
  if lineHeld t o.reads o.wrs then .wait 3
  else if 4 ≤ t.vecQ.length then .wait 7
  else
    .go (retire { t with vecQ := t.vecQ ++ [{ o with seq := t.retired, pc := t.pc }] })

/-- A vector instruction that writes one vector register. -/
def vecV (d : Nat) (x : BitVec 4096) (cycles : Nat) : VecOp := ⟨[], [(d, x)], [], 0, 0, cycles, [], [], 0, 0⟩

/-- R145: VALU. -/
def issValu (_ : TEnv) (w : TileWord) (t : Tile) : TIss :=
  match w.args with
  | .g d a b c fn =>
    queueVec t (vecV d.toNat (valuFn fn.toNat (rdV t a.toNat) (rdV t b.toNat) (rdV t c.toNat)) 1)
  | _ => .go t

/-- R145: VALUS: Sb[31:0] in every lane, rounded to BF16 for BF16 lanes. -/
def issValus (_ : TEnv) (w : TileWord) (t : Tile) : TIss :=
  match w.args with
  | .g d a b c fn =>
    let x := lo32 (rdS t b.toNat)
    let vb := if fn.toNat % 2 = 0 then of32 (List.replicate 128 x) else of16 (List.replicate 256 (cvt32Bf x))
    queueVec t (vecV d.toNat (valuFn fn.toNat (rdV t a.toNat) vb (rdV t c.toNat)) 1)
  | _ => .go t

/-- R146: VSFU. -/
def issVsfu (_ : TEnv) (w : TileWord) (t : Tile) : TIss :=
  match w.args with
  | .g d a _ _ fn => queueVec t (vecV d.toNat (of32 ((lanes32 (rdV t a.toNat)).map (sfuf fn.toNat))) 4)
  | _ => .go t

/-- R146: VRED. -/
def issVred (_ : TEnv) (w : TileWord) (t : Tile) : TIss :=
  match w.args with
  | .g d a _ _ fn =>
    queueVec t ⟨[(d.toNat, (vredFn fn.toNat (rdV t a.toNat)).setWidth 64, true)], [], [], 0, 0, 1, [], [], 0, 0⟩
  | _ => .go t

/-- R147: VCVT. A pair that would end in V64 faults. -/
def issVcvt (e : TEnv) (w : TileWord) (t : Tile) : TIss :=
  match w.args with
  | .g d a _ _ fn =>
    if fn.toNat % 2 = 0 then
      if a.toNat = 63 then .fault .operandRange e.word.toNat
      else queueVec t (vecV d.toNat (vcvtDown fn.toNat (rdV t a.toNat) (rdV t (a.toNat + 1))) 2)
    else if d.toNat = 63 then .fault .operandRange e.word.toNat
    else
      let r := vcvtUp fn.toNat (rdV t a.toNat)
      queueVec t ⟨[], [(d.toNat, r.1), (d.toNat + 1, r.2)], [], 0, 0, 2, [], [], 0, 0⟩
  | _ => .go t

/-- R146: VBCAST. -/
def issVbcast (_ : TEnv) (w : TileWord) (t : Tile) : TIss :=
  match w.args with
  | .g d a _ _ fn => queueVec t (vecV d.toNat (vbcastFn fn.toNat (rdS t a.toNat)) 1)
  | _ => .go t

/-- R148: the offset of VLD and VST. -/
def vecOffset (x : B64) (imm : BitVec 32) : Except (TCause × Nat) Nat :=
  match spPtr x with
  | none => .error (.operandRange, x.toNat)
  | some p =>
    let o : Int := p.1 + imm.toInt
    if o % 64 ≠ 0 then .error (.operandAlign, (BitVec.ofInt 64 o).toNat)
    else if o < 0 ∨ (spSize : Int) < o + 512 then .error (.operandRange, (BitVec.ofInt 64 o).toNat)
    else .ok o.toNat

/-- R148: VLD. -/
def issVld (_ : TEnv) (w : TileWord) (t : Tile) : TIss :=
  match w.args with
  | .i d a _ imm =>
    match vecOffset (rdA t a.toNat) imm with
    | .error f => .fault f.1 f.2
    | .ok o =>
      if lineHeld t [(o, 512)] [] then .wait 3
      else queueVec t ⟨[], [(d.toNat, ofBytes (spBytes t o 512))], [], 0, 0, 2, [(o, 512)], [], 0, 0⟩
  | _ => .go t

/-- R148: VST. -/
def issVst (_ : TEnv) (w : TileWord) (t : Tile) : TIss :=
  match w.args with
  | .i d a _ imm =>
    match vecOffset (rdA t a.toNat) imm with
    | .error f => .fault f.1 f.2
    | .ok o => queueVec t ⟨[], [], [(o, vBytes (rdV t d.toNat))], 0, 0, 2, [], [(o, 512)], 0, 0⟩
  | _ => .go t

/-- R149: may VDQ read the format, and may VQNT write it? -/
def vdqFmt : Fmt → Bool
  | .mxfp4 | .f3lb | .t2 | .e4m3 | .e5m2 | .mxe4m3 | .mxe5m2 | .mxe2m3 | .mxe3m2 | .mxint8 => true
  | _ => false
/-- R149: the formats that VQNT produces. -/
def vqntFmt : Fmt → Bool
  | .mxfp4 | .f3lb | .e4m3 | .e5m2 | .mxe4m3 | .mxe5m2 => true
  | _ => false

/-- R149: the element and scale ranges of VDQ and VQNT and the advanced pointers, or the fault. Bytes past 0x17_FFFF fault
OPERAND_RANGE, for which neither R149 nor R163 gives a fault (DESIGN CHOICE, log entry 71). -/
def vqPtrs (e : TEnv) (t : Tile) (a b : BitVec 6) (fn : Nat) (okF : Fmt → Bool) :
    Except (TCause × Nat) (Fmt × Nat × SpRange × SpRange) :=
  let n := if fn / 16 % 2 = 0 then 128 else 256
  match fmtOfCode (fn % 16) with
  | none => .error (.operandFormat, e.word.toNat)
  | some f =>
    if !okF f then .error (.operandFormat, e.word.toNat)
    else
      match spPtr (rdA t a.toNat), if fmtScaled f then spPtr (rdA t b.toNat) else some (0, 0) with
      | some p, some q =>
        let eb := fmtElemBytes f n
        let sb := if fmtScaled f then n / 32 else 0
        if spSize < p.1 + eb then .error (.operandRange, p.1)
        else if spSize < q.1 + sb then .error (.operandRange, q.1)
        else .ok (f, n, (p.1, eb), (q.1, sb))
      | _, _ => .error (.operandRange, e.word.toNat)

/-- Advance the element pointer, and the scale pointer of a format with separate scales (R149). -/
def vqAdvance (t : Tile) (a b : BitVec 6) (er sr : SpRange) : Tile :=
  let t := wrA t a.toNat (rdA t a.toNat + BitVec.ofNat 64 er.2)
  if sr.2 = 0 then t else wrA t b.toNat (rdA t b.toNat + BitVec.ofNat 64 sr.2)

/-- R149: VDQ. -/
def issVdq (e : TEnv) (w : TileWord) (t : Tile) : TIss :=
  match w.args with
  | .g d a b _ fn =>
    match vqPtrs e t a b fn.toNat vdqFmt with
    | .error f => .fault f.1 f.2
    | .ok (f, n, er, sr) =>
      if lineHeld t [er, sr] [] then .wait 3
      else
        let vals := ((fmtGroups f n (spBytes t er.1 er.2) (spBytes t sr.1 sr.2)).map grpVals).flatten
        let v := if n = 128 then of32 (vals.map (enc32 (seed2 14 0 0))) else of16 (vals.map (encBf (seed2 14 0 0)))
        match queueVec t ⟨[], [(d.toNat, v)], [], 0, 0, 1, [er, sr], [], 0, 0⟩ with
        | .go t => .go (vqAdvance t a b er sr)
        | r => r
  | _ => .go t

/-- R150: VQNT. The LFSR steps at issue (R65). -/
def issVqnt (e : TEnv) (w : TileWord) (t : Tile) : TIss :=
  match w.args with
  | .g d a b _ fn =>
    match vqPtrs e t a b fn.toNat vqntFmt with
    | .error f => .fault f.1 f.2
    | .ok (f, n, er, sr) =>
      let x := rdV t d.toNat
      let xs := if n = 128 then lanes32 x else (lanes16 x).map cvtBf32
      let q := quantRun f (pcStoch t.prec) (pcCeil t.prec) xs ⟨t.lfsr, 0, 0⟩
      match queueVec t ⟨[], [], [(er.1, q.1), (sr.1, q.2.1)], q.2.2.sat, q.2.2.nanz, if n = 128 then 1 else 2, [],
        [er, sr], 0, 0⟩ with
      | .go t => .go (vqAdvance { t with lfsr := q.2.2.lfsr } a b er sr)
      | r => r
  | _ => .go t

/-- R154: SMXU. -/
def issSmxu (e : TEnv) (w : TileWord) (t : Tile) : TIss :=
  match w.args with
  | .g d a b _ _ =>
    let i := b.toNat
    if i < 1 ∨ 29 < i then .fault .operandRange e.word.toNat
    else
      let r := smxuFn (rdV t a.toNat) (lo32 (rdS t i)) (lo32 (rdS t (i + 1)))
      queueVec t ⟨[(i, r.2.1.setWidth 64, true), (i + 1, r.2.2.1.setWidth 64, true), (i + 2, r.2.2.2.setWidth 64, true)],
        [(d.toNat, r.1)], [], 0, 0, 8, [], [], 0, 0⟩
  | _ => .go t

/-- R155: SMXM. -/
def issSmxm (e : TEnv) (w : TileWord) (t : Tile) : TIss :=
  match w.args with
  | .g d a b _ _ =>
    let x := a.toNat
    let y := b.toNat
    let z := d.toNat
    if x < 1 ∨ 30 < x ∨ y < 1 ∨ 30 < y ∨ z < 1 ∨ 28 < z then .fault .operandRange e.word.toNat
    else
      let r := smxmFn (lo32 (rdS t x)) (lo32 (rdS t (x + 1))) (lo32 (rdS t y)) (lo32 (rdS t (y + 1)))
      queueVec t ⟨[(z, r.1.setWidth 64, true), (z + 1, r.2.1.setWidth 64, true), (z + 2, r.2.2.1.setWidth 64, true),
        (z + 3, r.2.2.2.setWidth 64, true)], [], [], 0, 0, 2, [], [], 0, 0⟩
  | _ => .go t

/-! ### Matrix instructions -/

/-- R92, R127: a matrix pointer: base and stride, both multiples of 64. -/
def matPtr (e : TEnv) (x : B64) : Except (TCause × Nat) (Nat × Nat) :=
  match spPtr x with
  | none => .error (.operandRange, e.word.toNat)
  | some p =>
    if p.1 % 64 ≠ 0 then .error (.operandAlign, p.1)
    else if p.2 % 64 ≠ 0 then .error (.operandAlign, p.2)
    else .ok p

/-- The ranges of `n` rows of `len` bytes. -/
def rowRanges (p : Nat × Nat) (n len : Nat) : List SpRange := (List.range n).map fun i => (p.1 + i * p.2, len)

/-- Do all ranges lie in the scratchpad? -/
def rangesIn (l : List SpRange) : Bool := l.all fun r => r.1 + r.2 ≤ spSize

/-- R75, R105: a sampled block of ESCALATE mode whose rows overlap and whose result is not yet decided. -/
def cremaHolds (t : Tile) (row0 m : Nat) : Bool :=
  pcMode t.prec == 2 && t.crema.any fun c => c.row0 < row0 + m && row0 < c.row0 + c.m

/-- BF16 rows in the scratchpad. -/
def bfRows (t : Tile) (p : Nat × Nat) (m k : Nat) : List (List B16) :=
  (List.range m).map fun i =>
    (chunks 2 k (spBytes t (p.1 + i * p.2) (2 * k))).map fun b => BitVec.ofNat 16 (leNat b)

/-- A matrix operation ready to queue: the operation, what the Crema lane captures, the LFSR after it, and whether the
block is a candidate that is skipped (R68). -/
structure MatIss where
  op : MatOp
  sample : Option CSample
  lfsr : B32
  skipped : Bool

/-- R98, R100, R133, R151: issue MMUL (`q` false) or QMMUL. -/
def issMat (q : Bool) (e : TEnv) (w : TileWord) (t : Tile) : Issue MatIss :=
  match w.args with
  | .m aact awgt ashd row0 mRows ksteps accF wfmt afmt shdEn =>
    let m := 16 * (mRows.toNat + 1)
    let r0 := 16 * row0.toNat
    let ks := ksteps.toNat + 1
    match fmtOfCode wfmt.toNat, fmtOfCode afmt.toNat with
    | some wf, some af =>
      let target := !q || af = .mxfp4 || af = .mxe4m3 || af = .mxe5m2
      match pairCost wf af with
      | none => .fault .operandFormat e.word.toNat
      | some c0 =>
        if !target || (!q && af = .bf16 && shdEn) then .fault .operandFormat e.word.toNat
        else if 256 < r0 + m then .fault .operandRange e.word.toNat
        else
          let k := ks * kstepOf wf
          match matPtr e (rdA t aact.toNat), matPtr e (rdA t awgt.toNat),
              (if shdEn then matPtr e (rdA t ashd.toNat) else .ok (0, 0)) with
          | .error f, _, _ => .fault f.1 f.2
          | _, .error f, _ => .fault f.1 f.2
          | _, _, .error f => .fault f.1 f.2
          | .ok pa, .ok pw, .ok ps =>
            let actR := rowRanges pa m (if q then 2 * k else rowBytes af k)
            let wgtR := rowRanges pw ks (panelBytes wf)
            let shdR := if shdEn then rowRanges ps m (if q then rowBytes af k else 2 * k) else []
            if !(rangesIn actR && rangesIn wgtR && rangesIn shdR) then .fault .operandRange e.word.toNat
            else
              let rds := actR ++ wgtR ++ (if q then [] else shdR)
              let wrs := if q then shdR else []
              let both := (isFp8 wf && isFp8 af) || (wf = .bf16 && af = .bf16)
              let cand := candidate t.prec t.bursts t.blk && !both
              let sampled := cand && (q || shdEn)
              if lineHeld t rds wrs then .wait 3
              else if cremaHolds t r0 m || (sampled && 2 ≤ t.crema.length)
                  || t.crema.any (fun s => s.blk + 65 ≤ t.blk && !s.excursion) then .wait 4
              else if 2 ≤ t.matQ.length || t.matQ.any (fun o => o.drill ≠ .none) then .wait 5
              else
                let c := if q then max c0 (kstepOf wf * 2 / 256) else c0
                let ref := if q then bfRows t pa m k else if sampled then bfRows t ps m k else []
                let qa := if q then quantActs af (pcStoch t.prec) (pcCeil t.prec) (kstepOf wf) ref ⟨t.lfsr, 0, 0⟩
                  else ((List.range m).map fun i => actRow t af (pa.1 + i * pa.2) k, [], ⟨t.lfsr, 0, 0⟩)
                let cols := (List.range 160).map fun n => wgtCol t wf pw.1 pw.2 ks n
                let view := accView t
                let prior (i : Nat) : B32 := if accF then smLook 0 view i else 0
                let copy := if q && shdEn then qa.2.1.mapIdx fun i b => (ps.1 + i * ps.2, b) else []
                let op : MatOp := ⟨t.retired, r0, m, mmRows prior r0 qa.1 cols,
                  (List.range (ks - 1)).map fun i => mmRows prior r0
                    (qa.1.map (·.take ((i + 1) * (kstepOf wf / 8)))) cols, copy, qa.2.2.sat, qa.2.2.nanz,
                  pairMacs wf m ks, ks * (m * c),
                  ks * (loadCycles wf - m * c) + (if t.matQ.isEmpty then loadCycles wf else 0), rds, wrs, t.blk, .none,
                  t.pc, loadCycles wf, t.matQ.isEmpty, 0, (0, 0, 0)⟩
                let smp : CSample := ⟨t.blk, r0, m, accF, ref, qa.1, cols,
                  if pcMode t.prec = 2 && accF then (List.range (m * 160)).map fun i => smLook 0 view (accIx r0 0 + i)
                  else [], false, (0, 0)⟩
                .go ⟨op, if sampled then some smp else none, qa.2.2.lfsr, cand && !sampled⟩
    | _, _ => .fault .operandFormat e.word.toNat
  | _ => .wait 0

/-- Queue a matrix operation and its sample. -/
def queueMat (t : Tile) (x : MatIss) (d : Drill) : Tile :=
  retire { t with
    matQ := t.matQ ++ [{ x.op with drill := d }]
    crema := match x.sample with | some c => t.crema ++ [c] | none => t.crema
    lfsr := x.lfsr
    blk := t.blk + 1 }

/-- R106, R151: ACCRD. An F3-LB output is padded with zeros to a multiple of 64 bytes (R52). -/
def issAccrd (e : TEnv) (w : TileWord) (t : Tile) : TIss :=
  match w.args with
  | .m aact _ _ row0 mRows _ _ ofmt _ _ =>
    let m := 16 * (mRows.toNat + 1)
    let r0 := 16 * row0.toNat
    match fmtOfCode ofmt.toNat with
    | none => .fault .operandFormat e.word.toNat
    | some f =>
      if !outFmt f then .fault .operandFormat e.word.toNat
      else if 256 < r0 + m then .fault .operandRange e.word.toNat
      else
        match matPtr e (rdA t aact.toNat) with
        | .error x => .fault x.1 x.2
        | .ok p =>
          if f = .f3lb ∧ (m % 128 ≠ 0 ∨ p.2 ≠ 0) then .fault .operandRange e.word.toNat
          else
            let len := 160 * 55 * (m / 128)
            let pad := (64 - len % 64) % 64
            let wrs := if f = .f3lb then [(p.1, len + pad)] else rowRanges p m (outRowBytes f)
            if !rangesIn wrs then .fault .operandRange e.word.toNat
            else if lineHeld t [] wrs then .wait 3
            else if cremaHolds t r0 m then .wait 4
            else if 2 ≤ t.rdQ.length then .wait 6
            else
              let view := accView t
              let rows := (List.range m).map fun r => (List.range 160).map fun n => smLook 0 view (accIx (r0 + r) n)
              let st : QSt := ⟨t.lfsr, 0, 0⟩
              let res : List (Nat × List Byte) × QSt :=
                if f = .f3lb then
                  let x := readF3 (pcStoch t.prec) (pcCeil t.prec) rows st
                  ([(p.1, x.1 ++ List.replicate pad 0)], x.2)
                else
                  let x := readRows f (pcStoch t.prec) (pcCeil t.prec) rows st
                  (x.1.mapIdx fun i b => (p.1 + i * p.2, b), x.2)
              .go (retire { t with
                rdQ := t.rdQ ++ [⟨t.retired, r0, m, res.1, res.2.sat, res.2.nanz, wrs, t.pc⟩]
                lfsr := res.2.lfsr })
  | _ => .go t

end Sys2Proof.Machine
end

