-- ==== Sys2Proof/Machine/TileMem.lean ====
section
/-! DEFINITION. Machine/TileMem.lean: the tile instructions that reach outside the tile (DMA R152, ATOM R156, ACQ R157,
WAITD R159, SIGNAL R160, WAITS R161, WAITF R162), and the requests of a DMA transfer (R153). -/

namespace Sys2Proof.Machine

/-- Issuing an instruction of tile `t` on the module. -/
abbrev SIss := Issue State

/-- An instruction that acts on one tile only. -/
def liftTile (f : TEnv → TileWord → Tile → TIss) (t : Nat) (e : TEnv) (w : TileWord) (s : State) : SIss :=
  match f e w (getT t s) with
  | .fault c i => .fault c i
  | .late c i x => .late c i (setT t x s)
  | .wait k => .wait k
  | .go x => .go (setT t x s)

/-- A signed 32-bit field. -/
def dSigned (l : List Byte) (o : Nat) : Int := (BitVec.ofNat 32 (dField l o 4)).toInt

/-- R153: the descriptor in 64 bytes, or none when a must-be-zero bit is set. -/
def dmaDesc (l : List Byte) : Option DmaDesc :=
  if dField l 8 4 / 2 ^ 21 ≠ 0 ∨ dField l 12 2 / 4096 ≠ 0 ∨ dField l 14 2 ≠ 0 ∨ dField l 22 2 ≠ 0 ∨ dField l 48 16 ≠ 0 then
    none
  else
    some ⟨dField l 0 8, dField l 8 4, dField l 12 2 + 1, dField l 16 2 + 1, dField l 18 2 + 1, dField l 20 2 + 1,
      dSigned l 24, dSigned l 28, dSigned l 32, dSigned l 36, dSigned l 40, dSigned l 44⟩

/-- R153: do all elements lie in the scratchpad? -/
def dmaInRange (d : DmaDesc) : Bool :=
  let lo (n : Nat) (x : Int) : Int := min 0 ((n - 1 : Int) * x)
  let hi (n : Nat) (x : Int) : Int := max 0 ((n - 1 : Int) * x)
  0 ≤ (d.spoff : Int) + lo d.n0 d.s0 + lo d.n1 d.s1 + lo d.n2 d.s2 &&
  (d.spoff : Int) + hi d.n0 d.s0 + hi d.n1 d.s1 + hi d.n2 d.s2 + d.esize ≤ spSize

/-- R153: the number of elements. -/
def dmaCount (d : DmaDesc) : Nat := d.n0 * d.n1 * d.n2

/-- R153: element `i`, i0 varying fastest: its global address and scratchpad offset. -/
def dmaElem (d : DmaDesc) (i : Nat) : Nat × Nat :=
  let i0 : Int := (i % d.n0 : Nat)
  let i1 : Int := (i / d.n0 % d.n1 : Nat)
  let i2 : Int := (i / d.n0 / d.n1 : Nat)
  ((BitVec.ofInt 64 ((d.gaddr : Int) + i0 * d.g0 + i1 * d.g1 + i2 * d.g2)).toNat,
   ((d.spoff : Int) + i0 * d.s0 + i1 * d.s1 + i2 * d.s2).toNat)

/-- The groups with a transfer queued or in flight. -/
def groupBusy (t : Tile) (mask : Nat) : Bool := t.xfers.any fun x => mask.testBit x.group

/-- R152, R153: DMA. -/
def issDma (t : Nat) (e : TEnv) (w : TileWord) (s : State) : SIss :=
  match w.args with
  | .i _ a fn imm =>
    let x := getT t s
    match spPtr (rdA x a.toNat) with
    | none => .fault .operandRange e.word.toNat
    | some p =>
      let o : Int := p.1 + imm.toInt
      if o < 0 then .fault .operandRange (BitVec.ofInt 64 o).toNat
      else if o.toNat % 64 ≠ 0 then .fault .operandAlign o.toNat
      else if spSize < o.toNat + 64 then .fault .operandRange o.toNat
      else if lineHeld x [(o.toNat, 64)] [] then .wait 3
      else if 16 ≤ x.xfers.length then .wait 8
      else match spRead t o.toNat 64 s with
        | (.error bad, s) => .late .dataUncorrectable (ownGlobal (spGlobal t (32 * bad)) s) s
        | (.ok l, s) =>
          match dmaDesc l with
          | none => .late .dmaDescInvalid o.toNat s
          | some d =>
            if !dmaInRange d then .late .operandRange d.spoff s
            else
              let f := fn.toNat
              .go (modT t (fun x => retire { x with
                xfers := x.xfers ++ [⟨x.nextXfer, f % 8, (f / 8 % 2 = 1), (f / 16 % 2 = 1), (f / 32 % 2 = 1), d, x.pc, 0, 0, 0,
                  false, [], []⟩]
                nextXfer := x.nextXfer + 1 }) s)
  | _ => .wait 0

/-- R156: ATOM: the checks in the order of the rule, then the request. -/
def issAtom (t : Nat) (_ : TEnv) (w : TileWord) (s : State) : SIss :=
  match w.args with
  | .g d a b c fn =>
    let x := getT t s
    let f := fn.toNat
    let g := (rdA x a.toNat).toNat
    let wide := f / 8 % 2 = 1
    let n := if wide then 8 else 4
    if g / 2 ^ 55 ≠ 0 then .fault .accessRefused g
    else if gChip g ≠ ownChip s then .fault .atomicRemote g
    else if hbmEnd ≤ gOff g ∨ !hbmBacked (gOff g) n s ∨ gOff g % n ≠ 0 then .fault .atomicTarget g
    else if !winOk x.part (gOff g) n true true s then .fault .accessRefused g
    else if 8 ≤ x.atoms.length then .wait 10
    else
      let r := makeReq (.atom t) (.atomic (f % 8) wide (f / 16 % 2 = 1) (rdS x b.toNat) (rdS x c.toNat)) g n true false
        x.part s
      let x := getT t r.2
      let rd := if f % 8 = 0 ∨ d.toNat = 0 then none else some d.toNat
      .go (setT t (retire { x with atoms := x.atoms ++ [⟨r.1, rd, true, x.pc, x.retired⟩] }) r.2)
  | _ => .wait 0

/-- R157, R158: ACQ on the cache of the tile's die. Bits [63:55] of Aa are not looked at in scope 2 (DESIGN CHOICE, log entry 73). -/
def issAcq (t : Nat) (_ : TEnv) (w : TileWord) (s : State) : SIss :=
  match w.args with
  | .g _ a b c fn =>
    let x := getT t s
    let addr := (rdA x a.toNat).toNat % 2 ^ 55
    let len := (rdS x c.toNat).toNat
    if fn.toNat = 2 ∧ 2 ^ 40 < gOff addr + len then .fault .operandRange (rdA x a.toNat).toNat
    else
      .go (modT t retire (acquire (tileDie t) fn.toNat ((rdS x b.toNat).toNat % 32768) addr len s))
  | _ => .wait 0

/-- R159: WAITD. -/
def issWaitd (t : Nat) (_ : TEnv) (w : TileWord) (s : State) : SIss :=
  match w.args with
  | .i _ _ _ imm => if groupBusy (getT t s) (imm.toNat % 256) then .wait 11 else .go (modT t retire s)
  | _ => .wait 0

/-- R160: SIGNAL queues an increment behind the transfers of the masked groups issued so far. -/
def issSignal (t : Nat) (_ : TEnv) (w : TileWord) (s : State) : SIss :=
  match w.args with
  | .i _ _ _ imm =>
    let x := getT t s
    if 4 ≤ x.sigQ.length then .wait 9
    else
      let mask := imm.toNat / 256 % 256
      .go (setT t (retire { x with
        sigQ := x.sigQ ++ [⟨imm.toNat % 16, (x.xfers.filter fun y => mask.testBit y.group).map (·.id)⟩] }) s)
  | _ => .wait 0

/-- A signal counter of a tile's kernel. -/
def signalCtr (t ctr : Nat) (s : State) : Nat :=
  match (getT t s).kern.bind (getK · s) with
  | some k => smLook 0 k.ctrs ctr
  | none => 0

/-- R161: WAITS. -/
def issWaits (t : Nat) (_ : TEnv) (w : TileWord) (s : State) : SIss :=
  match w.args with
  | .g _ a _ _ fn =>
    if (rdS (getT t s) a.toNat).toNat % 2 ^ 32 ≤ signalCtr t (fn.toNat % 16) s then .go (modT t retire s) else .wait 12
  | _ => .wait 0

/-- Make the FRESH read of a WAITF poll. -/
def pollWaitf (t : Nat) (f : WaitF) (s : State) : State :=
  let r := makeReq (.waitf t) .read f.addr 8 true false (getT t s).part s
  timerSet .pollFlag t (modT t (fun x => { x with waitf := some { f with req := some r.1 } }) r.2)

/-- R162: WAITF: its checks, and its first poll. It issues when a poll satisfies it. -/
def issWaitf (t : Nat) (_ : TEnv) (w : TileWord) (s : State) : SIss :=
  match w.args with
  | .g _ a b c fn =>
    let x := getT t s
    let g := (rdA x a.toNat).toNat
    if x.waitf.isSome then .wait 13
    else if g % 8 ≠ 0 then .fault .operandAlign g
    else if !addrOk x.part g 8 false s then .fault .accessRefused g
    else .go (pollWaitf t ⟨g, rdS x b.toNat, rdS x c.toNat, fn.toNat, none⟩ s)
  | _ => .wait 0

/-! ### Transfers -/

/-- R111: the chip and, on this module, the stack that a transfer goes to: those of GADDR, its element 0, also when its elements lie on
several (DESIGN CHOICE, log entry 70). -/
def xferTo (x : DmaXfer) (s : State) : Nat × Nat :=
  (gChip x.desc.gaddr, if gChip x.desc.gaddr = ownChip s ∧ gOff x.desc.gaddr < hbmEnd then stackOf (gOff x.desc.gaddr) s else 0)

/-- R111: the transfers that stay: those with work left, and those behind one of them to the same place. -/
def dmaKeep (s : State) : List (Nat × Nat) → List DmaXfer → List DmaXfer
  | _, [] => []
  | busy, x :: l =>
    if x.sent ∧ x.out = 0 ∧ !busy.contains (xferTo x s) then dmaKeep s busy l
    else x :: dmaKeep s (xferTo x s :: busy) l

/-- Complete the transfers of a tile that are complete. -/
def dmaRetire (t : Nat) (s : State) : State := modT t (fun x => { x with xfers := dmaKeep s [] x.xfers }) s

/-- The next piece of a transfer, within one element and one 512-byte block: global address, scratchpad offset, length. -/
def dmaPiece (x : DmaXfer) : Nat × Nat × Nat :=
  let e := dmaElem x.desc x.elem
  let g := (e.1 + x.byte) % 2 ^ 64
  (g, e.2 + x.byte, min (512 - g % 512) (x.desc.esize - x.byte))

/-- The transfer after its next piece. -/
def dmaStep (x : DmaXfer) (n : Nat) : DmaXfer :=
  let nextElem := x.byte + n = x.desc.esize
  let elem := if nextElem then x.elem + 1 else x.elem
  { x with elem := elem, byte := if nextElem then 0 else x.byte + n, out := x.out + 1, sent := elem = dmaCount x.desc }

/-- R111: may the transfer make a request: every transfer before it has started. -/
def dmaStarted (t : Tile) (id : Nat) : Bool :=
  (t.xfers.takeWhile fun x => x.id ≠ id).all fun x => x.sent || x.elem ≠ 0 || x.byte ≠ 0

/-- R109: read requests that the tile's DMA engine has outstanding. -/
def dmaOut (t : Tile) : Nat := (t.xfers.filter (!·.write)).foldl (fun n x => n + x.out) 0

end Sys2Proof.Machine
end

