-- ==== Sys2Proof/Machine/TileSeq.lean ====
section
/-! DEFINITION. Machine/TileSeq.lean: what the sequencer runs for each instruction, matrix starts and drill spacing (R117 to
R121), and why the sequencer waits (R169). -/

namespace Sys2Proof.Machine

/-- R124: a start of the tile waits for admission. -/
def waveHeld (x : Tile) : Bool := x.matQ.any fun o => o.drill ≠ .none

/-- A Bool as a bit. -/
def bit (b : Bool) : Nat := if b then 1 else 0

/-- Change the counts of the kernel that a tile runs. -/
def kernelCount (t : Nat) (f : PrecCounts → PrecCounts) (s : State) : State :=
  match (getT t s).kern with
  | some k => modK k (fun x => { x with counts := f x.counts }) s
  | none => s

/-! ### What an instruction can see -/

/-- The word at the tile's PC in its instruction cache, or none when the block is not there (R129). -/
def fetchWord (x : Tile) : Option B64 :=
  (lookO x.icache (x.pc / 512)).map fun b => BitVec.ofNat 64 (leNat (sliceB b (x.pc % 512) 8))

/-- R140: what the instruction can read of the module. -/
def tileEnv (t : Nat) (k : Kernel) (w : B64) (s : State) : TEnv :=
  ⟨t, k.count, ownChip s, stampVal .arith s, smLook 0 s.cyc (tileDie t) / 100 - (getT t s).startCyc, k.arg, k.len, w⟩

/-! ### Matrix starts and drill spacing (R117 to R121) -/

/-- R117, R121: is a matrix operation issued now a start: the engine has made no step in the previous 512 cycles, and makes
none for an escalation? -/
def isStart (t : Nat) (s : State) : Bool :=
  let x := getT t s
  x.matQ.isEmpty && !(x.crema.any (·.excursion)) &&
  match x.lastStep with
  | none => true
  | some c => c + 512 ≤ smLook 0 s.cyc (tileDie t) / 100

/-- The arithmetic frequency of a die, in MHz. -/
def freqOf (d : Nat) (s : State) : Nat := (if d = 0 then s.clk0 else s.clk1).f

/-- R121: the cycles of WAVE_GAP at the frequency in effect: ceil(WAVE_GAP × f), f in MHz. -/
def waveGapCycles (f gap : Nat) : Nat := (gap * f + 999) / 1000

/-- R117, R119, R120: may the die admit one more start now? The list holds the cycles of recent admissions. -/
def drillRoom (d : Nat) (s : State) : Bool :=
  let now := smLook 0 s.cyc d / 100
  let gap := waveGapCycles (freqOf d s) (getF Reg.PWR_DRILL_CTL_WAVE_GAP s)
  ((smLook [] s.waves d).filter fun c => now < c + gap).length < getF Reg.PWR_DRILL_CTL_WAVE_SIZE s

/-- Note an admission, which starts the ramp (R118). The last 16 admissions are the most that WAVE_SIZE can count. -/
def drillAdmit (t : Nat) (s : State) : State :=
  let d := tileDie t
  let now := smLook 0 s.cyc d / 100
  let l := smLook [] s.waves d ++ [now]
  modT t (fun x => { x with
      matQ := x.matQ.map fun o => { o with drill := .none, begun := now }, ramp := 1, rampAt := now, rampLost := 0, lastStep := some now })
    { s with waves := smPut [] s.waves d (l.drop (l.length - 16)) }

/-- The fields HELD and BURSTS of a die. -/
def drillHeld (d : Nat) : Fld := fldNth Reg.PWR_DRILL_STAT_HELD d
/-- BURSTS of a die. -/
def drillBursts (d : Nat) : Fld := fldNth Reg.PWR_DRILL_STAT_BURSTS d

/-- A waiting start leaves the queue. -/
def drillLeave (d : Nat) (s : State) : State := setF (drillHeld d) (getF (drillHeld d) s - 1) s

/-- A start begins to wait: HELD rises, and BURSTS when HELD was 0. -/
def drillWait (d : Nat) (s : State) : State :=
  bump (drillHeld d) 1 (if getF (drillHeld d) s = 0 then bump (drillBursts d) 1 s else s)

/-- R119: the offset of the module, in units of 250 ns. -/
def drillOffset (s : State) : Nat := if getB Reg.PWR_DRILL_CTL_OFFSET_EN s then ownChip s % 16 else 0

/-- R97, R117: issue a matrix operation. A start waits out the offset and then admission; when neither holds it back it
is admitted at once. -/
def runMat (q : Bool) (t : Nat) (e : TEnv) (w : TileWord) (s : State) : SIss :=
  match issMat q e w (getT t s) with
  | .fault c i => .fault c i
  | .late c i _ => .late c i s
  | .wait k => .wait k
  | .go x =>
    let d := tileDie t
    let start := isStart t s
    let waits := start && (drillOffset s ≠ 0 || getF (drillHeld d) s ≠ 0 || !drillRoom d s)
    let now := smLook 0 s.cyc d / 100
    let dr := if !waits then Drill.none else if drillOffset s ≠ 0 then .offset now (s.tb + drillOffset s * 250) else .admission now
    let s := modT t (fun y => queueMat y { x with op := { x.op with begun := now } } dr) s
    let s := if x.skipped then kernelCount t (fun c => { c with skipped := c.skipped + 1 }) s else s
    let s := if waits then drillWait d s else if start then drillAdmit t s else s
    .go s

/-- What the sequencer runs for each instruction. -/
def opRun : TOp → Nat → TEnv → TileWord → State → SIss
  | .nop => liftTile issNop
  | .endOp => liftTile issEnd
  | .br => liftTile issBr
  | .mfsr => liftTile issMfsr
  | .lfsrld => liftTile issLfsrld
  | .alu => liftTile issAlu
  | .alui => liftTile issAlui
  | .movi => liftTile issMovi
  | .movhi => liftTile issMovhi
  | .cmp => liftTile issCmp
  | .cmpi => liftTile issCmpi
  | .plog => liftTile issPlog
  | .fpu => liftTile issFpu
  | .fcmp => liftTile issFcmp
  | .amov => liftTile issAmov
  | .adda => liftTile issAdda
  | .mova => liftTile issMova
  | .ld => liftTile issLd
  | .st => liftTile issSt
  | .valu => liftTile issValu
  | .valus => liftTile issValus
  | .vsfu => liftTile issVsfu
  | .vred => liftTile issVred
  | .vcvt => liftTile issVcvt
  | .vbcast => liftTile issVbcast
  | .vld => liftTile issVld
  | .vst => liftTile issVst
  | .vdq => liftTile issVdq
  | .vqnt => liftTile issVqnt
  | .accrd => liftTile issAccrd
  | .smxu => liftTile issSmxu
  | .smxm => liftTile issSmxm
  | .dma => issDma
  | .atom => issAtom
  | .acq => issAcq
  | .waitd => issWaitd
  | .signal => issSignal
  | .waits => issWaits
  | .waitf => issWaitf
  | .mmul => runMat false
  | .qmmul => runMat true

/-- R169: why the sequencer of a tile does not issue: the lowest reason that holds. A tile that stops or has stopped keeps the
reason of the instruction that it abandoned. -/
def seqWait (t : Nat) (s : State) : Nat :=
  let x := getT t s
  if x.stopping || x.mode = .halted then x.waitKind
  else if x.mode ≠ .running then 0
  else if x.draining then 14
  else if x.fetching.isSome then 1
  else if x.waitf.isSome then 13
  else
    match x.kern.bind (getK · s), fetchWord x with
    | some k, some w =>
      match tileSplit w with
      | some i =>
        if k.len ≤ x.pc || (tileWordFault w).isSome || !guardOn x i then 0
        else if operandHeld x i then 2
        else match opRun i.op t (tileEnv t k w s) i s with
          | .wait n => n
          | _ => 0
      | none => 0
    | _, _ => 0

end Sys2Proof.Machine
end

