-- ==== Sys2Proof/Machine/Kernel.lean ====
section
/-! DEFINITION. Machine/Kernel.lean: a tile's status registers (R84, R124, R168), stopping and faulting tiles (R163 to
R167), dumps (R465 to R468), precision reports (R82), and the end of a kernel. -/

namespace Sys2Proof.Machine

/-! ### The tile register slot -/

/-- The code of TILE_STATUS.STATE (R124, R159): WAITING while a WAITD, WAITS or WAITF waits. -/
def tileStateCode (t : Nat) (s : State) : Nat :=
  match (getT t s).mode with
  | .disabled => 0 | .idle => 1 | .clearing => 2 | .halted => 5
  | .running => if 11 ≤ seqWait t s ∧ seqWait t s ≤ 13 then 4 else 3

/-- TILE_SEQ_STAT (R168). -/
def tileSeqStat (t : Nat) (s : State) : Nat :=
  let x := getT t s
  seqWait t s + bit x.faulted * 16 + bit x.stopped * 32 + (if x.faulted then x.cause else 0) * 256 + x.p.toNat * 65536 +
  x.xfers.length * 2 ^ 24 + ((List.range 8).foldl (fun n g => n + bit (x.xfers.any (·.group = g)) * 2 ^ g) 0) * 2 ^ 32

/-- The registers of a tile slot that show live state of the tile; none for the stored ones. -/
def tileLive (t o : Nat) (s : State) : Option Nat :=
  let x := getT t s
  if o = 0x000 then
    some (tileStateCode t s + bit (waveHeld x) * 8 + x.ctx * 256 + x.logical * 2 ^ 32 + t * 2 ^ 48)
  else if o = 0x008 then some (x.ring + x.index * 2 ^ 32)
  else if o = 0x400 then some x.pc
  else if o = 0x408 then some (tileSeqStat t s)
  else if o = 0x410 then some x.faultPc
  else if o = 0x418 then some x.faultInfo.toNat
  else if o = 0x420 then some x.retired
  else if 0x480 ≤ o ∧ o < 0x500 then some (if x.mode = .halted then (rdA x ((o - 0x480) / 8)).toNat else 0)
  else if 0x500 ≤ o ∧ o < 0x600 then some (if x.mode = .halted then (rdS x ((o - 0x500) / 8)).toNat else 0)
  else if 0x400 ≤ o ∧ o < 0x600 then some 0
  else if o = 0x600 then some (if x.mode = .idle then 0 else x.prec.toNat)
  else if o = 0x608 then some x.lfsr.toNat
  else none

/-! ### Counting for the precision registers and the report -/

/-- R64, R82: add saturations and zeroed NaNs to a tile's registers and its kernel's counts. -/
def countSat (t quant out nanz : Nat) (s : State) : State :=
  let s := bump (tileF t Reg.TILE_PREC_SAT_QUANT) quant s
  let s := bump (tileF t Reg.TILE_PREC_SAT_OUT) out s
  let s := bump (tileF t Reg.TILE_PREC_NAN_ZEROED) nanz s
  kernelCount t (fun c => { c with satQuant := c.satQuant + quant, satOut := c.satOut + out, nanZ := c.nanZ + nanz }) s

/-- R82: the 32 bytes of a precision report. -/
def reportBytes (k : Kernel) : List Byte :=
  let c := k.counts
  let cap (n w : Nat) : Nat := min n (2 ^ w - 1)
  let overV := 2 ^ 32 ≤ c.samples || 2 ^ 32 ≤ c.excursions || 2 ^ 32 ≤ c.escalations || 2 ^ 32 ≤ c.satQuant ||
    2 ^ 32 ≤ c.satOut || 2 ^ 16 ≤ c.nanZ || 2 ^ 16 ≤ c.skipped
  let mode := pcMode k.prec
  leBytes 4 (cap c.samples 32) ++ leBytes 4 (cap c.excursions 32) ++ leBytes 4 (cap c.escalations 32) ++
  leBytes 4 c.maxErr.toNat ++ leBytes 4 (cap c.satQuant 32) ++ leBytes 4 (cap c.satOut 32) ++
  leBytes 2 (cap c.nanZ 16) ++ leBytes 2 (cap c.skipped 16) ++
  leBytes 4 (bit k.demoted + bit overV * 2 + mode * 4 + (if mode = 0 then 0 else pcK k.prec) * 16)

/-- R82: the completion's PREC_ALERT. -/
def precAlert (c : PrecCounts) : Bool := c.excursions ≠ 0 || c.satQuant ≠ 0 || c.satOut ≠ 0 || c.nanZ ≠ 0

/-! ### Stopping -/

/-- R105: does a read-out still wait for an earlier matrix operation on its rows? -/
def rdWaits (x : Tile) (o : RdOp) : Bool :=
  x.matQ.any fun q => q.seq < o.seq && q.row0 < o.row0 + o.m && o.row0 < q.row0 + q.m

/-- R164, R167: STOPPED is set on a tile that has not faulted, and by a timeout on one that faults in the same cycle. -/
def stopNote (stopped : Bool) (at_ : Option Nat) (x : Tile) : Tile :=
  { x with stopped := x.stopped || (stopped && (!x.faulted || at_ = some x.faultAt)) }

/-- R166: a tile begins to stop: it issues nothing more, and what has not started is discarded; `reason` is why the
sequencer waited. A tile that is being cleared for its kernel halts after the clear, and one that waits for the others' clears
at once. -/
def stopTile (stopped : Bool) (at_ : Option Nat) (reason : Nat) (x : Tile) : Tile :=
  if x.kern.isSome && x.mode = .clearing then { stopNote stopped at_ x with stopping := true, waitKind := 15 }
  else if x.kern.isSome && x.mode = .idle then { stopNote stopped at_ x with mode := .halted }
  else if x.mode ≠ .running then x
  else if x.stopping then stopNote stopped at_ x
  else
    { stopNote stopped at_ x with
      stopping := true, draining := false, waitKind := if reason = 0 then 15 else reason, waitf := none, fetching := none
      matQ := (x.matQ.take 1).filter fun o => o.drill = .none
      rdQ := (x.rdQ.take 1).filter fun o => !rdWaits x o
      vecQ := x.vecQ.take 1
      crema := []
      xfers := x.xfers.filter fun f => f.sent || f.elem ≠ 0 || f.byte ≠ 0
      sigQ := [] }

/-- A tile of the module begins to stop, for a timeout if `timeout`; a start of it that waits for admission leaves the queue
(R121). -/
def stopOn (t : Nat) (stopped timeout : Bool) (s : State) : State :=
  let x := getT t s
  setT t (stopTile stopped (if timeout then some s.tb else none) (seqWait t s) x) (if x.mode = .running && waveHeld x then drillLeave (tileDie t) s else s)

/-- R112: the kernel's tiles that are still its own and have not halted. -/
def liveTiles (k : Nat) (x : Kernel) (s : State) : List Nat :=
  x.tiles.filter fun t => (getT t s).kern = some k && (getT t s).mode ≠ .halted

/-- R164, R167: stop the tiles of a kernel with STOPPED = 1. -/
def stopKernel (k : Nat) (timeout : Bool) (s : State) : State :=
  match getK k s with
  | some x => x.tiles.foldl (fun s t => if (getT t s).kern = some k then stopOn t true timeout s else s) s
  | none => s

/-- R165, R167: a kernel takes note of a tile's fault: the first that reaches it, and among faults of one cycle that of the lowest
logical tile. A fault in the cycle of the timeout counts. -/
def noteFault (c logical pc info : Nat) (now : Nat) (y : Kernel) : Kernel :=
  let new := { y with fault := some (c, logical, pc, info), faultAt := now }
  match y.fault with
  | some f => if y.faultAt = now && logical < f.2.1 then new else y
  | none => if y.kvFault.isNone && (!y.timedOut || y.timedAt = now) then new else y

/-- R164, R165: tile `t` faults. The tile keeps its first cause. -/
def tileFault (t : Nat) (c : TCause) (pc info : Nat) (s : State) : State :=
  let x := getT t s
  if x.mode ≠ .running then s
  else if x.faulted then stopOn t false false s
  else
    let s := stopOn t false false (setT t { x with
      faulted := true, cause := tCauseCode c, faultPc := pc, faultInfo := BitVec.ofNat 64 info, faultAt := s.tb } s)
    match x.kern with
    | none => s
    | some k => stopKernel k false (modK k (noteFault (tCauseCode c) x.logical pc info s.tb) s)

/-! ### Dumps -/

/-- R467: the 8-byte registers of a tile slot from `o`, `n` of them. -/
def tileRegs (t o n : Nat) (s : State) : List Byte :=
  ((List.range n).map fun i => leBytes 8 ((tileLive t (o + 8 * i) s).getD 0)).flatten

/-- R468: is a line of the scratchpad readable? -/
def lineGood (x : Tile) (line : Nat) : Bool :=
  [2 * line, 2 * line + 1].all fun w => spGood (smLook 0 x.spErr w)

/-- R468: the row number and the line of entry `j` of bank `b`. -/
def bankEntry (x : Tile) (b j : Nat) : Nat × List Byte :=
  match (smLook [] x.rowTab b)[j]? with
  | none => (0xFFFF, List.replicate 64 0)
  | some row =>
    let line := row * 24 + b
    if lineGood x line then (row, spBytes x (line * 64) 64) else (row + 0x8000, List.replicate 64 0)

/-- R467: a tile record. -/
def tileRecord (t : Nat) (s : State) : List Byte :=
  let x := getT t s
  let es := (List.range 24).map fun b => (List.range 4).map fun j => bankEntry x b j
  tileRegs t 0 2 s ++ List.replicate 48 0 ++ tileRegs t 0x400 64 s ++
  (es.flatten.map fun e => leBytes 2 e.1).flatten ++ List.replicate 64 0 ++ (es.flatten.map (·.2)).flatten ++
  List.replicate 192 0

/-- R466: the header of a dump. -/
def dumpHeader (records ring idx ctx status time seq : Nat) : List Byte :=
  leBytes 2 1 ++ leBytes 2 records ++ leBytes 4 ring ++ leBytes 4 idx ++ leBytes 2 ctx ++ leBytes 2 status ++
  leBytes 8 time ++ leBytes 8 seq ++ List.replicate 32 0

/-- R465, R466: write a dump for a command of context `c`, piece by piece, until a piece is refused or fails. -/
def writeDump (c : Nat) (pieces : List (List Byte)) (s : State) : State :=
  let addr := (getC c s).dumpAddr
  let p := (getC c s).part
  if addr = 0 then s
  else
    let r := pieces.foldl (fun (acc : Bool × Nat × State) l =>
      if !acc.1 then acc
      else if hbmBacked acc.2.1 l.length acc.2.2 && winOk p acc.2.1 l.length false true acc.2.2 then
        match hbmWrite acc.2.1 l 0x280 acc.2.2 with
        | (none, s) => (true, acc.2.1 + l.length, s)
        | (some _, s) => (false, 0, s)
      else (false, 0, acc.2.2)) (true, addr, s)
    let s := modC c (fun x => { x with dumpFailed := !r.1 }) r.2.2
    if r.1 then s else logEv .dumpFailed (some p) (some c) addr [] s

/-- R466: the header-only dump of a command that holds no tiles. -/
def dumpCommand (r idx status seq : Nat) (s : State) : State :=
  let c := (getR r s).ctx
  writeDump c [dumpHeader 0 r idx c status (stampVal .arith s) seq] (stampUse .arith s)

/-- The dump of a kernel whose tiles are all HALTED. -/
def dumpKernel (k : Kernel) (status : Nat) (s : State) : State :=
  writeDump k.ctx (dumpHeader k.tiles.length k.ring k.idx k.ctx status (stampVal .arith s) k.logSeq ::
    k.tiles.map fun t => tileRecord t s) (stampUse .arith s)

/-! ### The end of a kernel -/

/-- R265: the command DMA channel of a command: its own, or the first free one of the ring's die. -/
def dmaChan (r i : Nat) (s : State) : Option (Nat × State) :=
  let key := cmdKey r i + 1
  let die := (getR r s).die
  match s.chans.find? fun e => e.2 = key with
  | some e => some (e.1, s)
  | none =>
    match (List.range 8).find? fun k => smLook 0 s.chans (die * 8 + k) = 0 with
    | some k => some (die * 8 + k, { s with chans := smPut 0 s.chans (die * 8 + k) key })
    | none => none

/-- The unit that makes a command's writes: a DMA channel for WRITE_VALUE, otherwise the command processor. -/
def writeUnit (r i : Nat) (c : RCmd) (s : State) : Option (Nat × State) :=
  if (c.desc.headD 0).toNat = 3 then (dmaChan r i s).map fun x => (0x200 + x.1, x.2)
  else some (0x280 + (getR r s).die, s)

/-- R270: the last write that a command of an ORDERED ring sends to a remote chip carries the fence flag. -/
def lastFence (r : Nat) (w : Nat) (rest : List (Nat × List Byte)) (s : State) : Bool :=
  !(getR r s).unordered && gChip w ≠ ownChip s && !rest.any fun x => gChip x.1 = gChip w

/-- Send a list of writes of a command. -/
def sendEach (r i code : Nat) : List (Nat × List Byte) → State → State
  | [], s => s
  | w :: ws, s =>
    let q := makeReq (.command r i 0 code) (.write w.2) w.1 w.2.length false (lastFence r w.1 ws s) (ringPart r s) s
    sendEach r i code ws q.2

/-- The writes of a command that are still to be sent are sent, once a channel is free where one is needed. -/
def sendWrites (r i : Nat) (s : State) : State :=
  match getCmd r i s with
  | some c =>
    match c.work with
    | .writes todo out aux alert =>
      match writeUnit r i c s with
      | some x =>
        sendEach r i x.1 todo
          (modCmd r i (fun c => { c with work := .writes [] (out + todo.length) aux alert, started := true }) x.2)
      | none => s
    | _ => s
  | none => s

/-- R164 to R167, R196, R475: how a kernel that has stopped ends: its status, AUX and DETAIL. -/
def kernelFailure (k : Kernel) : Nat × Nat × Nat :=
  match k.fault, k.kvFault with
  | some f, _ => (0x0201, f.1 + f.2.1 * 256, f.2.2.1)
  | none, some v => (0x0203, v.1, v.2)
  | none, none => (if k.wiped then 0x0207 else 0x0205, 0, 0)

/-- R82, R116, R164, R167, R465: a kernel ends once no tile of it runs; bindings it still has are dropped. -/
def kernelEnd (key : Nat) (s : State) : State :=
  match getK key s with
  | none => s
  | some k =>
    let s := if (liveTiles key k s).isEmpty then { s with bindings := s.bindings.filter fun e => e.1 / 1024 ≠ key } else s
    if !(liveTiles key k s).isEmpty || k.phase = .waiting || k.phase = .reserving then s
    else if k.fault.isNone && k.kvFault.isNone && !k.timedOut && !k.wiped then
      let alert := precAlert k.counts
      if k.report = 0 then finishCmd k.ring k.idx 0 0 0 false alert s
      else sendWrites k.ring k.idx
        (modCmd k.ring k.idx (fun c => { c with work := .writes [(k.report, reportBytes k)] 0 0 alert, effect := true }) s)
    else
      let f := kernelFailure k
      let dumps := k.timedOut || (f.1 = 0x0201 && (getC k.ctx s).dumpOnFault)
      let logs := dumps && !k.timedOut && (getC k.ctx s).st = .active
      let k' := if k.timedOut then k else { k with logSeq := getF Reg.LOG_TAIL s, faultLogged := logs }
      let s := setK key { k' with dumped := dumps } s
      let s := if logs then logFault k.ctx (some k.ring) f.1 s else s
      let s := if dumps then dumpKernel k' f.1 s else s
      finishCmd k.ring k.idx f.1 f.2.1 f.2.2 true (precAlert k.counts) s

end Sys2Proof.Machine
end

