-- ==== Sys2Proof/Machine/Walker.lean ====
section
/-! DEFINITION. Machine/Walker.lean: positions and rotary angles (R170 to R174), sequence descriptors and pages (R176 to
R179), and the KV page walkers' bindings (R182 to R197). -/

namespace Sys2Proof.Machine

/-! ### Rotary angles -/

/-- R173: the phase of pair `i` at a position. -/
def phase (pos freq : Nat) : Nat := pos * freq % 2 ^ 40

/-- 2π in units of 2⁻⁶⁴. -/
def twoPi : Nat := 115904311329233965478

/-- The Taylor sum of a sine or cosine in units of 2⁻⁶⁴: `term` is the next term, `k` its power, `x` the angle. -/
def trigSum (x : Nat) : Nat → Nat → Int → Int
  | 0, _, _ => 0
  | n + 1, k, term =>
    term + trigSum x n (k + 2) (-(term * (x * x : Nat) / (2 ^ 128 : Nat)) / ((k + 1) * (k + 2) : Nat))

/-- The cosine (false) or sine of an angle below a quarter turn, in units of 2⁻⁶⁴; the error is below 2⁻⁵⁰. -/
def trigQuarter (sine : Bool) (r : Nat) : Int :=
  let x := r * twoPi / 2 ^ 40
  if sine then trigSum x 16 1 (x : Int) else trigSum x 16 0 (2 ^ 64 : Nat)

/-- The cosine or sine of a phase in units of 2⁻⁶⁴. -/
def trig (sine : Bool) (p : Nat) : Int :=
  let r := p % 2 ^ 38
  match p / 2 ^ 38 % 4, sine with
  | 0, _ => trigQuarter sine r
  | 1, false => -trigQuarter true r
  | 1, true => trigQuarter false r
  | 2, _ => -trigQuarter sine r
  | _, false => trigQuarter true r
  | _, true => -trigQuarter false r

/-- R174: the cosine or sine of a phase as FP32: a free value within 2⁻²² of the exact one (log entry 7). -/
def rotaryOf (sine : Bool) (p : Nat) : B32 :=
  let v := trig sine p
  clampTo (dyad32 (v - 2 ^ 42 - 2 ^ 14) (-64)) (dyad32 (v + 2 ^ 42 + 2 ^ 14) (-64)) (Config.rotary sine p)

/-! ### Sequence descriptors and pages -/

/-- R177: bytes per element of a page. -/
def kvElem (f : Fmt) : Nat := if f = .bf16 then 2 else 1

/-- R177: the bytes of a token row. -/
def rowW (d : SeqDesc) : Nat := d.h * d.d * kvElem d.fmt

/-- R176, R177: the descriptor in 64 bytes, or none when it breaks a rule of the table. -/
def seqParse (l : List Byte) : Option SeqDesc :=
  let flags := dField l 32 1
  let fmt := match dField l 31 1 with | 3 => some Fmt.e4m3 | 4 => some .e5m2 | 7 => some .bf16 | _ => none
  match fmt with
  | none => none
  | some f =>
    let d : SeqDesc := ⟨dField l 0 8, dField l 8 8, dField l 16 8, dField l 24 4 + 1, dField l 28 1 + 1,
      dField l 29 1 + 1, 64 * 2 ^ dField l 30 1, f, flags % 2 = 1, flags / 2 % 2 = 1, flags / 4 % 2 = 1⟩
    if d.ptBase % 512 ≠ 0 ∨ (d.sumValid ∧ d.sumBase % 512 ≠ 0) ∨ 2 ^ 16 ≤ dField l 24 4 ∨ 16 ≤ dField l 29 1 ∨
        3 ≤ dField l 30 1 ∨ 8 ≤ flags ∨ dField l 33 31 ≠ 0 ∨ 4096 < rowW d ∨ (d.rotateK ∧ d.freqBase % 64 ≠ 0) then none
    else some d

/-- R178: the index of the page-table entry of page `j` of a layer. -/
def pteIndex (d : SeqDesc) (layer j : Nat) : Nat := layer * d.pagesMax + j

/-- R178: does an entry satisfy R29 and the 4 KiB alignment? -/
def pteOk (e : Nat) : Bool := e / 2 ^ 55 = 0 && e % 4096 = 0

/-- Split a range at 512-byte boundaries of the address. -/
def pieces512 (g n : Nat) : List (Nat × Nat) := splitBlocks g n

/-! ### Bindings -/

/-- R185: the rows of page `j` below the binding's length. -/
def validRows (b : Binding) (j : Nat) : Nat := min 256 (b.length - j * 256)

/-- R183: the end of the range. -/
def rangeEnd (b : Binding) : Nat := min b.pageEnd ((b.length + 255) / 256)

/-- R183: the pages of the range. -/
def rangePages (b : Binding) : List Nat := (List.range (rangeEnd b - b.page0)).map (b.page0 + ·)

/-- R190: is page `j` forced? -/
def forcedPage (b : Binding) (j : Nat) : Bool := j < b.page0 + b.sink || rangeEnd b ≤ j + b.recent

/-- The bytes of one row of a part in a slot. -/
def partRow (b : Binding) (d : SeqDesc) : Nat := b.nheads * d.d * kvElem d.fmt

/-- R185: the size of a slot's data. -/
def slotData (b : Binding) (d : SeqDesc) : Nat := (if b.parts = 3 then 2 else 1) * 256 * partRow b d

/-- R184: the padded query area. -/
def queryArea (b : Binding) (d : SeqDesc) : Nat := if b.sift then (d.h * d.d * 2 + 63) / 64 * 64 else 0

/-- R184: where slot `i` starts. -/
def slotBase (b : Binding) (d : SeqDesc) (i : Nat) : Nat := b.ringBase + 64 + queryArea b d + i * b.stride

/-- R183: a binding in 64 bytes, before what depends on the descriptor is checked; none when a bit of the entry breaks
the table. With SEL_OUT = 1 the alignment of SEL_ADDR is checked whatever SIFT is (DESIGN CHOICE, log entry 62). -/
def bindParse (l : List Byte) (count : Nat) (tileOf : Nat → Nat) (part idx : Nat) : Option Binding :=
  let mode := dField l 14 1
  let logical := dField l 16 2
  if dField l 0 8 % 64 ≠ 0 ∨ 2 ^ 25 ≤ dField l 8 4 ∨ mode % 4 = 0 ∨ 128 ≤ mode ∨ dField l 15 1 = 0 ∨ 64 < dField l 15 1 ∨
      count ≤ logical ∨ dField l 18 2 ≠ 0 ∨ 2 ^ 21 ≤ dField l 20 4 ∨ dField l 20 4 % 64 ≠ 0 ∨ dField l 32 4 % 64 ≠ 0 ∨
      4096 ≤ dField l 36 2 ∨ (mode / 32 % 2 = 1 ∧ dField l 40 8 % 64 ≠ 0) ∨ dField l 48 16 ≠ 0 then none
  else
    let t := tileOf logical
    some {
      walker := tileDie t * 8 + idx % 8, tile := t, part := part, seqAddr := dField l 0 8, length := dField l 8 4
      layer := dField l 12 1, head0 := dField l 13 1 % 16, nheads := dField l 13 1 / 16 + 1, parts := mode % 4
      vt := mode / 4 % 2 = 1, cached := mode / 8 % 2 = 1, sift := mode / 16 % 2 = 1, selOut := mode / 32 % 2 = 1
      gated := mode / 64 % 2 = 1 || mode / 16 % 2 = 1, depth := dField l 15 1, ringBase := dField l 20 4
      page0 := dField l 24 4, pageEnd := dField l 28 4, stride := dField l 32 4, siftK := dField l 36 2 + 1
      sink := dField l 38 1, recent := dField l 39 1, selAddr := dField l 40 8 }

/-- R183: the rules that need the sequence descriptor. -/
def bindOk (b : Binding) (d : SeqDesc) : Bool :=
  b.layer < d.layers && b.head0 + b.nheads ≤ d.h && rangeEnd b ≤ d.pagesMax && (!b.sift || d.sumValid) &&
  64 + slotData b d ≤ b.stride && slotBase b d (b.depth - 1) + 64 + slotData b d ≤ spSize

/-- The ranges of a page that the binding delivers: the selected heads of the rows below VALID, K then V. -/
def pageRanges (b : Binding) (d : SeqDesc) (page j : Nat) : List (Nat × Nat) :=
  let w := rowW d
  let v := validRows b j
  let o := b.head0 * d.d * kvElem d.fmt
  let region (base : Nat) : List (Nat × Nat) :=
    if partRow b d = w then [(base, v * w)] else (List.range v).map fun t => (base + t * w + o, partRow b d)
  (if b.parts % 2 = 1 then region page else []) ++ if 2 ≤ b.parts then region (page + 256 * w) else []

/-- R195: the 512-byte code blocks of the ranges, each once and in order. -/
def blocksOf (rs : List (Nat × Nat)) : List (Nat × Nat) :=
  (((rs.map fun r => pieces512 r.1 r.2).flatten.map fun p => p.1 / 512 * 512).eraseReps).map fun a => (a, 512)

/-- The bytes of ranges, cut out of gathered code blocks. -/
def cutRanges (blocks : List ((Nat × Nat) × List Byte)) (rs : List (Nat × Nat)) : List Byte :=
  ((rs.map fun r => pieces512 r.1 r.2).flatten.map fun p =>
    match blocks.find? fun x => x.1.1 = p.1 / 512 * 512 with
    | some x => sliceB x.2 (p.1 % 512) p.2
    | none => []).flatten

/-- The bytes that a fetch has gathered, in order. -/
def fetchBytes (f : Fetch) : List Byte := (f.got.map (·.2)).flatten

/-- Has everything come? -/
def fetchDone (f : Fetch) : Bool := f.got.length = f.want.length

/-- A fetch of ranges, piece by piece. -/
def fetchOf (rs : List (Nat × Nat)) : Fetch := ⟨(rs.map fun r => pieces512 r.1 r.2).flatten, 0, []⟩

/-- R185: a part of the slot: rows in order, zeros from VALID on, transposed for V when VT is 1. -/
def slotPart (row es : Nat) (vt : Bool) (bytes : List Byte) : List Byte :=
  let l := bytes ++ List.replicate (256 * row - bytes.length) 0
  if vt then ((List.range (row / es)).map fun i => ((List.range 256).map fun t => sliceB l (t * row + i * es) es).flatten).flatten
  else l

/-- R185: the data of a slot from the gathered rows. -/
def slotBytes (b : Binding) (d : SeqDesc) (j : Nat) (bytes : List Byte) : List Byte :=
  let row := partRow b d
  let n := validRows b j * row
  let es := kvElem d.fmt
  (if b.parts % 2 = 1 then slotPart row es false (bytes.take n) else []) ++
  if 2 ≤ b.parts then slotPart row es b.vt (if b.parts = 3 then bytes.drop n else bytes) else []

/-- R185: the tag of a slot. -/
def slotTag (b : Binding) (j : Nat) : List Byte :=
  leBytes 4 j ++ leBytes 4 (j * 256) ++ leBytes 2 (validRows b j) ++ List.replicate 54 0

/-! ### Page sifting (R190, R191) -/

/-- R190: the score of a summary: FP32 products added in order, rounded to nearest even; NaN ranks as minus infinity. -/
def siftScore (q sm : List B16) : B32 :=
  let x := (List.zip q sm).foldl (fun a p => add32 a (mul32 (cvtBf32 p.1) (cvtBf32 p.2))) 0
  if dec32 x = .nan then 0xFF800000#32 else x

/-- Does page (j, x) rank above (k, y)? -/
def ranksAbove (a b : Nat × B32) : Bool :=
  fvLt (dec32 b.2) (dec32 a.2) || (!fvLt (dec32 a.2) (dec32 b.2) && a.1 < b.1)

/-- R191: the selected pages among scored ones. -/
def siftPick (k : Nat) (l : List (Nat × B32)) : List Nat :=
  (l.filter fun a => (l.filter fun b => ranksAbove b a).length < k).map (·.1)

/-- 16-bit values of bytes. -/
def b16s (l : List Byte) : List B16 := (List.range (l.length / 2)).map fun i => BitVec.ofNat 16 (dField l (2 * i) 2)

/-! ### Walkers at work -/

/-- The binding with a key. -/
def getB' (key : Nat) (s : State) : Option Binding := lookO s.bindings key
/-- Replace a binding. -/
def setB' (key : Nat) (b : Binding) (s : State) : State := { s with bindings := putO s.bindings key b }

/-- R182: the active bindings of a walker. -/
def activeOf (w : Nat) (s : State) : List (Nat × Binding) :=
  s.bindings.filter fun e => e.2.walker = w && e.2.phase ≠ .waiting && e.2.phase ≠ .finished

/-- R196: a walker ends its binding's kernel: cause and global address. -/
def streamFault (key cause addr : Nat) (s : State) : State :=
  let k := key / 1024
  let s := modK k (fun y => if y.fault.isNone && y.kvFault.isNone && !y.timedOut then { y with kvFault := some (cause, addr) }
    else y) s
  kernelEnd k (stopKernel k false { s with bindings := s.bindings.filter fun e => e.1 / 1024 ≠ k })

/-- R197: drop a kernel's bindings. -/
def dropBindings (k : Nat) (s : State) : State := { s with bindings := s.bindings.filter fun e => e.1 / 1024 ≠ k }

/-- Make up to `n` more requests of a binding's fetch; a refused address is a stream fault (R196). -/
def walkAsk (key : Nat) : Nat → State → State
  | 0, s => s
  | n + 1, s =>
    match getB' key s with
    | none => s
    | some b =>
      match b.f.want[b.f.asked]? with
      | none => s
      | some p =>
        if !addrOk b.part p.1 p.2 false s then streamFault key 0x0104 p.1 s
        else
          let r := makeReq (.walker b.walker key b.n b.f.asked) .read p.1 p.2 (!b.cached) false b.part s
          walkAsk key n (setB' key { b with f := { b.f with asked := b.f.asked + 1 } } r.2)

/-- Start gathering ranges in a phase. R189: at most 64 pieces of a binding are outstanding, so 1,024 of a walker. -/
def walkFetch (key : Nat) (ph : BPhase) (rs : List (Nat × Nat)) (s : State) : State :=
  match getB' key s with
  | none => s
  | some b => walkAsk key 64 (setB' key { b with phase := ph, f := fetchOf rs } s)

/-- R196, R234: an uncorrectable word of a binding's page ring ends its kernel like an uncorrectable page. -/
def ringFault (key w : Nat) (b : Binding) (s : State) : State :=
  streamFault key 0x0202 (ownGlobal (spGlobal b.tile (32 * w)) s) s

/-- R231 to R234: read bytes of a binding's ring through the scratchpad's decoder and go on with them. -/
def ringGet (key : Nat) (b : Binding) (o n : Nat) (f : List Byte → State → State) (s : State) : State :=
  match spRead b.tile (b.ringBase + o) n s with
  | (.ok l, s) => f l s
  | (.error w, s) => ringFault key w b s

/-- R233: write bytes of a binding's ring and go on. -/
def ringPut (key : Nat) (b : Binding) (o : Nat) (l : List Byte) (f : State → State) (s : State) : State :=
  match spWrite b.tile (b.ringBase + o) l s with
  | (none, s) => f s
  | (some w, s) => ringFault key w b s

/-- The base of the page that a binding's page-table block gives for its next delivery. -/
def pageBase (b : Binding) (d : SeqDesc) : Nat :=
  match b.pteBlk with
  | some blk => dField blk.2 (pteIndex d b.layer (b.plan.getD b.n 0) % 64 * 8) 8
  | none => 0

/-- R178, R196: the page-table entry of the binding's next page is at hand: read the page, or fault. -/
def walkPage (key : Nat) (blk : Nat × List Byte) (s : State) : State :=
  match getB' key s with
  | some b =>
    match b.desc with
    | some d =>
      let j := b.plan.getD b.n 0
      let i := pteIndex d b.layer j
      let e := dField blk.2 (i % 64 * 8) 8
      if !pteOk e then streamFault key 0x0204 (d.ptBase + i * 8) s
      else walkFetch key .page (blocksOf (pageRanges b d e j)) (setB' key { b with pteBlk := some blk } s)
    | none => s
  | none => s

/-- R186: go on to the next delivery, or finish. -/
def walkNext (key : Nat) (s : State) : State :=
  match getB' key s with
  | some b =>
    match b.desc with
    | some d =>
      if b.plan.length ≤ b.n then setB' key { b with phase := .finished } s
      else
        let i := pteIndex d b.layer (b.plan.getD b.n 0)
        match b.pteBlk with
        | some blk =>
          if blk.1 = i / 64 then walkPage key blk s else walkFetch key .pte [(d.ptBase + i / 64 * 512, 512)] s
        | none => walkFetch key .pte [(d.ptBase + i / 64 * 512, 512)] s
    | none => s
  | none => s

/-- R184, R186: write PLAN and start delivering. -/
def walkPlan (key : Nat) (pages : List Nat) (s : State) : State :=
  match getB' key s with
  | some b =>
    ringPut key b 24 (leBytes 8 (pages.length + 2 ^ 63))
      (fun s => walkNext key (setB' key { b with plan := pages, n := 0 } s)) s
  | none => s

/-- R190: the ranges of the summaries to score. -/
def summaryRanges (b : Binding) (d : SeqDesc) : List (Nat × Nat) :=
  ((rangePages b).filter fun j => !forcedPage b j).map fun j =>
    (d.sumBase + pteIndex d b.layer j * d.h * d.d * 2 + b.head0 * d.d * 2, b.nheads * d.d * 2)

/-- R186: a binding begins by reading its sequence descriptor. A gated one reads nothing before GO is nonzero. Of SEL_OUT with
SIFT = 0 only SEL_ADDR's alignment is checked, and no list is written (DESIGN CHOICE, log entry 62). -/
def walkGate (key : Nat) (s : State) : State :=
  match getB' key s with
  | some b =>
    let go (s : State) : State := walkFetch key .desc [(b.seqAddr, 64)] (setB' key { b with blocked := false } s)
    if b.gated then
      ringGet key b 16 8 (fun l s => if leNat l = 0 then setB' key { b with phase := .gate, blocked := true } s else go s) s
    else go s
  | none => s

/-- R190: a binding with its descriptor scores its summaries, or plans all pages of its range. Without SIFT no selection list is
written, whatever SEL_OUT says (DESIGN CHOICE, log entry 62). -/
def walkBegin (key : Nat) (b : Binding) (d : SeqDesc) (s : State) : State :=
  if b.sift then
    let rs := summaryRanges b d
    if rs.isEmpty then setB' key { b with desc := some d, phase := .scored, f := {} } s
    else walkFetch key .scoring rs (setB' key { b with desc := some d } s)
  else walkPlan key (rangePages b) (setB' key { b with desc := some d } s)

/-- What follows when a binding's fetch is complete. -/
def walkGot (key : Nat) (b : Binding) (s : State) : State :=
  match b.phase with
  | .desc =>
    match seqParse (fetchBytes b.f) with
    | none => streamFault key 0x010A b.seqAddr s
    | some d => walkBegin key b d s
  | .scoring => setB' key { b with phase := .scored } s
  | .pte =>
    match b.desc with
    | some d => walkPage key (pteIndex d b.layer (b.plan.getD b.n 0) / 64, fetchBytes b.f) s
    | none => s
  | .page => setB' key { b with phase := .ready } s
  | _ => s

/-- R189, R196, R332: a response to a walker's request. -/
def walkResp (w key n pos : Nat) (r : Req) (st : RStatus) (data : List Byte) (s : State) : State :=
  match getB' key s with
  | none => s
  | some b =>
    match st with
    | .uncorrectable a => streamFault key 0x0202 a s
    | .refused | .noRoute => streamFault key 0x0104 r.gaddr s
    | .ok =>
      match r.kind with
      | .read =>
        if b.n ≠ n then s
        else
          let s := bump (kvwF w (if gChip r.gaddr = ownChip s then Reg.KVW_BYTES_LOCAL else Reg.KVW_BYTES_REMOTE)) r.len s
          let b := { b with f := { b.f with got := putO b.f.got pos data } }
          let s := setB' key b s
          if fetchDone b.f then walkGot key b s else walkAsk key 1 s
      | _ =>
        let b := { b with out := b.out - 1 }
        let s := setB' key b s
        if b.out = 0 && b.phase = .listing then walkPlan key b.plan s else s

/-- The key of a binding from the operands of a command. -/
def bindKey (ring idx b : Nat) : Nat := cmdKey ring idx * 1024 + b

/-- R116, R182: is a tile of the binding's kernel still being cleared, so that the headers are not zeroed yet? -/
def ringsPending (key : Nat) (s : State) : Bool :=
  match getK (key / 1024) s with
  | some k => k.tiles.any fun t => (getT t s).mode = .clearing
  | none => false

/-- BINDING_ACTIVATE (R182): the first waiting binding of a walker, in binding order, becomes active when fewer than 16
are and the headers of its kernel's rings are zero. -/
def execBindingActivate (w : WalkerId) (s : State) : Ans :=
  if 16 ≤ (activeOf w.val s).length then .next s
  else match s.bindings.find? fun e => e.2.walker = w.val && e.2.phase = .waiting && !ringsPending e.1 s with
    | none => .next s
    | some e => .next (walkGate e.1 s)

/-- R186: may delivery `n` be written once CONSUMED is `c`? -/
def slotFree (b : Binding) (c : Nat) : Bool := (b.n : Int) - b.depth + 1 ≤ (c : Int)

/-- WALKER_CREDIT_POLL (R186): the walker reads GO or CONSUMED of a waiting binding again. -/
def execWalkerCreditPoll (ring : RingId) (idx : B32) (b : Fin 1024) (s : State) : Ans :=
  let key := bindKey ring.val idx.toNat b.val
  match getB' key s with
  | some x =>
    if x.phase = .gate then .next (walkGate key s)
    else if x.phase = .ready then
      .next (ringGet key x 8 8 (fun l s => setB' key { x with blocked := !slotFree x (leNat l) } s) s)
    else .next s
  | none => .next s

/-- R191: the selection list of a plan. -/
def selList (plan : List Nat) : List Byte := (plan.map (leBytes 4)).flatten

/-- R191, R196: write the selection list, then PLAN. A refused or failing write of the list ends the kernel like a refused or
uncorrectable page (DESIGN CHOICE, log entry 62). -/
def selWrite (key : Nat) (x : Binding) (plan : List Nat) (s : State) : State :=
  let l := selList plan
  let ps := pieces512 x.selAddr l.length
  match ps.find? fun p => !addrOk x.part p.1 p.2 true s with
  | some p => streamFault key 0x0104 p.1 s
  | none =>
    ps.foldl (fun s p => (makeReq (.walker x.walker key 0 0) (.write (sliceB l (p.1 - x.selAddr) p.2)) p.1 p.2 false false
      x.part s).2) (setB' key { x with plan := plan, phase := .listing, out := ps.length } s)

/-- R190, R191: the pages of a sifting binding that are delivered, by the query and the scored summaries. -/
def siftPlan (x : Binding) (d : SeqDesc) (query : List Byte) : List Nat :=
  let n := x.nheads * d.d * 2
  let bytes := fetchBytes x.f
  let pages := (rangePages x).filter fun j => !forcedPage x j
  let pick := siftPick x.siftK (pages.mapIdx fun i j => (j, siftScore (b16s query) (b16s (sliceB bytes (i * n) n))))
  (rangePages x).filter fun j => forcedPage x j || pick.contains j

/-- PAGE_SIFT_SELECT (R190, R191): score the summaries, select, write the selection list, then PLAN. A refused or failing write of
the list ends the kernel with cause 0x0104 or 0x0202, which R196's table does not give (DESIGN CHOICE, log entry 62). -/
def execPageSiftSelect (ring : RingId) (idx : B32) (b : Fin 1024) (s : State) : Ans :=
  let key := bindKey ring.val idx.toNat b.val
  match getB' key s with
  | some x =>
    match x.desc with
    | some d =>
      if x.phase ≠ .scored then .next s
      else .next (ringGet key x (64 + x.head0 * d.d * 2) (x.nheads * d.d * 2) (fun query s =>
        let plan := siftPlan x d query
        let s := bump (kvwF x.walker Reg.KVW_SUMMARIES) ((rangePages x).filter fun j => !forcedPage x j).length s
        if x.selOut && !plan.isEmpty then selWrite key x plan s else walkPlan key plan s) s)
    | none => .next s
  | none => .next s

/-- R182: the binding that a walker serves next: in round robin, by binding, among those that have gathered a page and are not
waiting for a slot. -/
def walkTurn (w : Nat) (s : State) : Option Nat :=
  let l := (activeOf w s).filter fun e => e.2.phase = .ready && !e.2.blocked
  match l.find? fun e => smLook 0 s.kvTurn w ≤ e.1 with
  | some e => some e.1
  | none => l.head?.map (·.1)

/-- R185, R186: the tag and data of the next delivery, then DELIVERED, then on to the next page. -/
def walkDeliver (key : Nat) (x : Binding) (d : SeqDesc) (s : State) : State :=
  let j := x.plan.getD x.n 0
  let o := slotBase x d (x.n % x.depth) - x.ringBase
  let data := slotBytes x d j (cutRanges (x.f.want.zip (x.f.got.map (·.2))) (pageRanges x d (pageBase x d) j))
  ringPut key x o (slotTag x j) (ringPut key x (o + 64) data (ringPut key x 0 (leBytes 8 (x.n + 1)) (fun s =>
    walkNext key (setB' key { x with n := x.n + 1, blocked := false } (bump (kvwF x.walker Reg.KVW_PAGES) 1
      { s with kvTurn := smPut 0 s.kvTurn x.walker (key + 1) }))))) s

/-- WALKER_SLOT_DELIVER (R182, R185, R186): with a free slot, the walker writes the tag and data of the next delivery of the binding
whose turn it is, then DELIVERED; without one the binding waits for CONSUMED. -/
def execWalkerSlotDeliver (ring : RingId) (idx : B32) (b : Fin 1024) (s : State) : Ans :=
  let key := bindKey ring.val idx.toNat b.val
  match getB' key s with
  | some x =>
    match x.desc with
    | some d =>
      if x.phase ≠ .ready ∨ walkTurn x.walker s ≠ some key then .next s
      else .next (ringGet key x 8 8 (fun l s =>
        if slotFree x (leNat l) then walkDeliver key x d s else setB' key { x with blocked := true } s) s)
    | none => .next s
  | none => .next s

end Sys2Proof.Machine
end

