-- ==== Sys2Proof/Machine/Alloc.lean ====
section
/-! DEFINITION. Machine/Alloc.lean: how kernels occupy tiles (R112 to R116, R128, R255). -/

namespace Sys2Proof.Machine

/-- R112: the tiles that a placement allows, lowest physical number first; ONE_DIE gives two lists. -/
def placeLists (place die : Nat) : List (List Nat) :=
  let d0 := List.range 136
  let d1 := (List.range 136).map (136 + ·)
  match place with
  | 0 => [d0]
  | 1 => [d1]
  | 2 => if die = 0 then [d0, d1] else [d1, d0]
  | _ => [d0 ++ d1]

/-- R112, R114, R254: the enabled tiles of a partition in a list. -/
def partTiles (p : Nat) (l : List Nat) (s : State) : List Nat := l.filter fun t => tileOn t s && tilePart t s = p

/-- R114: the most tiles that a placement could ever give a partition. -/
def placeMost (p place die : Nat) (s : State) : Nat :=
  (placeLists place die).foldl (fun n l => max n (partTiles p l s).length) 0

/-- May kernel `k` be given the tile now? -/
def tileFree (k t : Nat) (s : State) : Bool :=
  let x := getT t s
  x.mode = .idle && x.kern.isNone && (x.reserved.isNone || x.reserved = some k)

/-- R112: the tiles that a kernel would be given now, if there are enough. -/
def pickTiles (key : Nat) (k : Kernel) (s : State) : Option (List Nat) :=
  let free := (placeLists k.place (getR k.ring s).die).map fun l => (partTiles k.part l s).filter fun t => tileFree key t s
  (free.find? fun l => k.count ≤ l.length).map fun l => l.take k.count

/-- R128, R66: the sequencer's state when a kernel starts on a tile. -/
def tileBegin (k : Kernel) (cyc : Nat) (x : Tile) : Tile :=
  { x with
    mode := .running, pc := 0, retired := 0, waitKind := 0, faulted := false, stopped := false, stopping := false
    draining := false, cause := 0, faultPc := 0, faultInfo := 0, s := [], a := [], p := 1
    lfsr := if pcReseed k.prec then lfsrSeed (pcSalt k.prec) x.logical else x.lfsr
    prec := k.prec, startCyc := cyc / 100, icache := [], fetching := none, matQ := [], rdQ := [], vecQ := []
    xfers := [], sigQ := [], atoms := [], crema := [], blk := 0, bursts := [], waitf := none, ran := true }

/-- Has the kernel been stopped before it began? -/
def kernelStopped (k : Kernel) : Bool := k.fault.isSome || k.kvFault.isSome || k.timedOut || k.wiped

/-- R116, R182: once none of its tiles is being cleared, the headers of the bindings are zeroed and every tile begins. -/
def kernelRun (key : Nat) (s : State) : State :=
  match getK key s with
  | none => s
  | some k =>
    if kernelStopped k || k.tiles.any fun t => (getT t s).mode = .clearing then s
    else
      let s := s.bindings.foldl (fun s e =>
        if e.1 / 1024 = key then spStore e.2.tile e.2.ringBase (List.replicate 64 0) s else s) s
      k.tiles.foldl (fun s t => modT t (tileBegin k (smLook 0 s.cyc (tileDie t))) s) s

/-- R113, R115, R116: give a kernel its tiles: logical indices in increasing physical number, and a clear where the tile
last ran another context, or a context of another partition under the same number (R255), or none. -/
def kernelTake (key : Nat) (k : Kernel) (tiles : List Nat) (s : State) : State :=
  let s := setK key { k with tiles := tiles, phase := .running } s
  let s := mapTiles (fun _ x => if x.reserved = some key then { x with reserved := none } else x) s
  let s := (tiles.zip (List.range tiles.length)).foldl (fun s e =>
    modT e.1 (fun x => { x with
      mode := if x.ran && x.ctx = k.ctx && x.part = k.part then .idle else .clearing
      clearAt := smLook 0 s.cyc (tileDie e.1) / 100
      reserved := none, kern := some key, ctx := k.ctx, part := k.part, logical := e.2, ring := k.ring
      index := k.idx }) s) s
  kernelRun key (modCmd k.ring k.idx (fun c => { c with started := true }) s)

/-- Does the kernel wait for tiles? -/
def waitsForTiles (k : Kernel) : Bool := k.phase = .waiting || k.phase = .reserving

/-- The kernel of a ring that waits for tiles. -/
def waitingKernel (ring : Nat) (s : State) : Option (Nat × Kernel) :=
  s.kernels.find? fun e => e.2.ring = ring && waitsForTiles e.2

/-- The bindings of a kernel with their tiles known: the table parsed again with physical numbers (R115, R182). -/
def placeBindings (key : Nat) (k : Kernel) (tiles : List Nat) (table : List Byte) (s : State) : State :=
  (List.range k.nbind).foldl (fun s i =>
    match bindParse (sliceB table (64 * i) 64) k.count (fun l => tiles.getD l 0) k.part i with
    | some b => setB' (key * 1024 + i) b s
    | none => s) s

/-- R113: the ring's waiting kernel takes its tiles, if all of them are free. -/
def kernelStart (r : Nat) (s : State) : State :=
  match waitingKernel r s with
  | none => s
  | some e =>
    match pickTiles e.1 e.2 s with
    | none => s
    | some tiles => kernelTake e.1 e.2 tiles (placeBindings e.1 e.2 tiles e.2.table s)

/-- KERNEL_START (R113): all the tiles of the ring's waiting kernel are free: it takes them and starts. -/
def execKernelStart (ring : RingId) (s : State) : Ans := .next (heldOr (.kernelStart ring) (kernelStart ring.val) s)

/-- R113: the longest-waiting kernel of a partition. -/
def longestWaiting (p : Nat) (s : State) : Option (Nat × Kernel) :=
  (s.kernels.filter fun e => e.2.part = p && waitsForTiles e.2).foldl
    (fun a e => match a with
      | some b => if e.2.since < b.2.since then some e else a
      | none => some e) none

/-- R113: the kernel for which a tile that becomes idle is reserved. -/
def reserverOf (t : Nat) (s : State) : Option Nat :=
  match longestWaiting (tilePart t s) s with
  | some e =>
    if e.2.phase = .reserving ∧ (placeLists e.2.place (getR e.2.ring s).die).any (·.contains t) then some e.1 else none
  | none => none

/-- A tile becomes idle: a waiting kernel may reserve it. -/
def tileIdle (t : Nat) (s : State) : State :=
  match reserverOf t s with
  | some k => modT t (fun x => { x with reserved := some k }) s
  | none => s

/-- KERNEL_TILE_RESERVE (R113): a kernel that has waited 1 ms begins to reserve the eligible tiles that become idle. -/
def execKernelTileReserve (ring : RingId) (s : State) : Ans :=
  match waitingKernel ring.val s with
  | some e => .next (if e.2.waitAt + 1000000 ≤ s.tb then setK e.1 { e.2 with phase := .reserving } s else s)
  | none => .next s

/-- R255: a reservation of a tile that has left the kernel's partition is lost. -/
def dropReserve (s : State) (t : Nat) (x : Tile) : Tile :=
  match x.reserved with
  | some key =>
    match getK key s with
    | some k => if tilePart t s = k.part then x else { x with reserved := none }
    | none => { x with reserved := none }
  | none => x

/-- R114, R255: a waiting kernel that can no longer be placed is refused. -/
def refuseUnplaced (s : State) (e : Nat × Kernel) : State :=
  if waitsForTiles e.2 && placeMost e.2.part e.2.place (getR e.2.ring s).die s < e.2.count then
    finishCmd e.2.ring e.2.idx 0x0108 0 0 false false (delK e.1 s)
  else s

/-- R255: after a partition loses tiles, its waiting kernels lose reservations of them, and those that can no longer be
placed are refused. -/
def realloc (s : State) : State :=
  let s := mapTiles (dropReserve s) s
  s.kernels.foldl refuseUnplaced s

end Sys2Proof.Machine
end

