-- ==== Sys2Proof/Machine/Tile.lean ====
section
/-! DEFINITION. Machine/Tile.lean: the tile sequencer: fetching, checking and issuing an instruction (R129 to R137), with
one meaning for each of its instructions. -/

namespace Sys2Proof.Machine

/-- R129: ask for the block that holds the PC. -/
def startFetch (t : Nat) (k : Kernel) (s : State) : State :=
  let x := getT t s
  if x.fetching.isSome then s
  else
    let blk := x.pc / 512
    let r := makeReq (.icache t blk) .read (k.prog + blk * 512) 512 false false x.part s
    modT t (fun x => { x with fetching := some r.1 }) r.2

/-- The scratchpad bytes that the sequencer's own access or a newly queued operation reads: LD, and the operands of
matrix and vector operations. The shadow rows of an MMUL are read only when its block is sampled (R68, R69). -/
def newReads (w : TileWord) (old new : Tile) : List SpRange :=
  match w.op, w.args with
  | .ld, .i _ a fn imm =>
    match spOffset (rdA old a.toNat) imm (ldSize fn.toNat) with
    | .ok o => [(o, ldSize fn.toNat)]
    | .error _ => []
  | .vld, _ | .vdq, _ => (new.vecQ.getLast?.map (·.reads)).getD []
  | .mmul, _ | .qmmul, _ =>
    match new.matQ.getLast? with
    | some o => if w.op = .qmmul || new.crema.any (·.blk = o.blk) then o.reads else o.reads.take (o.m + o.partials.length + 1)
    | none => []
  | _, _ => []

/-- R231 to R234: read ranges through the decoder: the first uncorrectable word, and the corrections noted. -/
def checkReads (t : Nat) : List SpRange → State → Option Nat × State
  | [], s => (none, s)
  | r :: l, s =>
    if (getT t s).spErr.isEmpty then (none, s)
    else match spRead t r.1 r.2 s with
      | (.error w, s) => (some w, s)
      | (.ok _, s) => checkReads t l s

/-- R233: ST writes part of a word, which is read first: the write is made again from what the scratchpad held before,
through the decoder, and the first word that does not decode is the answer. -/
def checkStore (t : Nat) (w : TileWord) (old : Tile) (s : State) : Option Nat × State :=
  match w.op, w.args with
  | .st, .i d a fn imm =>
    match spOffset (rdA old a.toNat) imm (ldSize fn.toNat) with
    | .ok o =>
      if (getT t s).spErr.isEmpty then (none, s)
      else spWrite t o (leBytes (ldSize fn.toNat) (rdS old d.toNat).toNat)
        (modT t (fun x => { x with sp := old.sp, rowTab := old.rowTab }) s)
    | .error _ => (none, s)
  | _, _ => (none, s)

/-- After an instruction has issued: an uncorrectable word that it reads faults the tile imprecisely (R163, R233, R234).
MFSR TIME uses up a timestamp (R251). -/
def afterIssue (t : Nat) (w : TileWord) (old : Tile) (s : State) : State :=
  let s := if w.op = .mfsr then stampUse .arith s else s
  let r := match checkReads t (newReads w old (getT t s)) s with
    | (none, s) => checkStore t w old s
    | r => r
  match r with
  | (none, s) => s
  | (some bad, s) => tileFault t .dataUncorrectable old.pc (ownGlobal (spGlobal t (32 * bad)) s) s

/-- Try to issue the instruction at the PC of tile `t`, if it is a `op`: R129, R130, R132, R134. An event for another
instruction than the one at the PC changes nothing, nor does one that waits (R169 shows why). An instruction whose guard is off
counts as retired (DESIGN CHOICE, log entry 74). -/
def issueAt (op : TOp) (t : Nat) (s : State) : State :=
  let x := getT t s
  match x.kern.bind (getK · s) with
  | none => s
  | some k =>
    if x.mode ≠ .running ∨ x.stopping ∨ x.draining then s
    else if k.len ≤ x.pc then tileFault t .fetchFault x.pc x.pc s
    else
      match fetchWord x with
      | none => startFetch t k s
      | some w =>
        match tileSplit w with
        | none => tileFault t .illegalOpcode x.pc w.toNat s
        | some i =>
          if i.op ≠ op then s
          else match tileWordFault w with
            | some c => tileFault t c x.pc w.toNat s
            | none =>
              if !guardOn x i then modT t retire s
              else if operandHeld x i then s
              else match opRun op t (tileEnv t k w s) i s with
                | .fault c info => tileFault t c x.pc info s
                | .late c info s => tileFault t c x.pc info s
                | .wait _ => s
                | .go s => afterIssue t i x s

/-- NOP (R137). -/
def execNop (t : TileId) (s : State) : Ans := .next (issueAt .nop t.val s)

/-- END (R138). -/
def execEndOp (t : TileId) (s : State) : Ans := .next (issueAt .endOp t.val s)

/-- BR (R139). -/
def execBr (t : TileId) (s : State) : Ans := .next (issueAt .br t.val s)

/-- MFSR (R140). -/
def execMfsr (t : TileId) (s : State) : Ans := .next (issueAt .mfsr t.val s)

/-- LFSRLD (R141). -/
def execLfsrld (t : TileId) (s : State) : Ans := .next (issueAt .lfsrld t.val s)

/-- ALU (R142). -/
def execAlu (t : TileId) (s : State) : Ans := .next (issueAt .alu t.val s)

/-- ALUI (R142). -/
def execAlui (t : TileId) (s : State) : Ans := .next (issueAt .alui t.val s)

/-- MOVI (R143). -/
def execMovi (t : TileId) (s : State) : Ans := .next (issueAt .movi t.val s)

/-- MOVHI (R143). -/
def execMovhi (t : TileId) (s : State) : Ans := .next (issueAt .movhi t.val s)

/-- CMP (R142). -/
def execCmp (t : TileId) (s : State) : Ans := .next (issueAt .cmp t.val s)

/-- CMPI (R142). -/
def execCmpi (t : TileId) (s : State) : Ans := .next (issueAt .cmpi t.val s)

/-- PLOG (R142). -/
def execPlog (t : TileId) (s : State) : Ans := .next (issueAt .plog t.val s)

/-- FPU (R142). -/
def execFpu (t : TileId) (s : State) : Ans := .next (issueAt .fpu t.val s)

/-- FCMP (R142). -/
def execFcmp (t : TileId) (s : State) : Ans := .next (issueAt .fcmp t.val s)

/-- AMOV (R143). -/
def execAmov (t : TileId) (s : State) : Ans := .next (issueAt .amov t.val s)

/-- ADDA (R143). -/
def execAdda (t : TileId) (s : State) : Ans := .next (issueAt .adda t.val s)

/-- MOVA (R143). -/
def execMova (t : TileId) (s : State) : Ans := .next (issueAt .mova t.val s)

/-- LD (R144). -/
def execLd (t : TileId) (s : State) : Ans := .next (issueAt .ld t.val s)

/-- ST (R144). -/
def execSt (t : TileId) (s : State) : Ans := .next (issueAt .st t.val s)

/-- VALU (R145). -/
def execValu (t : TileId) (s : State) : Ans := .next (issueAt .valu t.val s)

/-- VALUS (R145). -/
def execValus (t : TileId) (s : State) : Ans := .next (issueAt .valus t.val s)

/-- VSFU (R146). -/
def execVsfu (t : TileId) (s : State) : Ans := .next (issueAt .vsfu t.val s)

/-- VRED (R146). -/
def execVred (t : TileId) (s : State) : Ans := .next (issueAt .vred t.val s)

/-- VCVT (R147). -/
def execVcvt (t : TileId) (s : State) : Ans := .next (issueAt .vcvt t.val s)

/-- VBCAST (R146). -/
def execVbcast (t : TileId) (s : State) : Ans := .next (issueAt .vbcast t.val s)

/-- VLD (R148). -/
def execVld (t : TileId) (s : State) : Ans := .next (issueAt .vld t.val s)

/-- VST (R148). -/
def execVst (t : TileId) (s : State) : Ans := .next (issueAt .vst t.val s)

/-- VDQ (R149). -/
def execVdq (t : TileId) (s : State) : Ans := .next (issueAt .vdq t.val s)

/-- VQNT (R150). -/
def execVqnt (t : TileId) (s : State) : Ans := .next (issueAt .vqnt t.val s)

/-- ACCRD (R106). -/
def execAccrd (t : TileId) (s : State) : Ans := .next (issueAt .accrd t.val s)

/-- SMXU (R154). -/
def execSmxu (t : TileId) (s : State) : Ans := .next (issueAt .smxu t.val s)

/-- SMXM (R155). -/
def execSmxm (t : TileId) (s : State) : Ans := .next (issueAt .smxm t.val s)

/-- DMA (R152). -/
def execDma (t : TileId) (s : State) : Ans := .next (issueAt .dma t.val s)

/-- ATOM (R156). -/
def execAtom (t : TileId) (s : State) : Ans := .next (issueAt .atom t.val s)

/-- ACQ (R157). -/
def execAcq (t : TileId) (s : State) : Ans := .next (issueAt .acq t.val s)

/-- WAITD (R159). -/
def execWaitd (t : TileId) (s : State) : Ans := .next (issueAt .waitd t.val s)

/-- SIGNAL (R160). -/
def execSignal (t : TileId) (s : State) : Ans := .next (issueAt .signal t.val s)

/-- WAITS (R161). -/
def execWaits (t : TileId) (s : State) : Ans := .next (issueAt .waits t.val s)

/-- WAITF (R162). -/
def execWaitf (t : TileId) (s : State) : Ans := .next (issueAt .waitf t.val s)

/-- MMUL (R151). -/
def execMmul (t : TileId) (s : State) : Ans := .next (issueAt .mmul t.val s)

/-- QMMUL (R151). -/
def execQmmul (t : TileId) (s : State) : Ans := .next (issueAt .qmmul t.val s)

end Sys2Proof.Machine
end

