-- ==== Sys2Proof/Machine/TileEvents.lean ====
section
/-! DEFINITION. Machine/TileEvents.lean: what the units of a tile do on their own (R102, R106, R107, R111, R116, R129,
R138, R153, R159 to R162, R166), drill spacing (R117 to R119) and the Crema lane (R69 to R75). -/

namespace Sys2Proof.Machine

/-- Write runs of bytes into a tile's scratchpad for one of its units: a failed read-modify-write faults the tile
(R233, R234). -/
def unitWrite (t pc : Nat) (ws : List (Nat × List Byte)) (s : State) : State :=
  ws.foldl (fun s w =>
    match spWrite t w.1 w.2 s with
    | (none, s) => s
    | (some bad, s) => tileFault t .dataUncorrectable pc (ownGlobal (spGlobal t (32 * bad)) s) s) s

/-- Put accumulator elements. -/
def accPut (x : Tile) (ws : List (Nat × B32)) : Tile := { x with acc := ws.foldl (fun m w => smPut 0 m w.1 w.2) x.acc }

/-- R166: discard the answers of a unit that nothing waits for any more, since its tile has stopped meanwhile. -/
def dropStale (mine : RUnit → Bool) (s : State) : State :=
  { s with reqs := s.reqs.filter fun (e : Nat × Req) => !(mine e.2.unit && !reqOpen e.2) }

/-- ICACHE_FILL_DONE (R129): the block that the tile waits for has come, or FETCH_FAULT. The cache holds 64 blocks; a
full one gives up a free choice of block. With `parity` a line has failed its parity: the block that has come, or, when none is
awaited, the one that holds the PC, is discarded and fetched again (R236). -/
def execIcacheFillDone (t : TileId) (parity : Bool) (s : State) : Ans :=
  let x := getT t.val s
  match x.fetching.bind (lookO s.reqs ·), x.fetching with
  | some r, some id =>
    match r.stage, r.unit with
    | .done st data, .icache _ blk =>
      let s := delReq id (modT t.val (fun x => { x with fetching := none }) s)
      if st ≠ .ok then .next (tileFault t.val .fetchFault x.pc x.pc s)
      else if parity then
        match x.kern.bind (getK · s) with
        | some k => .next (startFetch t.val k (bump Reg.MEM_COPY_REFETCH 1 s))
        | none => .next s
      else if x.icache.length < 64 then .next (modT t.val (fun x => { x with icache := putO x.icache blk data }) s)
      else
        let victim := (x.icache.getD (freeNat s % 64) (0, [])).1
        .next (modT t.val (fun x => { x with icache := putO (smDel x.icache victim) blk data }) (tick1 s))
    | _, _ => .next s
  | _, _ =>
    match x.kern.bind (getK · s) with
    | some k =>
      if parity && x.fetching.isNone && x.mode = .running && !x.stopping && (fetchWord x).isSome then
        .next (startFetch t.val k (bump Reg.MEM_COPY_REFETCH 1
          (modT t.val (fun x => { x with icache := smDel x.icache (x.pc / 512) }) s)))
      else .next (dropStale (fun u => match u with | .icache v _ => v = t.val | _ => false) s)
    | none => .next (dropStale (fun u => match u with | .icache v _ => v = t.val | _ => false) s)

/-- R118: the cycle, counted from the admission of a start, at which `w` cycles of full-rate work begun at cycle `t` are done: a
quarter of the rate up to cycle 128 and a half up to cycle 256. Work is counted in quarter cycles. -/
def rampRun (t w : Nat) : Nat :=
  if 256 ≤ t then t + w
  else if 4 * w ≤ 128 - t then t + 4 * w
  else
    let q := 4 * w - (128 - t)
    let u := max t 128
    if q ≤ 2 * (256 - u) then u + (q + 1) / 2 else 256 + (q - 2 * (256 - u) + 3) / 4

/-- The steps of a matrix operation. -/
def matSteps (o : MatOp) : Nat := o.partials.length + 1

/-- R102, R118: the cycles that the ramp adds to the first `n` steps of the executing operation: each step begins when the one
before it is done and its weight panel has been loaded. A start loses at most 160 cycles. -/
def rampExtra (x : Tile) (o : MatOp) (n : Nat) : Nat :=
  let c := o.cycles / matSteps o
  let t0 := o.begun - x.rampAt
  let r := (List.range n).foldl (fun (a : Nat × Nat) j =>
    let st := max a.1 (t0 + o.load * (if o.idle then j + 1 else j))
    let e := rampRun st c
    (e, a.2 + (e - st))) (t0, 0)
  min (r.2 - n * c) (160 - x.rampLost)

/-- R124, R125: count `n` steps of the executing matrix operation. -/
def matCount (t n : Nat) (o : MatOp) (s : State) : State :=
  let f := tileF t
  let part (v : Nat) : Nat := v * n / matSteps o
  let s := bump (f Reg.TILE_MATRIX_CYCLES) (part o.cycles + rampExtra (getT t s) o n - o.cut.1) s
  bump (f Reg.TILE_WLOAD_STALL_CYCLES) (part o.stall - o.cut.2.2) (bump (f Reg.TILE_MATRIX_MACS) (part o.macs - o.cut.2.1) s)

/-- R102: the executing matrix operation leaves the engine after `n` steps, and the next one begins to execute. -/
def matLeave (t n : Nat) (o : MatOp) (x : Tile) (s : State) : Tile :=
  let now := smLook 0 s.cyc (tileDie t) / 100
  { x with
    matQ := x.matQ.tail.mapIdx fun i y => if i = 0 then { y with begun := now } else y
    lastStep := if n = 0 then x.lastStep else some now
    rampLost := x.rampLost + rampExtra x o n }

/-- MATRIX_OP_DONE (R102): the executing matrix operation completes: its accumulator rows and quantised copy are
written and its work is counted. -/
def execMatrixOpDone (t : TileId) (s : State) : Ans :=
  let x := getT t.val s
  match x.matQ with
  | o :: _ =>
    if x.mode ≠ .running ∨ x.stopping ∨ o.drill ≠ .none then .next s
    else
      let s := matCount t.val (matSteps o) o s
      let s := setT t.val (matLeave t.val (matSteps o) o (accPut x o.writes) s) s
      .next (countSat t.val o.satQuant 0 o.nanZ (unitWrite t.val o.pc o.copy s))
  | [] => .next s

/-- ACCRD_DONE (R105, R106): the executing read-out has written its rows; it waits for earlier matrix operations on
them. -/
def execAccrdDone (t : TileId) (s : State) : Ans :=
  let x := getT t.val s
  match x.rdQ with
  | o :: l =>
    if x.mode ≠ .running ∨ x.stopping ∨ rdWaits x o
    then .next s
    else .next (countSat t.val 0 o.satOut o.nanZ (unitWrite t.val o.pc o.writes (setT t.val { x with rdQ := l } s)))
  | [] => .next s

/-- The writes of a vector instruction. -/
def vecApply (x : Tile) (o : VecOp) : Tile :=
  let x := o.sW.foldl (fun x w => if w.2.2 then wrSAt o.seq x w.1 w.2.1 else x) x
  o.vW.foldl (fun x w => wrV x w.1 w.2) x

/-- VECTOR_OP_DONE (R107): the executing vector instruction completes and writes its results. -/
def execVectorOpDone (t : TileId) (s : State) : Ans :=
  let x := getT t.val s
  match x.vecQ with
  | o :: l =>
    if x.mode ≠ .running ∨ x.stopping then .next s
    else
      let s := unitWrite t.val o.pc o.spW (setT t.val (vecApply { x with vecQ := l } o) s)
      .next (countSat t.val o.satQuant 0 o.nanZ (bump (tileF t.val Reg.TILE_VECTOR_CYCLES) o.cycles s))
  | [] => .next s

/-- R136: the lines that a range of the scratchpad touches. -/
def linesOf (o n : Nat) : List Nat :=
  if n = 0 then [] else (List.range ((o + n - 1) / 64 + 1 - o / 64)).map fun i => o / 64 + i

/-- R136: the lines that a transfer out of the scratchpad has read so far, with those of its next piece. -/
def takeLines (x : Tile) (m : SMap (List Byte)) (o n : Nat) : SMap (List Byte) :=
  (linesOf o n).foldl (fun m l => if (lookO m l).isSome then m else putO m l (spBytes x (64 * l) 64)) m

/-- R136: the bytes that a transfer sends: those of a line that it has read before are as they were then. -/
def takenBytes (m : SMap (List Byte)) (o : Nat) (l : List Byte) : List Byte :=
  l.mapIdx fun i b => match lookO m ((o + i) / 64) with | some y => y.getD ((o + i) % 64) b | none => b

/-- R109, R111, R153, R362: the next request of transfer `id` of a tile, after the check of its address. -/
def dmaTileRequest (t id : Nat) (s : State) : State :=
  let x := getT t s
  match x.xfers.find? (·.id = id) with
  | none => s
  | some f =>
    if x.mode ≠ .running ∨ x.stopping ∨ f.sent ∨ !dmaStarted x id ∨ (!f.write && 128 ≤ dmaOut x) then s
    else
      let p := dmaPiece f
      if !addrOk x.part p.1 p.2.2 f.write s then tileFault t .accessRefused f.pc p.1 s
      else
        let f' := dmaStep f p.2.2
        let put (f' : DmaXfer) (s : State) : State :=
          modT t (fun x => { x with xfers := x.xfers.map fun y => if y.id = id then f' else y }) s
        let fence := f.fence && f'.sent
        if f.write then
          match spRead t p.2.1 p.2.2 s with
          | (.error bad, s) => tileFault t .dataUncorrectable f.pc (ownGlobal (spGlobal t (32 * bad)) s) s
          | (.ok l, s) =>
            let r := makeReq (.dma t id p.2.1) (.write (takenBytes f.taken p.2.1 l)) p.1 p.2.2 false fence x.part
              (bump (tileF t Reg.TILE_DMA_WRITE_BYTES) p.2.2 (put { f' with taken := takeLines x f.taken p.2.1 p.2.2 } s))
            r.2
        else
          let r := makeReq (.dma t id p.2.1) .read p.1 p.2.2 f.fresh fence x.part (put f' s)
          r.2

/-- R136: are bytes of a line of the scratchpad still to come for a transfer: in a request that is outstanding, or in an element
that is still to be asked for? -/
def lineOpen (t : Nat) (f : DmaXfer) (line : Nat) (s : State) : Bool :=
  let hit (o n : Nat) : Bool := n ≠ 0 && o / 64 ≤ line && line ≤ (o + n - 1) / 64
  (s.reqs.any fun e => match e.2.unit with | .dma u id sp => u = t && id = f.id && hit sp e.2.len | _ => false) ||
  (List.range (dmaCount f.desc - f.elem)).any fun i =>
    let skip := if i = 0 then f.byte else 0
    hit ((dmaElem f.desc (f.elem + i)).2 + skip) (f.desc.esize - skip)

/-- Runs of consecutive bytes. -/
def runsOf : List (Nat × Byte) → List (Nat × List Byte)
  | [] => []
  | e :: l =>
    match runsOf l with
    | [] => [(e.1, [e.2])]
    | r :: rs => if r.1 = e.1 + 1 then (e.1, e.2 :: r.2) :: rs else (e.1, [e.2]) :: r :: rs

/-- R124, R136: write what has come for the lines of a transfer that are whole, or, when the tile halts (R166), for all of them. -/
def dmaFlush (t id : Nat) (all : Bool) (s : State) : State :=
  match (getT t s).xfers.find? (·.id = id) with
  | none => s
  | some f =>
    let out := f.come.filter fun e => all || !lineOpen t f (e.1 / 64) s
    if out.isEmpty then s
    else
      let rest := f.come.filter fun e => !(out.any fun o => o.1 = e.1)
      unitWrite t f.pc (runsOf out) (bump (tileF t Reg.TILE_DMA_READ_BYTES) out.length
        (modT t (fun x => { x with xfers := x.xfers.map fun y => if y.id = id then { y with come := rest } else y }) s))

/-- A response to a tile's DMA engine (R136, R166, R332): read data goes to the scratchpad line by line, and a failure faults the
tile. In HALTED the data is discarded. -/
def dmaTileResp (t id sp : Nat) (r : Req) (st : RStatus) (data : List Byte) (s : State) : State :=
  let x := getT t s
  match x.xfers.find? (·.id = id) with
  | none => s
  | some f =>
    let s := modT t (fun x => { x with xfers := x.xfers.map fun y => if y.id = id then { y with out := y.out - 1 } else y }) s
    if x.mode ≠ .running then modT t (fun x => { x with xfers := x.xfers.filter fun y => y.out ≠ 0 }) s
    else
      match st with
      | .uncorrectable a => tileFault t .dataUncorrectable f.pc a s
      | .refused | .noRoute => tileFault t .accessRefused f.pc r.gaddr s
      | .ok =>
        let s := match r.kind with
          | .read => dmaFlush t id false (modT t (fun x => { x with xfers := x.xfers.map fun y =>
              if y.id = id then { y with come := (data.mapIdx fun i b => (sp + i, b)).foldl (fun m e => putO m e.1 e.2) y.come }
              else y }) s)
          | _ => s
        dmaRetire t s

/-- A response to a WAITF poll (R162). -/
def waitfResp (t id : Nat) (st : RStatus) (data : List Byte) (s : State) : State :=
  let x := getT t s
  match x.waitf with
  | none => s
  | some f =>
    if f.req ≠ some id then s
    else match st with
      | .uncorrectable a => tileFault t .dataUncorrectable x.pc a s
      | .refused | .noRoute => tileFault t .accessRefused x.pc f.addr s
      | .ok =>
        if waitCond f.fn (BitVec.ofNat 64 (leNat data)) f.mask f.cmp then
          modT t (fun x => retire { x with waitf := none }) s
        else modT t (fun x => { x with waitf := some { f with req := none } }) s

/-- SIGNAL_INCREMENT_APPLIED (R160): the oldest pending increment whose transfers have all completed is applied. -/
def execSignalIncrementApplied (t : TileId) (s : State) : Ans :=
  let x := getT t.val s
  match x.sigQ, x.kern with
  | g :: l, some k =>
    if x.stopping ∨ x.xfers.any (fun f => g.waits.contains f.id) then .next s
    else .next (modK k (fun y => { y with ctrs := smMod 0 y.ctrs g.ctr fun n => min (n + 1) (2 ^ 32 - 1) })
      (setT t.val { x with sigQ := l } s))
  | _, _ => .next s

/-- WAITD_SATISFIED (R159). -/
def execWaitdSatisfied (t : TileId) (s : State) : Ans := .next (issueAt .waitd t.val s)

/-- WAITS_SATISFIED (R161). -/
def execWaitsSatisfied (t : TileId) (s : State) : Ans := .next (issueAt .waits t.val s)

/-- WAITF_POLL (R162): the interval of at least 256 ns has elapsed and the word is read again, after the check of its address at the source
(R31, R579). -/
def execWaitfPoll (t : TileId) (s : State) : Ans :=
  let x := getT t.val s
  match x.waitf with
  | some f =>
    .next (if f.req.isSome || !timerDue .pollFlag t.val 256 s then s
      else if addrOk x.part f.addr 8 false s then pollWaitf t.val f s
      else tileFault t.val .accessRefused x.pc f.addr s)
  | none => .next s

/-- ATOM_RETURN (R156): the old value of the request returns; Sd is written unless a later instruction has written it. One that returns after
its tile has stopped is discarded (R166). -/
def execAtomReturn (t : TileId) (req : Nat) (s : State) : Ans :=
  let x := getT t.val s
  match lookO s.reqs req, x.atoms.find? (·.req = req) with
  | some r, some a =>
    match r.stage with
    | .done st data =>
      let x := { x with atoms := x.atoms.filter fun e => e.req ≠ req }
      let s := delReq req s
      match st with
      | .ok =>
        match a.rd with
        | some d => .next (setT t.val (if a.live then wrSAt a.seq x d (BitVec.ofNat 64 (leNat data)) else x) s)
        | none => .next (setT t.val x s)
      | .uncorrectable b => .next (tileFault t.val .dataUncorrectable a.pc b (setT t.val x s))
      | _ => .next (tileFault t.val .accessRefused a.pc r.gaddr (setT t.val x s))
    | _ => .next s
  | some r, none => if r.unit = .atom t.val && !reqOpen r then .next (delReq req s) else .next s
  | none, _ => .next s

/-- R138: has the tile drained? -/
def drained (x : Tile) : Bool :=
  x.matQ.isEmpty && x.rdQ.isEmpty && x.vecQ.isEmpty && x.xfers.isEmpty && x.sigQ.isEmpty && x.atoms.isEmpty &&
  x.crema.isEmpty

/-- END_DRAIN_DONE (R112, R138): the tile has drained and is released; the kernel ends with its last tile. -/
def execEndDrainDone (t : TileId) (s : State) : Ans :=
  let x := getT t.val s
  match x.kern with
  | some k =>
    if x.mode = .running ∧ x.draining ∧ !x.stopping ∧ drained x then
      .next (kernelEnd k (tileIdle t.val (setT t.val { x with
        mode := .idle, kern := none, draining := false, prec := 0 } s)))
    else .next s
  | none => .next s

/-- R166: what an ended operation leaves in the accumulators: its rows after `n` whole steps, from none to all. The rule speaks of
each row; the model takes one number of steps for all rows (DESIGN CHOICE, log entry 56). -/
def endedRows (o : MatOp) (n : Nat) : List (Nat × B32) :=
  if n = 0 then [] else (o.partials ++ [o.writes]).getD (n - 1) o.writes

/-- R166: the lines of a write that an ended read-out has made: `keep i` says that line `i` holds its new contents. -/
def endedLines (keep : Nat → Bool) (w : Nat × List Byte) : List (Nat × List Byte) :=
  (linesOf w.1 w.2.length).mapIdx (fun i l => (i, l)) |>.filterMap fun e =>
    let lo := max w.1 (e.2 * 64)
    let hi := min (w.1 + w.2.length) ((e.2 + 1) * 64)
    if keep e.1 then some (lo, sliceB w.2 (lo - w.1) (hi - lo)) else none

/-- R166: apply the ended read-out of a tile, with a free choice for each line of it. -/
def endReadout (t : Nat) (o : RdOp) (s : State) : State :=
  o.writes.foldl (fun s w =>
    let n := w.2.length / 4096 + 1
    let s' := unitWrite t o.pc (endedLines (fun i => (Config.freeValue (s.freeCtr + i / 64)).getLsbD (i % 64)) w) s
    { s' with freeCtr := s'.freeCtr + n }) s

/-- R166: the executing matrix operation ends at a free step boundary; its steps are counted. No part of the quantised copy of a
QMMUL is written, on which R166 is silent (log entry 56). -/
def endMatrix (t : Nat) (s : State) : State :=
  let x := getT t s
  match x.matQ with
  | o :: _ =>
    let n := freeNat s % (matSteps o + 1)
    let s := matCount t n o s
    tick1 (setT t { matLeave t n o (accPut x (endedRows o n)) s with matQ := [] } s)
  | [] => s

/-- R166: the executing vector instruction completes. -/
def endVector (t : Nat) (s : State) : State :=
  let x := getT t s
  match x.vecQ with
  | o :: _ =>
    let s := unitWrite t o.pc o.spW (setT t (vecApply { x with vecQ := [] } o) s)
    countSat t o.satQuant 0 o.nanZ (bump (tileF t Reg.TILE_VECTOR_CYCLES) o.cycles s)
  | [] => s

/-- TILE_HALTED (R166): a stopping tile enters HALTED. Its executing matrix operation ends at a free step boundary, its
read-out at free lines, its vector instruction completes, and the data that has come for its transfers is written; what is still
outstanding is discarded when it comes, and its transfers are in flight until then (R168). The quantised copy of a QMMUL that ends so
is not written (DESIGN CHOICE, log entry 56). -/
def execTileHalted (t : TileId) (s : State) : Ans :=
  let x := getT t.val s
  if x.mode ≠ .running ∨ !x.stopping then .next s
  else
    let s := endVector t.val (endMatrix t.val s)
    let s := x.rdQ.foldl (fun s o => endReadout t.val o s) s
    let s := x.xfers.foldl (fun s f => dmaFlush t.val f.id true s) s
    let s := modT t.val (fun x => { x with
      mode := .halted, matQ := [], rdQ := [], vecQ := [], atoms := [], crema := [], stopping := false
      xfers := x.xfers.filter fun f => f.out ≠ 0
      waitKind := if x.waitKind = 15 then 0 else x.waitKind }) s
    match x.kern with
    | some k => .next (kernelEnd k s)
    | none => .next s

/-- R116: a cleared tile: scratchpad, accumulators, vector registers and Crema entries are zero. -/
def tileCleared (x : Tile) : Tile :=
  { x with sp := [], spErr := [], spFix := [], rowTab := [], acc := [], v := [], crema := [] }

/-- TILE_CLEAR_DONE (R116): a clear completes after 1,024 cycles. The tile goes on to its kernel, or to IDLE after a reset; one whose kernel has been
stopped meanwhile is HALTED (R166). -/
def execTileClearDone (t : TileId) (s : State) : Ans :=
  let x := getT t.val s
  if x.mode ≠ .clearing ∨ smLook 0 s.cyc (tileDie t.val) / 100 < x.clearAt + 1024 then .next s
  else
    let s := bump (tileF t.val Reg.TILE_CLEAR_COUNT) 1 (setT t.val { tileCleared x with
      mode := if x.stopping then .halted else .idle, stopping := false, waitKind := 0 } s)
    match x.kern with
    | some k => .next (if x.stopping then kernelEnd k s else kernelRun k s)
    | none => .next (tileIdle t.val s)

/-- SP_CORRECTED_WRITEBACK (R232): a bank writes a corrected word back. `flips` bits of the word go bad behind it
(R231, log entry 17). -/
def execSpCorrectedWriteback (t : TileId) (word : Fin 49152) (flips : Nat) (s : State) : Ans :=
  .next (spUpset t.val word.val flips (modT t.val (fun x =>
    if x.spFix.contains word.val then
      { x with spErr := smPut 0 x.spErr word.val 0, spFix := x.spFix.filter (· ≠ word.val) }
    else x) s))

/-! ### Drill spacing -/

/-- R119: a start's offset ends and it joins admission. -/
def drillJoin (now : Nat) (o : MatOp) : MatOp :=
  match o.drill with | .offset c due => if due ≤ now then { o with drill := .admission c } else o | _ => o

/-- DRILL_OFFSET_EXPIRE (R119): a start's offset ends, once its time has passed, and it joins admission. -/
def execDrillOffsetExpire (t : TileId) (s : State) : Ans :=
  .next (modT t.val (fun x => { x with matQ := x.matQ.map (drillJoin s.tb) }) s)

/-- The cycle of the request of a tile's start that waits for admission. -/
def drillAsked (x : Tile) : Option Nat :=
  if x.mode = .running && !x.stopping then
    x.matQ.findSome? fun o => match o.drill with | .admission c => some c | _ => none
  else none

/-- R117: is the start of tile `t`, requested at cycle `c`, the next one of its die to be admitted? Starts are admitted in
the order of their requests, and those of one cycle in increasing tile number. -/
def drillFirst (t c : Nat) (s : State) : Bool :=
  s.tiles.all fun (e : Nat × Tile) =>
    match drillAsked e.2 with
    | some b => tileDie e.1 ≠ tileDie t || c < b || (b = c && t ≤ e.1)
    | none => true

/-- May a start of the tile that waits be admitted now (R117)? -/
def drillMay (t : Nat) (s : State) : Bool :=
  match drillAsked (getT t s) with
  | some c => drillFirst t c s && drillRoom (tileDie t) s
  | none => false

/-- DRILL_START_ADMIT (R117): a start that waits is admitted when it is the first of its die's waiting starts and the
die's WAVE_SIZE allows it. -/
def execDrillStartAdmit (t : TileId) (s : State) : Ans :=
  if drillMay t.val s then
    .next (drillAdmit t.val (drillLeave (tileDie t.val) s))
  else .next s

/-- DRILL_RAMP_STEP (R118): an admitted start reaches cycle 128 (half of the array) or 256 (the full array). -/
def execDrillRampStep (t : TileId) (s : State) : Ans :=
  let now := smLook 0 s.cyc (tileDie t.val) / 100
  .next (modT t.val (fun x =>
    if x.ramp = 1 && x.rampAt + 128 ≤ now then { x with ramp := 2 }
    else if x.ramp = 2 && x.rampAt + 256 ≤ now then { x with ramp := 0 }
    else x) s)

/-! ### The Crema lane -/

/-- R84, R85: the largest error, and the largest of this cycle, which a clear leaves. -/
def maxErrNote (f : Fld) (e : B32) (s : State) : State :=
  let m (n : Nat) : Nat := (maxErr (BitVec.ofNat 32 n) e).toNat
  { setF f (m (getF f s)) s with sameCyc := smMod 0 s.sameCyc (fldKey f) m }

/-- CREMA_COMPARE_DONE (R70 to R72): the oldest sample not yet compared: its error is counted, and an excursion opens a
burst; in ESCALATE mode an excursion leaves the sample to its escalation. -/
def execCremaCompareDone (t : TileId) (s : State) : Ans :=
  let x := getT t.val s
  match x.crema.find? (fun c => !c.excursion) with
  | none => .next s
  | some c =>
    if x.mode ≠ .running ∨ x.stopping then .next s
    else
      let y := sampleResults c
      let e := sampleError y.1 y.2
      let exc := isExcursion x.prec e
      let esc := exc && pcMode x.prec = 2
      let crema := if esc then x.crema.map fun d => if d.blk = c.blk then { d with excursion := true } else d
        else x.crema.filter fun d => d.blk ≠ c.blk
      let bursts := if exc && pcBurst x.prec ≠ 0 then x.bursts ++ [(c.blk + 65, c.blk + 64 + pcBurst x.prec)] else x.bursts
      let s := setT t.val { x with crema := crema, bursts := bursts } s
      let f := tileF t.val
      let s := bump (f Reg.TILE_PREC_SAMPLES) 1 s
      let s := if exc then bump (f Reg.TILE_PREC_EXCURSIONS) 1 s else s
      let s := maxErrNote (f Reg.TILE_PREC_MAX_ERR) e s
      .next (kernelCount t.val (fun k => { k with
        samples := k.samples + 1, excursions := k.excursions + (if exc then 1 else 0), maxErr := maxErr k.maxErr e }) s)

/-- CREMA_ESCALATION_DONE (R73, R74, R76): the FP8 recomputation of an escalated block replaces its rows, once the block's
own operation has written them; it has taken 2 × B_F4 cycles of the matrix engine. -/
def execCremaEscalationDone (t : TileId) (s : State) : Ans :=
  let x := getT t.val s
  match x.crema.find? (·.excursion) with
  | none => .next s
  | some c =>
    if x.mode ≠ .running ∨ x.stopping ∨ x.matQ.any (fun o => o.blk = c.blk) then .next s
    else
      let r := escalate (pcCeil x.prec) c
      let k := (c.ref.headD []).length
      let f := tileF t.val
      let s := setT t.val { accPut x r.1 with
        crema := x.crema.filter fun d => d.blk ≠ c.blk, lastStep := some (smLook 0 s.cyc (tileDie t.val) / 100) } s
      let s := bump (f Reg.TILE_MATRIX_CYCLES) (2 * (k / 256 * max c.m 85) - c.cut.1)
        (bump (f Reg.TILE_MATRIX_MACS) (c.m * 160 * k - c.cut.2) (bump (f Reg.TILE_PREC_ESCALATIONS) 1 s))
      .next (countSat t.val r.2 0 0 (kernelCount t.val (fun k => { k with escalations := k.escalations + 1 }) s))

end Sys2Proof.Machine
end

