-- ==== Sys2Proof/Machine/Commands.lean ====
section
/-! DEFINITION. Machine/Commands.lean: the commands of a ring (R262 to R271), what they read and write (R173 to R181,
R229, R230), and the ring timeout (R277). -/

namespace Sys2Proof.Machine

/-! ### Starting a command -/

/-- R263: is the opcode assigned? -/
def opAssigned (op : Nat) : Bool := op ≤ 9 || op = 0x10 || op = 0x20

/-- R262: does the header keep its rules? -/
def headerOk (d : List Byte) : Bool := dField d 1 1 < 4 && dZero d 2 2

/-- What a check answers: no objection, or a status and the global address of the access that is refused. -/
abbrev Chk := Option (Nat × Nat)

/-- The first objection. -/
def orElse (a b : Chk) : Chk := match a with | some x => some x | none => b

/-- An objection when the condition holds. -/
def refuse (status : Nat) (b : Bool) : Chk := if b then some (status, 0) else none

/-- R266, R267: a broken layout. -/
def badLayout (b : Bool) : Chk := refuse 0x0102 b

/-- R267, step 7: a refused access. -/
def noAccess (part g n : Nat) (wr : Bool) (s : State) : Chk :=
  if addrOk part g n wr s then none else some (0x0104, g % 2 ^ 55)

/-- R268, R274, R280, R497, R507, R544: may a ring start its next command? At most 8 are in progress. No command starts while the
module is not READY, in a snapshot freeze, while an eject runs, or when its completion could not be posted. -/
def ringReady (r : Nat) (s : State) : Bool :=
  let x := getR r s
  getF Reg.BOOT_STAT_STATE s = 2 && !s.frozen && getF Reg.MGT_EJECT_STAT_STATE s = 0 && x.enable && !x.halted && !x.blocked && (getC x.ctx s).st = .active && x.next ≠ x.producer &&
  !cqStuck x s && (x.cmds.filter (·.st = .running)).length < 8 && !x.cmds.any (cmdHolds r · s)

/-- R258, R215: the descriptor of command `i`, or the block that does not decode. -/
def readDesc (r i : Nat) (s : State) : Except Nat (List Byte) × State :=
  let x := getR r s
  hbmRead (x.base + i % 2 ^ x.log2 * 64) 64 (0x280 + x.die) s

/-- A ring takes its next command. -/
def pushCmd (r : Nat) (d : List Byte) (s : State) : State :=
  modR r (fun x => { x with
    next := (x.next + 1) % 2 ^ 32, cmds := x.cmds ++ [⟨x.next, d, .running, .nothing, false, none, false, []⟩] }) s

/-- R267: the ring of `r` starts a command of opcode `op`. `check` is what R267 asks from step 3 on, the header apart;
`go` is the command's work. A descriptor that cannot be read, or whose opcode is unassigned, is taken by whichever start
comes. The bytes of a descriptor that cannot be read are free values. -/
def startCmd (op r : Nat) (check : List Byte → State → Chk) (go : Nat → List Byte → State → State) (s : State) : State :=
  if !ringReady r s then s
  else
    let i := (getR r s).next
    let c := readDesc r i s
    match c.1 with
    | .error b =>
      finishCmd r i 0x0202 0 (ownGlobal b s) false false
        (pushCmd r ((List.range 64).map (Config.misread c.2.freeCtr)) (tick1 c.2))
    | .ok d =>
      let o := dField d 0 1
      if (dField d 1 1) % 2 = 1 ∧ (getR r s).cmds.any (·.st = .running) then s
      else if !opAssigned o then finishCmd r i 0x0101 0 0 false false (pushCmd r d c.2)
      else if o ≠ op then s
      else
        let s := pushCmd r d c.2
        let bad := orElse (refuse 0x0103 (o = 0x20 && ringPart r s ≠ 0)) (orElse (badLayout !headerOk d) (check d s))
        match bad with
        | some e => finishCmd r i e.1 0 e.2 false false s
        | none => go i d s

/-- End a command with success. -/
def cmdOk (r i aux : Nat) (s : State) : State := finishCmd r i 0 aux 0 false false s

/-- CMD_NOP (R263). -/
def execCmdNop (ring : RingId) (s : State) : Ans :=
  .next (startCmd 0 ring.val (fun d _ => badLayout !dZero d 8 56) (fun i _ s => cmdOk ring.val i 0 s) s)

/-- R265: the check of a DMA. -/
def dmaCheck (part : Nat) (d : List Byte) (s : State) : Chk :=
  let n := dField d 24 8
  orElse (badLayout (2 ^ 40 ≤ n || n = 0 || 2 ≤ dField d 32 1 || !dZero d 33 31))
    (orElse (noAccess part (dField d 8 8) n false s) (noAccess part (dField d 16 8) n true s))

/-- Give a command its work. -/
def setWork (r i : Nat) (w : CWork) (s : State) : State := modCmd r i (fun c => { c with work := w }) s

/-- CMD_DMA (R265): its requests are made by DMA_REQUEST_ISSUE. -/
def execCmdDma (ring : RingId) (s : State) : Ans :=
  .next (startCmd 2 ring.val (dmaCheck (ringPart ring.val s)) (fun i d s =>
    setWork ring.val i (.copy (dField d 8 8) (dField d 16 8) (dField d 24 8) (dField d 32 1 = 1) 0 0 0) s) s)

/-- CMD_WRITE_VALUE (R266): an 8-byte DMA. -/
def execCmdWriteValue (ring : RingId) (s : State) : Ans :=
  .next (startCmd 3 ring.val (fun d s =>
      orElse (badLayout (dField d 8 8 % 8 ≠ 0 || !dZero d 24 40)) (noAccess (ringPart ring.val s) (dField d 8 8) 8 true s))
    (fun i d s => sendWrites ring.val i (setWork ring.val i (.writes [(dField d 8 8, sliceB d 16 8)] 0 0 false) s)) s)

/-- R162, R266: the next poll of a WAIT_VALUE, a FRESH read by the command processor. Its address is checked again at the source
(R31, R579). -/
def pollValue (r i : Nat) (s : State) : State :=
  match getCmd r i s with
  | some c =>
    match c.st, c.work with
    | .running, .poll a v m fn false =>
      match noAccess (ringPart r s) a 8 false s with
      | some e => finishCmd r i e.1 0 e.2 false false s
      | none =>
        (makeReq (.command r i 0 (0x280 + (getR r s).die)) .read a 8 true false (ringPart r s)
          (timerSet .pollValue (cmdKey r i) (setWork r i (.poll a v m fn true) s))).2
    | _, _ => s
  | none => s

/-- CMD_WAIT_VALUE (R266). -/
def execCmdWaitValue (ring : RingId) (s : State) : Ans :=
  .next (startCmd 4 ring.val (fun d s =>
      orElse (badLayout (dField d 8 8 % 8 ≠ 0 || 3 ≤ dField d 32 1 || !dZero d 33 31))
        (noAccess (ringPart ring.val s) (dField d 8 8) 8 false s))
    (fun i d s => pollValue ring.val i (setWork ring.val i
      (.poll (dField d 8 8) (BitVec.ofNat 64 (dField d 16 8)) (BitVec.ofNat 64 (dField d 24 8)) (dField d 32 1) false)
      s)) s)

/-- WAIT_VALUE_POLL (R266): the interval of at least 256 ns has elapsed and the word is read again. -/
def execWaitValuePoll (ring : RingId) (s : State) : Ans :=
  .next (ringHeld (.waitValuePoll ring) ring.val
    (fun s => (getR ring.val s).cmds.foldl (fun (s : State) c =>
      if timerDue .pollValue (cmdKey ring.val c.idx) 256 s then pollValue ring.val c.idx s else s) s) s)

/-- R266, R157: the layout of an ACQUIRE. -/
def acquireBad (d : List Byte) : Bool :=
  let a := dField d 8 8
  let n := dField d 16 8
  match dField d 32 1 with
  | 0 => a ≠ 0 || n ≠ 0
  | 1 => 2 ^ 15 ≤ a || n ≠ 0
  | 2 => 2 ^ 55 ≤ a || 2 ^ 40 < gOff a + n
  | _ => true

/-- CMD_ACQUIRE (R266, R367): both dies' caches. -/
def execCmdAcquire (ring : RingId) (s : State) : Ans :=
  .next (startCmd 5 ring.val (fun d _ => badLayout (acquireBad d || !dZero d 24 8 || !dZero d 33 31))
    (fun i d s =>
      let a := dField d 8 8
      let f (die : Nat) (s : State) : State := acquire die (dField d 32 1) (a % 32768) a (dField d 16 8) s
      cmdOk ring.val i 0 (f 1 (f 0 s))) s)

/-- R229: the rules of a TRIM's range and, for partitions 1 to 7, of its windows. -/
def trimCheck (part : Nat) (d : List Byte) (s : State) : Chk :=
  let o := dField d 8 8
  let n := dField d 16 8
  orElse (refuse 0x010E (o % 4096 ≠ 0)) (orElse (badLayout (2 ^ 40 ≤ o))
    (orElse (refuse 0x010E (n = 0 || n % 4096 ≠ 0 || !hbmBacked o n s)) (orElse (badLayout !dZero d 24 40)
      (match (if part = 0 then [] else List.range (n / 4096)).find? fun g => !winOk part (o + 4096 * g) 4096 false true s with
        | some g => some (0x0104, ownGlobal (o + 4096 * g) s)
        | none => none))))

/-- R371: in an ORDERED ring, is a write of an earlier command to this module still to be performed? -/
def trimWaits (r i : Nat) (s : State) : Bool :=
  !(getR r s).unordered && (getR r s).cmds.any fun c =>
    c.idx ≠ i && (match c.st with | .running => cmdWritesTo r c (ownChip s) s | .done .. => false)

/-- CMD_TRIM (R229, R230, R371): in an ORDERED ring it starts only when no earlier command still has a write to this
module. Its granules clear one after the other, each at an instant of its own (`trimStep`). -/
def execCmdTrim (ring : RingId) (s : State) : Ans :=
  if trimWaits ring.val (getR ring.val s).next s then .next s
  else .next (startCmd 6 ring.val (trimCheck (ringPart ring.val s)) (fun i d s =>
    setWork ring.val i (.trim (dField d 8 8 / 4096) (dField d 16 8 / 4096))
      (modCmd ring.val i (fun c => { c with started := true, effect := true }) s)) s)

/-- R229, R230: 10 ns of a TRIM: 16 granules, which is 6 GiB in 1 µs, and a free number more; with the last it completes
(log entry 63). -/
def trimStep (r i g n : Nat) (s : State) : State :=
  let m := min n (16 + freeNat s)
  let s := forN m (fun j => granuleTrim (g + j)) (tick1 s)
  if m = n then cmdOk r i 0 s else setWork r i (.trim (g + m) (n - m)) s

/-! ### Commands that gather what they read -/

/-- Make the reads of a command's fetch that have not been made; a refused address ends the command. -/
def gatherAsk (r i : Nat) : Nat → State → State
  | 0, s => s
  | n + 1, s =>
    match getCmd r i s with
    | some c =>
      match c.st, c.work with
      | .running, .gather st f data =>
        match f.want[f.asked]? with
        | none => s
        | some p =>
          match noAccess (ringPart r s) p.1 p.2 false s with
          | some e => finishCmd r i e.1 0 e.2 false false s
          | none =>
            let s := setWork r i (.gather st { f with asked := f.asked + 1 } data) s
            let q := makeReq (.command r i f.asked (0x280 + (getR r s).die)) .read p.1 p.2 false false (ringPart r s) s
            gatherAsk r i n q.2
      | _, _ => s
    | none => s

/-- Start a stage of gathering. -/
def gatherStage (r i stage : Nat) (rs : List (Nat × Nat)) (data : List (List Byte)) (s : State) : State :=
  let f := fetchOf rs
  gatherAsk r i f.want.length (setWork r i (.gather stage f data) s)

/-- End a command that is refused. -/
def refuseCmd (r i : Nat) (e : Nat × Nat) (s : State) : State := finishCmd r i e.1 0 e.2 false false s

/-- A block or word of memory that a command wants: its refusal, or the next stage. -/
def gatherOr (r i : Nat) (e : Chk) (go : State → State) (s : State) : State :=
  match e with
  | some e => refuseCmd r i e s
  | none => go s

/-- R171: the maximum sequence of the variant. -/
def maxSeq (s : State) : Nat := 2 ^ getF Reg.LIC_CAP0_MAX_SEQ_LOG2 s

/-- R266: the block of an APPEND or ROTARY_TABLE lies in HBM of this module. -/
def blockCheck (d : List Byte) (s : State) : Chk :=
  let b := dField d 8 8
  badLayout (2 ^ 55 ≤ b || gChip b ≠ ownChip s || hbmEnd < gOff b + 64 || !dZero d 16 48)

/-- R172: a frequency table with a bit set in [63:40]. -/
def freqBad (l : List Byte) : Bool := (List.range (l.length / 8)).any fun i => 2 ^ 40 ≤ dField l (8 * i) 8

/-- The frequency of pair `i`. -/
def freqAt (l : List Byte) (i : Nat) : Nat := dField l (8 * i) 8

/-- Writes of a run of bytes, split at 512-byte blocks of its destination. -/
def writeRuns (g : Nat) (l : List Byte) : List (Nat × List Byte) :=
  (pieces512 g l.length).map fun p => (p.1, sliceB l (p.1 - g) p.2)

/-! ### ROTARY_TABLE -/

/-- R175: the layout of a table block and its positions. -/
def rotaryBlock (l : List Byte) (s : State) : Chk :=
  orElse (badLayout (dField l 0 8 % 64 ≠ 0 || 2 ^ 24 ≤ dField l 8 4 || 4096 ≤ dField l 12 2))
    (orElse (refuse 0x010A (dField l 14 1 ≠ 7 && dField l 14 1 ≠ 8))
      (orElse (badLayout (dField l 15 1 ≠ 0 || dField l 16 8 % 64 ≠ 0 || !dZero l 24 40))
        (refuse 0x0109 (maxSeq s < dField l 8 4 + dField l 12 2 + 1))))

/-- R175: the bytes of the rows of a table: cosines, then sines. -/
def rotaryRows (l freq : List Byte) (d : SeqDesc) : List Byte :=
  let enc (x : B32) : List Byte := if dField l 14 1 = 8 then leBytes 4 x.toNat else leBytes 2 (cvt32Bf x).toNat
  ((List.range (dField l 12 2 + 1)).map fun t =>
    let ph := (List.range (d.d / 2)).map fun i => phase (dField l 8 4 + t) (freqAt freq i)
    ((ph.map fun p => enc (rotaryOf false p)) ++ ph.map fun p => enc (rotaryOf true p)).flatten).flatten

/-- The next stage of a ROTARY_TABLE: `l` is what the last stage has gathered. -/
def rotaryNext (r i stage : Nat) (data : List (List Byte)) (l : List Byte) (s : State) : State :=
  let part := ringPart r s
  match stage with
  | 0 => gatherOr r i (rotaryBlock l s) (gatherStage r i 1 [(dField l 0 8, 64)] [l]) s
  | 1 =>
    match seqParse l with
    | none => refuseCmd r i (0x010A, 0) s
    | some d => gatherOr r i (refuse 0x010A (d.freqBase % 64 ≠ 0)) (gatherStage r i 2 [(d.freqBase, d.d * 4)] (data ++ [l])) s
  | _ =>
    match seqParse (data.getD 1 []) with
    | none => s
    | some d =>
      let b := data.getD 0 []
      let rows := rotaryRows b l d
      gatherOr r i (orElse (refuse 0x010A (freqBad l)) (noAccess part (dField b 16 8) rows.length true s))
        (fun s => sendWrites r i (setWork r i (.writes (writeRuns (dField b 16 8) rows) 0 0 false) s)) s

/-- CMD_ROTARY_TABLE (R173 to R175). -/
def execCmdRotaryTable (ring : RingId) (s : State) : Ans :=
  .next (startCmd 8 ring.val blockCheck (fun i d s => gatherStage ring.val i 0 [(dField d 8 8, 64)] [] s) s)

/-! ### APPEND -/

/-- R180: the layout of an append block and its positions. -/
def appendBlock (l : List Byte) (s : State) : Chk :=
  orElse (badLayout (dField l 0 8 % 64 ≠ 0 || 2 ^ 24 ≤ dField l 8 4 || 4096 ≤ dField l 12 2 || dField l 15 1 ≠ 0 ||
    dField l 16 8 % 64 ≠ 0 || !dZero l 24 40)) (refuse 0x0109 (maxSeq s < dField l 8 4 + dField l 12 2 + 1))

/-- The tokens of an append block: first position and count. -/
def appendSpan (b : List Byte) : Nat × Nat := (dField b 8 4, dField b 12 2 + 1)

/-- The pages that an append touches: the first and the number. -/
def appendPages (b : List Byte) : Nat × Nat :=
  let p := appendSpan b
  (p.1 / 256, (p.1 + p.2 - 1) / 256 + 1 - p.1 / 256)

/-- R181: one element in the page format, and whether it saturated. -/
def kvConvert (f : Fmt) (x : B32) : List Byte × Nat :=
  match fmtElem f with
  | none => (leBytes 2 (cvt32Bf x).toNat, 0)
  | some el =>
    let r := quantElem el false 0 x ⟨0, 0, 0⟩
    (leBytes 1 r.1, r.2.sat)

/-- R173, R175, R176: rotate one head of a key by the angles of a position. -/
def rotateHead (d : SeqDesc) (freq : List Byte) (pos : Nat) (h : List B32) : List B32 :=
  (List.range h.length).map fun e =>
    let i := if d.split then e % (d.d / 2) else e / 2
    let second := if d.split then d.d / 2 ≤ e else e % 2 = 1
    let a := h.getD (if d.split then i else 2 * i) 0
    let b := h.getD (if d.split then i + d.d / 2 else 2 * i + 1) 0
    let c := rotaryOf false (phase pos (freqAt freq i))
    let sn := rotaryOf true (phase pos (freqAt freq i))
    if second then add32 (mul32 a sn) (mul32 b c) else sub32 (mul32 a c) (mul32 b sn)

/-- R181: a token row as it is written, from `src` bytes of BF16 elements, and its saturated elements. -/
def tokenRow (d : SeqDesc) (freq : List Byte) (key : Bool) (pos : Nat) (src : List Byte) : List Byte × Nat :=
  let xs := (b16s src).map cvtBf32
  let ys := if key && d.rotateK then ((chunks d.d d.h xs).map (rotateHead d freq pos)).flatten else xs
  let cs := ys.map (kvConvert d.fmt)
  ((cs.map (·.1)).flatten, cs.foldl (fun n c => n + c.2) 0)

/-- The token rows of an append, page by page, key rows before value rows, and how many elements saturated. -/
def appendRows (b : List Byte) (d : SeqDesc) (ptes freq src : List Byte) : List (Nat × List Byte) × Nat :=
  let span := appendSpan b
  let pg := appendPages b
  let w := rowW d
  let sw := d.h * d.d * 2
  let row (key : Bool) (n : Nat) : (Nat × List Byte) × Nat :=
    let p := span.1 + n
    let x := tokenRow d freq key p (sliceB src (((if key then 0 else span.2) + n) * sw) sw)
    ((dField ptes ((p / 256 - pg.1) * 8) 8 + (if key then 0 else 256 * w) + p % 256 * w, x.1), x.2)
  let rows := (List.range pg.2).flatMap fun j =>
    let ns := (List.range span.2).filter fun n => (span.1 + n) / 256 = pg.1 + j
    ns.map (row true) ++ ns.map (row false)
  (rows.map (·.1), rows.foldl (fun n x => n + x.2) 0)

/-- Rows that lie one behind the other are one run. -/
def joinRuns : List (Nat × List Byte) → List (Nat × List Byte)
  | [] => []
  | e :: l =>
    match joinRuns l with
    | [] => [e]
    | r :: rs => if r.1 = e.1 + e.2.length then (e.1, e.2 ++ r.2) :: rs else e :: r :: rs

/-- R195: the write requests of an append: each 512-byte code block of a run is written by one. -/
def appendWrites (rows : List (Nat × List Byte)) : List (Nat × List Byte) :=
  ((joinRuns rows).map fun r => writeRuns r.1 r.2).flatten

/-- R176, R178, R180: what an APPEND reads once it has its sequence descriptor: page-table entries, frequency table and
source rows. -/
def appendReads (b : List Byte) (d : SeqDesc) : List (Nat × Nat) :=
  let pg := appendPages b
  [(d.ptBase + pteIndex d (dField b 14 1) pg.1 * 8, pg.2 * 8)] ++
  (if d.rotateK then [(d.freqBase, d.d * 4)] else []) ++ [(dField b 16 8, (appendSpan b).2 * d.h * d.d * 4)]

/-- R178, R196: the first page-table entry of an append that breaks the rule: its global address. -/
def appendBadPte (b : List Byte) (d : SeqDesc) (ptes : List Byte) : Option Nat :=
  let pg := appendPages b
  ((List.range pg.2).find? fun n => !pteOk (dField ptes (8 * n) 8)).map fun n =>
    d.ptBase + (pteIndex d (dField b 14 1) pg.1 + n) * 8

/-- R198: `n` token rows are written. Which walker of the ring's die counts them is a free value (log entry 26). -/
def appendCount (r n : Nat) (s : State) : State :=
  let ws := (List.range 8).filterMap fun w =>
    if (getF Reg.FP_COUNT_WALKERS s).testBit ((getR r s).die * 8 + w) then some ((getR r s).die * 8 + w) else none
  if ws.isEmpty || n = 0 then s
  else bump (kvwF (ws.getD (freeNat s % ws.length) 0) Reg.KVW_APPEND_TOKENS) n (tick1 s)

/-- R198: what is left of the rows of an append once `n` bytes at `g` are written. -/
def rowsLeft (g n : Nat) (l : List (Nat × Nat × Nat)) : List (Nat × Nat × Nat) :=
  (l.map fun x => (x.1, x.2.1, x.2.2 - (min (g + n) (x.1 + x.2.1) - max g x.1))).filter fun x => x.2.2 ≠ 0

/-- R198: a write of an append has been performed: the rows that it completes are counted. -/
def appendWritten (r i : Nat) (c : RCmd) (g n : Nat) (s : State) : State :=
  let left := rowsLeft g n c.rows
  appendCount r (c.rows.length - left.length) (modCmd r i (fun c => { c with rows := left }) s)

/-- The next stage of an APPEND: `l` is what the last stage has gathered. -/
def appendNext (r i stage : Nat) (data : List (List Byte)) (l : List Byte) (s : State) : State :=
  match stage with
  | 0 => gatherOr r i (appendBlock l s) (gatherStage r i 1 [(dField l 0 8, 64)] [l]) s
  | 1 =>
    match seqParse l with
    | none => refuseCmd r i (0x010A, 0) s
    | some d =>
      let b := data.getD 0 []
      let pg := appendPages b
      gatherOr r i (refuse 0x010A (d.layers ≤ dField b 14 1 || d.pagesMax < pg.1 + pg.2))
        (gatherStage r i 2 (appendReads b d) (data ++ [l])) s
  | _ =>
    match seqParse (data.getD 1 []) with
    | none => s
    | some d =>
      let b := data.getD 0 []
      let np := (appendPages b).2 * 8
      let nf := if d.rotateK then d.d * 4 else 0
      let ptes := l.take np
      let freq := sliceB l np nf
      match appendBadPte b d ptes with
      | some g => finishCmd r i 0x0203 0x0204 g false false s
      | none =>
        if freqBad freq then refuseCmd r i (0x010A, 0) s
        else
          let x := appendRows b d ptes freq (l.drop (np + nf))
          let ws := appendWrites x.1
          match ws.find? fun w => !addrOk (ringPart r s) w.1 w.2.length true s with
          | some w => refuseCmd r i (0x0104, w.1) s
          | none => sendWrites r i (modCmd r i (fun c => { c with
              work := .writes ws 0 x.2 false, rows := x.1.map fun w => (w.1, w.2.length, w.2.length) }) s)

/-- CMD_APPEND (R180, R181, R199). -/
def execCmdAppend (ring : RingId) (s : State) : Ans :=
  .next (startCmd 7 ring.val
    (fun d s => orElse (blockCheck d s) (refuse 0x010D !getB Reg.LIC_CAP0_WALKERS s))
    (fun i d s => gatherStage ring.val i 0 [(dField d 8 8, 64)] [] s) s)

/-! ### KERNEL -/

/-- R264, R267: the layout of a KERNEL, in increasing byte order. -/
def kernelLayout (d : List Byte) (s : State) : Chk :=
  let prog := dField d 8 8
  orElse (badLayout (prog % 512 ≠ 0 || 2 ^ 55 ≤ prog || gChip prog ≠ ownChip s || hbmEnd ≤ gOff prog ||
      dField d 32 8 % 32 ≠ 0 || dField d 40 8 % 64 ≠ 0))
    (orElse (refuse 0x010B (1024 < dField d 48 2))
      (badLayout (dField d 50 2 = 0 || 272 < dField d 50 2 || 4 ≤ dField d 52 1 || !dZero d 53 3 ||
        dField d 56 4 = 0 || 2 ^ 20 < dField d 56 4 || dField d 56 4 % 8 ≠ 0 || !dZero d 60 4)))

/-- R79, R78, R199: the precision control word and the capabilities. -/
def kernelCaps (d : List Byte) (s : State) : Chk :=
  let p : B64 := BitVec.ofNat 64 (dField d 24 8)
  orElse (refuse 0x0106 (pcInvalid p))
    (orElse (refuse 0x0107 (pcMode p = 2 && pcRequire p && !getB Reg.LIC_CAP0_ESCALATE s))
      (refuse 0x010D (dField d 48 2 ≠ 0 && !getB Reg.LIC_CAP0_WALKERS s)))

/-- R267, steps 7 and 8: the addresses, in byte order, and the tile count. -/
def kernelAccess (part die : Nat) (d : List Byte) (s : State) : Chk :=
  orElse (noAccess part (dField d 8 8) (dField d 56 4) false s)
    (orElse (noAccess part (dField d 16 8) 8 false s)
      (orElse (if dField d 32 8 = 0 then none else noAccess part (dField d 32 8) 32 true s)
        (orElse (if dField d 48 2 = 0 then none else noAccess part (dField d 40 8) (dField d 48 2 * 64) false s)
          (refuse 0x0108 (placeMost part (dField d 52 1) die s < dField d 50 2)))))

/-- R171, R183: one binding against the rules that need no descriptor. -/
def bindStatus (l : List Byte) (count part idx : Nat) (s : State) : Chk :=
  orElse (refuse 0x010B (dField l 0 8 % 64 ≠ 0 || 2 ^ 25 ≤ dField l 8 4))
    (orElse (refuse 0x0109 (maxSeq s < dField l 8 4))
      (refuse 0x010B (bindParse l count (fun _ => 0) part idx).isNone))

/-- R176, R183: one binding with its descriptor's bytes. -/
def bindCheck (l desc : List Byte) (count part idx : Nat) : Chk :=
  match seqParse desc, bindParse l count (fun _ => 0) part idx with
  | some q, some b => refuse 0x010B !bindOk b q
  | none, _ => some (0x010A, 0)
  | _, none => some (0x010B, 0)

/-- Entry `n` of a binding table. -/
def bindAt (table : List Byte) (n : Nat) : List Byte := sliceB table (64 * n) 64

/-- R267, step 6: how many bindings come before the first that breaks a rule without its descriptor. -/
def bindsGood (table : List Byte) (nbind count part : Nat) (s : State) : Nat :=
  ((List.range nbind).takeWhile fun n => (bindStatus (bindAt table n) count part n s).isNone).length

/-- R267, step 6: the first objection among the bindings, then sifting (R192). -/
def bindsCheck (table descs : List Byte) (nbind count part : Nat) (s : State) : Chk :=
  let good := bindsGood table nbind count part s
  let first := (List.range good).foldl (fun (a : Chk) n =>
    orElse a (bindCheck (bindAt table n) (sliceB descs (64 * n) 64) count part n)) none
  orElse first (orElse (if good < nbind then bindStatus (bindAt table good) count part good s else none)
    (refuse 0x010C (!getB Reg.LIC_CAP0_SIFT s &&
      (List.range nbind).any fun n => dField (bindAt table n) 14 1 / 16 % 2 = 1)))

/-- R78: the precision control word as the kernel runs under it, and whether its mode was demoted. -/
def kernelPrec (d : List Byte) (s : State) : B64 × Bool :=
  let p : B64 := BitVec.ofNat 64 (dField d 24 8)
  if pcMode p = 2 && !getB Reg.LIC_CAP0_ESCALATE s then (p ^^^ 3, true) else (p, false)

/-- R112, R113: a KERNEL that has passed its checks waits for tiles. -/
def kernelWait (r i : Nat) (d table : List Byte) (s : State) : State :=
  let p := kernelPrec d s
  let k : Kernel := {
    ring := r, idx := i, ctx := (getR r s).ctx, part := ringPart r s, prog := dField d 8 8, len := dField d 56 4
    arg := dField d 16 8, prec := p.1, demoted := p.2, report := dField d 32 8, bindings := dField d 40 8
    nbind := dField d 48 2, table := table, count := dField d 50 2, place := dField d 52 1, phase := .waiting
    since := s.kernelSeq, waitAt := s.tb, tiles := [] }
  setWork r i .kernel (setK (cmdKey r i) k { s with kernelSeq := s.kernelSeq + 1 })

/-- The last checks of a KERNEL, and its wait. -/
def kernelGo (r i : Nat) (d table : List Byte) (s : State) : State :=
  gatherOr r i (kernelAccess (ringPart r s) (getR r s).die d s) (kernelWait r i d table) s

/-- The next stage of a KERNEL that has bindings: its table, then the sequence descriptors. -/
def kernelNext (r i stage : Nat) (d : List Byte) (data : List (List Byte)) (l : List Byte) (s : State) : State :=
  let part := ringPart r s
  let nbind := dField d 48 2
  let count := dField d 50 2
  match stage with
  | 0 =>
    let good := bindsGood l nbind count part s
    if good = 0 then gatherOr r i (bindsCheck l [] nbind count part s) (kernelGo r i d l) s
    else gatherStage r i 1 ((List.range good).map fun n => (dField (bindAt l n) 0 8, 64)) [l] s
  | _ =>
    let table := data.getD 0 []
    gatherOr r i (bindsCheck table l nbind count part s) (kernelGo r i d table) s

/-- CMD_KERNEL (R264, R267): with bindings it first reads what step 6 needs. -/
def execCmdKernel (ring : RingId) (s : State) : Ans :=
  let r := ring.val
  .next (startCmd 1 r (fun d s => orElse (kernelLayout d s) (kernelCaps d s))
    (fun i d s =>
      let n := dField d 48 2 * 64
      if n = 0 then kernelGo r i d [] s
      else if addrOk (ringPart r s) (dField d 40 8) n false s then gatherStage r i 0 [(dField d 40 8, n)] [] s
      else gatherOr r i (kernelAccess (ringPart r s) (getR r s).die d s) (fun s => s) s) s)

/-! ### Requests and responses of commands -/

/-- R265: the next piece of a DMA command: within one block at both ends. -/
def copyPiece (src dst len pos : Nat) : Nat :=
  min (len - pos) (min (512 - (src + pos) % 512) (512 - (dst + pos) % 512))

/-- R265: the next read of a DMA command. -/
def copyIssue (r i : Nat) (s : State) : State :=
  match getCmd r i s with
  | some c =>
    match c.work with
    | .copy src dst len fresh pos out wrote =>
      if pos = len ∨ c.fail.isSome then s
      else match dmaChan r i s with
        | none => s
        | some x =>
          let n := copyPiece src dst len pos
          let q := makeReq (.command r i pos (0x200 + x.1)) .read (src + pos) n fresh false (ringPart r s)
            (setWork r i (.copy src dst len fresh (pos + n) (out + 1) wrote) x.2)
          q.2
    | _ => s
  | none => s

/-- A command processor makes what requests it can for a command. -/
def ringIssue (r i : Nat) (s : State) : State :=
  match getCmd r i s with
  | some c =>
    match c.work with
    | .copy .. => copyIssue r i s
    | .writes .. => sendWrites r i s
    | _ => s
  | none => s

/-- The next request of a DMA engine or a command. -/
def dmaIssue (src : DmaSrc) (s : State) : State :=
  match src with
  | .tile t x => dmaTileRequest t.val x s
  | .ring r idx => ringIssue r.val idx.toNat s

/-- R236: a line of the cached copy, if any, that the next request reads fails its parity. -/
def dmaParity (src : DmaSrc) (s : State) : State :=
  match src with
  | .tile t x =>
    match (getT t.val s).xfers.find? (·.id = x) with
    | some f =>
      let p := dmaPiece f
      if f.write || f.fresh then s else rrcParity (tileDie t.val) p.1 p.2.2 (getT t.val s).part s
    | none => s
  | .ring r idx =>
    match getCmd r.val idx.toNat s with
    | some c =>
      match c.work with
      | .copy a _ _ fresh pos _ _ =>
        if fresh then s else rrcParity (getR r.val s).die (a + pos) (512 - (a + pos) % 512) (ringPart r.val s) s
      | _ => s
    | none => s

/-- DMA_REQUEST_ISSUE (R153, R265): the DMA engine of a tile, or the channel of a command, makes its next request. With
`parity` the cached copy that it reads has failed its parity, and is fetched again as a miss (R236). -/
def execDmaRequestIssue (src : DmaSrc) (parity : Bool) (s : State) : Ans :=
  let t := dmaIssue src s
  .next (if parity && t.nextReq ≠ s.nextReq then dmaIssue src (dmaParity src s) else t)

/-- What follows when a command's fetch is complete. -/
def gatherDone (r i stage : Nat) (c : RCmd) (data : List (List Byte)) (l : List Byte) (s : State) : State :=
  match (c.desc.headD 0).toNat with
  | 1 => kernelNext r i stage c.desc data l s
  | 7 => appendNext r i stage data l s
  | _ => rotaryNext r i stage data l s

/-- The status and DETAIL of a failed request (R215, R331). -/
def respFail (r : Req) : RStatus → Option (Nat × Nat)
  | .ok => none
  | .uncorrectable a => some (0x0202, a)
  | _ => some (0x0104, r.gaddr)

/-- R265: the end of a DMA command, when nothing of it is outstanding. -/
def copySettle (r i : Nat) (s : State) : State :=
  match getCmd r i s with
  | some c =>
    match c.work with
    | .copy _ _ len _ _ out wrote =>
      if out ≠ 0 then s
      else match c.fail with
        | some e => finishCmd r i e.1 0 e.2 c.effect false s
        | none => if wrote = len then cmdOk r i 0 s else s
    | _ => s
  | none => s

/-- A response to a DMA command: read data is written on; the last write of an ORDERED ring's command to another chip
carries the fence flag (R270). -/
def copyResp (r i pos code : Nat) (c : RCmd) (q : Req) (st : RStatus) (data : List Byte) (s : State) : State :=
  match c.work with
  | .copy src dst len fresh p out wrote =>
    match respFail q st, q.kind with
    | none, .read =>
      if c.fail.isSome then copySettle r i (setWork r i (.copy src dst len fresh p (out - 1) wrote) s)
      else
        let n := data.length
        let s := modCmd r i (fun c => { c with work := .copy src dst len fresh p out (wrote + n), started := true }) s
        let fence := !(getR r s).unordered && gChip dst ≠ ownChip s && wrote + n = len
        let w := makeReq (.command r i pos code) (.write data) (dst + pos) n false fence (ringPart r s) s
        w.2
    | e, _ =>
      copySettle r i (modCmd r i (fun c => { c with
        work := .copy src dst len fresh p (out - 1) wrote, fail := if c.fail.isSome then c.fail else e
        effect := c.effect || st = .ok }) s)
  | _ => s

/-- A response to a command's write: the command ends with its last. -/
def writesResp (r i : Nat) (c : RCmd) (q : Req) (st : RStatus) (s : State) : State :=
  match c.work with
  | .writes todo out aux alert =>
    let fail := if c.fail.isSome then c.fail else respFail q st
    let s := modCmd r i (fun c => { c with
      work := .writes todo (out - 1) aux alert, fail := fail, effect := c.effect || st = .ok }) s
    let s := if st = .ok && !c.rows.isEmpty then appendWritten r i c q.gaddr q.len s else s
    if 1 < out ∨ !todo.isEmpty then s
    else match fail with
      | some e => finishCmd r i e.1 0 e.2 (c.effect || st = .ok) alert s
      | none => finishCmd r i 0 aux 0 false alert s
  | _ => s

/-- A response to a request of command `i` of ring `r`. -/
def commandResp (r i pos code : Nat) (q : Req) (st : RStatus) (data : List Byte) (s : State) : State :=
  match getCmd r i s with
  | none => s
  | some c =>
    match c.st, c.work with
    | .running, .gather stage f old =>
      match respFail q st with
      | some e => refuseCmd r i e s
      | none =>
        let f := { f with got := putO f.got pos data }
        let s := setWork r i (.gather stage f old) s
        if fetchDone f then gatherDone r i stage c old (fetchBytes f) s else gatherAsk r i 1 s
    | .running, .copy .. => copyResp r i pos code c q st data s
    | .running, .writes .. => writesResp r i c q st s
    | .running, .poll a v m fn _ =>
      match respFail q st with
      | some e => refuseCmd r i e s
      | none =>
        if waitCond fn (BitVec.ofNat 64 (leNat data)) m v then cmdOk r i 0 s else setWork r i (.poll a v m fn false) s
    | _, _ => s

/-! ### The ring timeout -/

/-- R277: the oldest command of a ring is stopped: a KERNEL that runs stops its tiles and bindings and ends with them; a collective leaves its queue or frees its
footprint (R415, R416); any other command ends at once with TIMEOUT, after the header of its dump (R465). -/
def timeoutHead (r : Nat) (c : RCmd) (seq : Nat) (s : State) : State :=
  let key := cmdKey r c.idx
  let other (s : State) : State :=
    finishCmd r c.idx 0x0205 0 0 true false (dumpCommand r c.idx 0x0205 seq { delK key s with
      reqs := s.reqs.filter fun e => reqCmd e.2.unit s ≠ some key || e.2.stage = .queued || e.2.stage = .sent })
  match getK key s with
  | some k =>
    if waitsForTiles k then
      other (mapTiles (fun _ x => if x.reserved = some key then { x with reserved := none } else x) s)
    else
      match c.work with
      | .kernel =>
        kernelEnd key (stopKernel key true (dropBindings key (setK key { k with timedOut := true, timedAt := s.tb, logSeq := seq } s)))
      | _ => other s
  | none =>
    match collAt r c.idx s with
    | some e =>
      finishCmd r c.idx 0x0205 0 0 e.2.wrote false (dumpCommand r c.idx 0x0205 seq { s with colls := smDel s.colls e.1 })
    | none => other s

/-- R167: the timeout finds a kernel whose TILE_FAULT completion is not written yet: its dump names the RING_HALTED record. -/
def timeoutFaulted (key seq : Nat) (k : Kernel) (s : State) : State :=
  let k' := { k with timedOut := true, timedAt := s.tb, logSeq := seq, dumped := true }
  if k.dumped then
    writeDump k.ctx [dumpHeader k.tiles.length k.ring k.idx k.ctx 0x0201 (stampVal .arith s) seq] (stampUse .arith (setK key k' s))
  else dumpKernel k' 0x0201 (setK key k' s)

/-- R167, R277, R278: the command that a ring's timeout covers: the oldest that has not completed, or a KERNEL whose TILE_FAULT is
still to be written. -/
def ringCovers (r : Nat) (s : State) : Option RCmd :=
  (getR r s).cmds.find? fun c =>
    match c.st with
    | .running => true
    | .done status _ _ _ _ => status = 0x0201 && (getK (cmdKey r c.idx) s).isSome

/-- R259, R274, R277: 10 ns of a ring's timeout. It runs from when the command became the oldest, with the TIMEOUT_MS of that instant,
and not in CQ_BLOCKED. -/
def ringTimer (r : Nat) (s : State) : State :=
  let x := getR r s
  match ringCovers r s with
  | none => if x.timer.isNone then s else setR r { x with timer := none } s
  | some c =>
    match x.timer with
    | some m =>
      if m.1 ≠ c.idx then setR r { x with timer := some (c.idx, 0, x.timeoutMs) } s
      else if x.blocked then s
      else setR r { x with timer := some (m.1, m.2.1 + 10, m.2.2) } s
    | none => setR r { x with timer := some (c.idx, 0, x.timeoutMs) } s

/-- R274, R230: what 10 ns do in a ring: it enters CQ_BLOCKED when its completions cannot be posted, its timeout runs, and its TRIMs
go on. -/
def ringTick (s : State) (r : Nat) : State :=
  let x := getR r s
  if !x.enable then s
  else
    let s := ringTimer r (if cqStuck x s && !s.frozen then cqBlock r 0 s else s)
    x.cmds.foldl (fun s c => match c.st, c.work with
      | .running, .trim g n => trimStep r c.idx g n s
      | _, _ => s) s

/-- R277: has the timeout of a ring run out for the command? -/
def timedOut (x : Ring) (idx : Nat) : Bool :=
  match x.timer with
  | some m => m.1 = idx && m.2.2 * 1000000 ≤ m.2.1
  | none => false

/-- R277: the ring halts, and the command that the timeout covers is stopped. -/
def ringTimeout (r : Nat) (s : State) : State :=
  let x := getR r s
  match ringCovers r s with
  | none => s
  | some c =>
    if getF Reg.BOOT_STAT_STATE s ≠ 2 ∨ !x.enable ∨ x.halted ∨ x.blocked ∨ !timedOut x c.idx ∨
        (getC x.ctx s).st = .resetting then s
    else
      let p := ringPart r s
      let seq := getF Reg.LOG_TAIL s
      let s := logEv .ringHalted (some p) (some x.ctx) r (leBytes 4 c.idx) s
      let s := modR r (fun x => { x with halted := true, haltSeq := seq, haltNote := true }) s
      match c.st, getK (cmdKey r c.idx) s with
      | .done .., some k => timeoutFaulted (cmdKey r c.idx) seq k s
      | _, _ => timeoutHead r c seq s

/-- RING_TIMEOUT_EXPIRE (R277, R278): once TIMEOUT_MS has run, the ring halts, its oldest command is stopped, and the context is faulted when the
completion is written. A timeout of a context that is being reset has no effect (R470). -/
def execRingTimeoutExpire (ring : RingId) (s : State) : Ans :=
  .next (heldOr (.ringTimeoutExpire ring) (ringTimeout ring.val) s)

end Sys2Proof.Machine
end

