-- ==== Sys2Proof/Machine/LinkCode.lean ====
section
/-! DEFINITION. Machine/LinkCode.lean: the coding of a link: control blocks and the scrambler (R290 to R292), groups and
their check bytes (R297, R298), the control word (R300), and packet headers (R325, R326). -/

namespace Sys2Proof.Machine

/-- R292: the COMMA block, byte 0 first. -/
def commaBlock : List Byte := leBytes 8 0xD269B45A2D964BE7

/-- R292: CRC-16 with polynomial 0x1021 and initial value 0xFFFF. -/
def crc16 (l : List Byte) : Nat :=
  l.foldl (fun (c : Nat) (b : Byte) => (List.range 8).foldl (fun c _ =>
    if c / 2 ^ 15 % 2 = 1 then (c * 2 % 2 ^ 16).xor 0x1021 else c * 2 % 2 ^ 16) (c.xor (b.toNat * 256))) 0xFFFF

/-- R292: the SLEEP block. -/
def sleepBlock : List Byte := 0x5A :: List.replicate 7 0
/-- R292: the WAKE block, with the period position of the first group to follow. -/
def wakeBlock (pos : Nat) : List Byte := 0xA5 :: leBytes 4 pos ++ [0, 0, 0]
/-- R292: the LEGACY_IDLE block: 1 request, 2 grant. -/
def legacyBlock (k : Nat) : List Byte := 0x3C :: leBytes 1 k ++ List.replicate 6 0

/-- R292: a LANE_MSG block: lane, kind and message. -/
def laneMsgBlock (lane kind msg : Nat) : List Byte :=
  let b := leBytes 1 0x8C ++ leBytes 1 (lane + kind * 32) ++ leBytes 4 msg
  b ++ leBytes 2 (crc16 b)

/-- R290: a data block. -/
def dataBlock (b : List Byte) : LBlock := ⟨0b01, b⟩
/-- R290: a control block. -/
def ctlBlock (b : List Byte) : LBlock := ⟨0b10, b⟩
/-- R292: a row of one control block on every lane. -/
def ctlRow (b : List Byte) : List LBlock := List.replicate 24 (ctlBlock b)
/-- R290: is a sync header valid? -/
def hdrOk (h : BitVec 2) : Bool := h = 0b01 || h = 0b10
/-- R293: 64 consecutive valid headers give a lane its lock. -/
def lockGained (hs : List (BitVec 2)) : Bool := hs.length = 64 && hs.all hdrOk
/-- R293: 16 invalid headers in 64 take it away. -/
def lockLost (hs : List (BitVec 2)) : Bool := hs.length = 64 && 16 ≤ (hs.filter (!hdrOk ·)).length

/-- R292: is the first byte that of a known control block? -/
def knownControl (b : Nat) : Bool := b = 0xE7 || b = 0x8C || b = 0x5A || b = 0xA5 || b = 0x3C

/-- R291: scramble one bit with 1 + x³⁹ + x⁵⁸: the output and the new state of the last 58 output bits. -/
def scrambleBit (st : Nat) (b : Bool) : Bool × Nat :=
  let o := (b ^^ st.testBit 38) ^^ st.testBit 57
  (o, (st * 2 + if o then 1 else 0) % 2 ^ 58)

/-- R291: scramble a byte, bit 0 first. -/
def scrambleByte (st : Nat) (b : Byte) : Byte × Nat :=
  let r := (List.range 8).foldl (fun (a : Nat × Nat) i =>
    let x := scrambleBit a.2 (b.getLsbD i)
    (if x.1 then a.1 + 2 ^ i else a.1, x.2)) (0, st)
  (BitVec.ofNat 8 r.1, r.2)

/-- R291: scramble bytes in order. -/
def scramble : Nat → List Byte → List Byte × Nat
  | st, [] => ([], st)
  | st, b :: l =>
    let x := scrambleByte st b
    let r := scramble x.2 l
    (x.1 :: r.1, r.2)

/-- R291: descramble one bit: the state is the last 58 bits received. -/
def descrambleBit (st : Nat) (b : Bool) : Bool × Nat :=
  ((b ^^ st.testBit 38) ^^ st.testBit 57, (st * 2 + if b then 1 else 0) % 2 ^ 58)

/-- R291: descramble a byte, bit 0 first. -/
def descrambleByte (st : Nat) (b : Byte) : Byte × Nat :=
  let r := (List.range 8).foldl (fun (a : Nat × Nat) i =>
    let x := descrambleBit a.2 (b.getLsbD i)
    (if x.1 then a.1 + 2 ^ i else a.1, x.2)) (0, st)
  (BitVec.ofNat 8 r.1, r.2)

/-- R291: descramble bytes in order. -/
def descramble : Nat → List Byte → List Byte × Nat
  | st, [] => ([], st)
  | st, b :: l =>
    let x := descrambleByte st b
    let r := descramble x.2 l
    (x.1 :: r.1, r.2)

/-- R298: multiply in GF(2⁸) with x⁸ + x⁴ + x³ + x² + 1. -/
def gfMul (a b : Nat) : Nat :=
  ((List.range 8).foldl (fun (x : Nat × Nat) i =>
    (if b.testBit i then x.1.xor x.2 else x.1, if x.2 < 128 then x.2 * 2 else (x.2 * 2).xor 0x11D)) (0, a)).1

/-- R298: α to a power. -/
def gfPow : Nat → Nat
  | 0 => 1
  | n + 1 => gfMul (gfPow n) 2

/-- R298: the generator's coefficients below its leading one, highest power first: the roots are α⁰ to α⁷. -/
def rsGen : List Nat :=
  ((List.range 8).foldl (fun (g : List Nat) i =>
    (List.zip (g ++ [0]) (0 :: g)).map fun p => p.1.xor (gfMul p.2 (gfPow i))) [1]).drop 1

/-- R298: the eight check bytes of RS(136,128). -/
def rsCheck (l : List Byte) : List Byte :=
  (l.foldl (fun (r : List Nat) (b : Byte) =>
    let f := b.toNat.xor (r.headD 0)
    let t := r.drop 1 ++ [0]
    if f = 0 then t else (List.zip t rsGen).map fun p => p.1.xor (gfMul f p.2)) (List.replicate 8 0)).map (BitVec.ofNat 8 ·)

/-! ### The decoder (R298) -/

/-- α⁰ to α²⁵⁴. -/
def gfPowers : List Nat := (List.range 255).map gfPow

/-- The inverse: the 254th power. -/
def gfInv (a : Nat) : Nat := (List.range 253).foldl (fun x _ => gfMul x a) a

/-- The value of a polynomial, lowest coefficient first. -/
def gfEval (p : List Nat) (x : Nat) : Nat := p.foldr (fun c v => c.xor (gfMul v x)) 0

/-- The syndromes of a received word, its first byte the highest coefficient: its values at α⁰ to α⁷. -/
def rsSyndromes (l : List Byte) : List Nat := (List.range 8).map fun i => gfEval (l.reverse.map BitVec.toNat) (gfPow i)

/-- The state of the Berlekamp–Massey recursion: the locator, its previous value, the number of errors, the gap since the last
change of length, and the discrepancy then. -/
structure BmState where
  c : List Nat
  b : List Nat
  len : Nat
  gap : Nat
  d : Nat

/-- Add polynomials. -/
def polyAdd (a b : List Nat) : List Nat :=
  (List.range (max a.length b.length)).map fun i => (a.getD i 0).xor (b.getD i 0)

/-- One step of the recursion, for syndrome `n`. -/
def bmStep (syn : List Nat) (x : BmState) (n : Nat) : BmState :=
  let d := (List.range (x.len + 1)).foldl (fun v i => v.xor (gfMul (x.c.getD i 0) (syn.getD (n - i) 0))) 0
  if d = 0 then { x with gap := x.gap + 1 }
  else
    let k := gfMul d (gfInv x.d)
    let c := polyAdd x.c (List.replicate x.gap 0 ++ x.b.map (gfMul k))
    if 2 * x.len ≤ n then ⟨c, x.c, n + 1 - x.len, 1, d⟩ else { x with c := c, gap := x.gap + 1 }

/-- The error locator of eight syndromes, and the number of errors that it stands for. -/
def rsLocator (syn : List Nat) : List Nat × Nat :=
  let x := (List.range 8).foldl (bmStep syn) ⟨[1], [1], 0, 1, 1⟩
  (x.c.take (x.len + 1), x.len)

/-- The error at power `j` (Forney's formula for roots from α⁰). -/
def rsError (syn loc : List Nat) (j : Nat) : Nat :=
  let inv := gfPowers.getD ((255 - j) % 255) 0
  let omega := (List.range 8).map fun i =>
    (List.range (i + 1)).foldl (fun v k => v.xor (gfMul (syn.getD k 0) (loc.getD (i - k) 0))) 0
  let odd := (List.range loc.length).map fun i => if i % 2 = 0 then loc.getD (i + 1) 0 else 0
  gfMul (gfPowers.getD (j % 255) 0) (gfMul (gfEval omega inv) (gfInv (gfEval odd inv)))

/-- R298: decode a word of RS(136,128): how many bytes are corrected and the 128 data bytes, or none when no codeword lies within
four byte errors. -/
def rsDecode (l : List Byte) : Option (Nat × List Byte) :=
  if l.length ≠ 136 then none
  else if rsCheck (l.take 128) = l.drop 128 then some (0, l.take 128)
  else
    let syn := rsSyndromes l
    let loc := rsLocator syn
    let js := (List.range 136).filter fun j => gfEval loc.1 (gfPowers.getD ((255 - j) % 255) 0) = 0
    if 4 < loc.2 || js.length ≠ loc.2 then none
    else
      let fixed := js.foldl (fun (l : List Byte) j =>
        l.set (135 - j) (l.getD (135 - j) 0 ^^^ BitVec.ofNat 8 (rsError syn loc.1 j))) l
      if rsCheck (fixed.take 128) = fixed.drop 128 then some (js.length, fixed.take 128) else none

/-- R300: CRC-32C. -/
def crc32c (l : List Byte) : Nat :=
  (l.foldl (fun (c : Nat) (b : Byte) => (List.range 8).foldl (fun c _ =>
    if c % 2 = 1 then (c / 2).xor 0x82F63B78 else c / 2) (c.xor b.toNat)) 0xFFFFFFFF).xor 0xFFFFFFFF

/-- R326: the header of a packet as a number. -/
def headerNat (p : Packet) : Nat :=
  let b (x : Bool) : Nat := if x then 1 else 0
  p.typ + p.vc * 2 ^ 8 + p.epoch * 2 ^ 11 + b p.fence * 2 ^ 12 + p.hlc * 2 ^ 13 + b p.mcast * 2 ^ 14 +
  p.part * 2 ^ 16 + p.hops * 2 ^ 24 + p.dst * 2 ^ 32 + p.src * 2 ^ 48 + p.unit * 2 ^ 64 + p.tag * 2 ^ 80 +
  p.len * 2 ^ 96 + p.status * 2 ^ 112 + p.addr * 2 ^ 128 + p.group * 2 ^ 192 + p.rlen * 2 ^ 208 + p.ctrl * 2 ^ 224 + p.zero

/-- R326: the packet that a header spells, without its payload; `zero` keeps what stands in the fields that must be zero. -/
def parseHeader (n : Nat) : Packet :=
  let b (i w : Nat) : Nat := n / 2 ^ i % 2 ^ w
  let p : Packet := ⟨b 0 8, b 8 3, b 11 1, b 12 1 = 1, b 13 1, b 14 1 = 1, b 16 3, b 24 8, b 32 15, b 48 15, b 64 12, b 80 16,
    b 96 10, b 112 8, b 128 40, b 192 12, b 208 10, b 224 8, 0, []⟩
  { p with zero := n - headerNat p }

/-- R326: the 32 bytes of a header. -/
def headerBytes (p : Packet) : List Byte := leBytes 32 (headerNat p)

/-- R325: the bytes that a packet takes on a link: header and padded payload. -/
def packetSize (p : Packet) : Nat := 32 + (p.len + 15) / 16 * 16

/-- R325: a packet on a link. -/
def packetBytes (p : Packet) : List Byte :=
  headerBytes p ++ (p.data ++ List.replicate (packetSize p - 32 - p.data.length) 0)

/-- R325: the packets in a run of packet bytes, and the bytes of one that goes on. -/
def splitPackets : Nat → List Byte → List Packet × List Byte
  | 0, l => ([], l)
  | n + 1, l =>
    let p := parseHeader (leNat (l.take 32))
    if l.length < 32 || l.length < packetSize p then ([], l)
    else
      let r := splitPackets n (l.drop (packetSize p))
      ({ p with data := (l.drop 32).take p.len } :: r.1, r.2)

/-- R300: bytes 3,056 to 3,067 of a group: the control word up to its CRC. -/
def controlBytes (g : Group) : List Byte :=
  let b (x : Bool) : Nat := if x then 1 else 0
  leBytes 2 g.seq ++ leBytes 2 g.ack ++ leBytes 2 (g.credA.1 + g.credA.2 * 8) ++ leBytes 2 (g.credB.1 + g.credB.2 * 8) ++
  leBytes 1 (b g.null + b g.nak * 2 + b g.fallow * 4 + b g.released * 8) ++ [0, 0, 0]

/-- R300: the control word of a group, from its 16 bytes; the group carries `body`. -/
def parseControl (b body : List Byte) : Group :=
  let c (o : Nat) : Nat × Nat := (leNat (sliceB b o 2) % 8, leNat (sliceB b o 2) / 8)
  let f := leNat (sliceB b 8 1)
  ⟨f.testBit 0, leNat (sliceB b 0 2), leNat (sliceB b 2 2), c 4, c 6, f.testBit 1, f.testBit 2, f.testBit 3, [], body⟩

/-- R297: the 3,072 bytes of a group. What fills the packet bytes behind the last packet is free (log entry 3). -/
def groupBytes (g : Group) (free : Nat) : List Byte :=
  let fill := (List.range (3056 - g.body.length)).map fun i => BitVec.ofNat 8 (Config.freeValue (free + i)).toNat
  let body := g.body ++ fill ++ controlBytes g
  body ++ leBytes 4 (crc32c body)

/-- R297: the data bytes of one lane: 16 blocks of 8. -/
def laneBytes (bytes : List Byte) (lane : Nat) : List Byte :=
  ((List.range 16).map fun row => sliceB bytes (row * 192 + lane * 8) 8).flatten

/-- R291, R298: the blocks of one lane of a group as they are sent, and the scrambler's state after it. -/
def laneCode (st : Nat) (data : List Byte) : List LBlock × Nat :=
  let x := scramble st data
  (((List.range 16).map fun i => dataBlock (sliceB x.1 (8 * i) 8)) ++ [dataBlock (rsCheck x.1)], x.2)

/-- R297, R298: the 24 lanes of a group, and the scramblers after it. -/
def groupLanes (bytes : List Byte) (scr : SMap Nat) : List (List LBlock) × SMap Nat :=
  let xs := (List.range 24).map fun i => laneCode (smLook 0 scr i) (laneBytes bytes i)
  (xs.map (·.1), (List.range 24).foldl (fun m i => smPut 0 m i ((xs.getD i ([], 0)).2)) scr)

/-! ### Receiving (R297, R298) -/

/-- R298: one lane of a group: the bytes corrected, or none when its codeword does not decode; its data bytes descrambled, and the
descrambler's state after it. Decoding comes first. -/
def laneDecode (st : Nat) (blocks : List LBlock) : Option Nat × List Byte × Nat :=
  let l := (blocks.map (·.bytes)).flatten
  match rsDecode l with
  | some x =>
    let y := descramble st x.2
    (some x.1, y.1, y.2)
  | none =>
    let y := descramble st (l.take 128)
    (none, y.1, y.2)

/-- What a receiver makes of a group: for each receive lane the bytes corrected, or none; the 3,072 bytes, and the descramblers. -/
structure RxWord where
  lanes : List (Option Nat)
  bytes : List Byte
  dscr : SMap Nat

/-- R296 to R298: decode the lanes of a group; `rev` says that lane i arrives on lane 23 − i. -/
def groupDecode (lanes : List (List LBlock)) (rev : Bool) (dscr : SMap Nat) : RxWord :=
  let xs := (List.range 24).map fun i => laneDecode (smLook 0 dscr i) (lanes.getD i [])
  let ys := if rev then xs.reverse else xs
  { lanes := xs.map (·.1)
    bytes := ((List.range 16).map fun row => (ys.map fun y => sliceB y.2.1 (8 * row) 8).flatten).flatten
    dscr := (List.range 24).foldl (fun m i => smPut 0 m i ((xs.getD i (none, [], 0)).2.2)) dscr }

/-- R298: how many codewords do not decode. -/
def RxWord.uncorr (x : RxWord) : Nat := (x.lanes.filter (·.isNone)).length

/-- R300, R302: does the CRC differ? -/
def RxWord.crcBad (x : RxWord) : Bool := crc32c (x.bytes.take 3068) ≠ leNat (x.bytes.drop 3068)

/-- R302: is the group bad? -/
def RxWord.bad (x : RxWord) : Bool := x.uncorr ≠ 0 || x.crcBad

/-- The group that good bytes hold; the first `used` of its packet bytes are packets'. -/
def RxWord.group (x : RxWord) (used : Nat) : Group := parseControl (x.bytes.drop 3056) (x.bytes.take (min used 3056))

/-! ### Test patterns (R307, R319) -/

/-- The next bit of PRBS31 (long), x³¹ + x²⁸ + 1, or of PRBS13, x¹³ + x¹² + x² + x + 1, and the new state (log entry 67). -/
def prbsBit (long : Bool) (st : Nat) : Bool × Nat :=
  let b := if long then st.testBit 30 ^^ st.testBit 27 else ((st.testBit 12 ^^ st.testBit 11) ^^ st.testBit 1) ^^ st.testBit 0
  (b, (st * 2 + if b then 1 else 0) % 2 ^ (if long then 31 else 13))

/-- The state after `n` bits. -/
def prbsSkip (long : Bool) : Nat → Nat → Nat
  | 0, st => st
  | n + 1, st => prbsSkip long n (prbsBit long st).2

/-- A byte of PRBS31, bit 0 first. -/
def prbsByte (st : Nat) : Byte × Nat :=
  let r := (List.range 8).foldl (fun (a : Nat × Nat) i =>
    let x := prbsBit true a.2
    (if x.1 then a.1 + 2 ^ i else a.1, x.2)) (0, st)
  (BitVec.ofNat 8 r.1, r.2)

/-- Bytes of PRBS31. -/
def prbsBytes : Nat → Nat → List Byte × Nat
  | 0, st => ([], st)
  | n + 1, st =>
    let x := prbsByte st
    let r := prbsBytes n x.2
    (x.1 :: r.1, r.2)

end Sys2Proof.Machine
end

