-- ==== Sys2Proof/Machine/Flash.lean ====
section
/-! DEFINITION. Machine/Flash.lean: configuration memory (R484), what the bundle's manifests say of a component (R531, R532,
R541), and the settings records of the links (R311, R312). -/

namespace Sys2Proof.Machine

/-- Bytes of configuration memory; an erased byte reads 0xFF. -/
def flashBytes (o n : Nat) (s : State) : List Byte := smLookList 0xFF s.flash o n
/-- Write them. -/
def flashPut (o : Nat) (l : List Byte) (s : State) : State := { s with flash := smPutList 0xFF s.flash o l }

/-- Are all bytes of a list zero? -/
def allZero (l : List Byte) : Bool := l.all (· == 0)

/-! ### The bundle -/

/-- R484: where a firmware slot lies. -/
def fwSlotBase (slot : Nat) : Nat := if slot = 0 then 0x10000 else 0x6010000
/-- The size of a slot. -/
abbrev slotSize : Nat := 0x6000000

/-- The first 8 KiB of a slot. -/
def manifest (slot : Nat) (s : State) : List Byte := flashBytes (fwSlotBase slot) 8192 s

/-- R532: the place of a component in the order of the table, and its largest LENGTH; none for another TYPE or
INSTANCE. -/
def component (typ inst : Nat) : Option (Nat × Nat) :=
  match typ, inst with
  | 1, 0 => some (0, 0x800000)
  | 2, 0 => some (1, 0x200000)
  | 3, i => if i < 6 then some (2 + i, 0x400000) else none
  | 4, 0 => some (8, 0x400000)
  | 5, 0 => some (9, 0x100000)
  | _, _ => none

/-- R532: entry `i` of a manifest. -/
def entryAt (m : List Byte) (i : Nat) : List Byte := sliceB m (64 + 64 * i) 64
/-- Its component. -/
def entryComp (e : List Byte) : Option (Nat × Nat) := component (dField e 0 1) (dField e 1 1)
/-- Its offset and length. -/
def entrySpan (e : List Byte) : Nat × Nat := (dField e 16 4, dField e 20 4)

/-- The entry of component `c`. -/
def entryOf (m : List Byte) (c : Nat) : List Byte :=
  (((List.range 10).map (entryAt m)).find? fun e => (entryComp e).map (·.1) = some c).getD []

/-- R532, R541: SETTINGS_FORMAT of component `c` in a slot. -/
def settingsFormat (slot c : Nat) (s : State) : Nat := dField (entryOf (manifest slot s) c) 2 2

/-! ### Link settings records (R311) -/

/-- R484: where the record of link `l` lies. -/
def linkRecAt (l : Nat) : Nat := 0xC0A0000 + 0x2000 * l

/-- The length of a record as the model lays it out (log entry 66). -/
abbrev linkRecLen : Nat := 1552

/-- R311: a record: CRC-32, the settings format, the partner serial, and 64 B for each lane, which hold the transmit FFE taps, the
12 taps of the receive FFE and 8 of the DFE, the clock phase and the laser bias (log entry 66). -/
def linkRecBytes (fmt serial : Nat) (lanes : List Byte) : List Byte :=
  let b := leBytes 2 fmt ++ [0, 0] ++ leBytes 8 serial ++ lanes
  leBytes 4 (crc32 b) ++ b

/-- The slot whose image the optical-engine DSP of link `l` runs (R538). -/
def dspSlot (l : Nat) (s : State) : Nat :=
  match s.mgmt.act with
  | some a => if s.mgmt.unitNew.testBit (2 + l) || (a.cold && getF Reg.FW_STAT_ACT_STATE s = 3) then a.slot
    else getF Reg.FW_STAT_ACTIVE_SLOT s
  | none => getF Reg.FW_STAT_ACTIVE_SLOT s

/-- The format of the settings records that the DSP of link `l` reads (R541). -/
def dspFormat (l : Nat) (s : State) : Nat := settingsFormat (dspSlot l s) (2 + l) s

/-- R311: is the record of link `l` whole: its CRC matches, and its zero field is zero? -/
def linkRecWhole (l : Nat) (s : State) : Bool :=
  let b := flashBytes (linkRecAt l) linkRecLen s
  dZero b 6 2 && crc32 (b.drop 4) = dField b 0 4

/-- R311: is the record valid: whole, and of the format that the DSP reads? -/
def linkRecOk (l : Nat) (s : State) : Bool :=
  linkRecWhole l s && dField (flashBytes (linkRecAt l) linkRecLen s) 4 2 = dspFormat l s

/-- The partner serial of the record. -/
def linkRecSerial (l : Nat) (s : State) : Nat := dField (flashBytes (linkRecAt l) 16 s) 8 8

/-- R311: firmware saves the record of link `l` as its lanes are set; the settings are free values. -/
def linkSave (l : Nat) (s : State) : State :=
  let lanes := (List.range 1536).map fun i => BitVec.ofNat 8 (Config.freeValue (s.freeCtr + i)).toNat
  let b := linkRecBytes (dspFormat l s) (getF (lnkF l Reg.LNK_PARTNER_SERIAL) s) lanes
  cfgPush ⟨4, [(linkRecAt l, b)], .linkRec l⟩ { s with freeCtr := s.freeCtr + 1536 }

/-- R311, R312: the record of link `l` is marked invalid, and a save of it that waits is dropped (log entry 66). -/
def linkForget (l : Nat) (s : State) : State :=
  setF (lnkF l Reg.LNK_STATE_SETTINGS_VALID) 0 (flashPut (linkRecAt l) (List.replicate 16 0xFF) { s with
    cfgQ := s.cfgQ.take 1 ++ (s.cfgQ.drop 1).filter fun o => o.after ≠ .linkRec l })

/-- R312: a DSP has swapped its image: a record that the new image cannot read is marked invalid. -/
def linkSwapped (l : Nat) (s : State) : State := if linkRecWhole l s && !linkRecOk l s then linkForget l s else s

end Sys2Proof.Machine
end

