-- ==== Sys2Proof/Machine/Link.lean ====
section
/-! DEFINITION. Machine/Link.lean: a link's state (R307 to R312, R317, R318), topology discovery (R505 to R509), and the
training events. -/

namespace Sys2Proof.Machine

/-! ### Links -/

/-- Link `l`. -/
def getL (l : Nat) (s : State) : Link := smLook {} s.links l
/-- Replace link `l`. -/
def setL (l : Nat) (x : Link) (s : State) : State := { s with links := smPut {} s.links l x }
/-- Change link `l`. -/
def modL (l : Nat) (f : Link → Link) (s : State) : State := setL l (f (getL l s)) s

/-- The code of a link state (R307). -/
def lstCode : LSt → Nat
  | .disabled => 0 | .powerUp => 1 | .clockDetect => 2 | .eqCoarse => 3 | .restore => 4 | .blockLock => 5 | .eqFine => 6
  | .identify => 7 | .held => 8 | .active => 9 | .retrain => 10 | .failed => 11 | .test => 12 | .legacyIdle => 13

/-- Set a field of link `l`. -/
def setLF (l : Nat) (f : Fld) (v : Nat) (s : State) : State := setF (lnkF l f) v s
/-- A field of link `l`. -/
def getLF (l : Nat) (f : Fld) (s : State) : Nat := getF (lnkF l f) s
/-- Count on link `l`. -/
def bumpLF (l : Nat) (f : Fld) (n : Nat) (s : State) : State := bump (lnkF l f) n s

/-- R521: the state that sensor 0x0200 + i shows, in the order listed. -/
def lstClass : LSt → Nat
  | .disabled => 1 | .held => 3 | .active => 4 | .failed => 5 | _ => 2

/-- Move a link to a state; entries to and exits from ACTIVE are logged. -/
def setLSt (l : Nat) (st : LSt) (s : State) : State :=
  let old := (getL l s).st
  let s := sensorNote (0x0200 + l) (lstClass st) (lstClass old) (timerSet .linkState l (timerSet .linkRate l (modL l (fun x => { x with
    st := st, downAt := if x.st = .active then s.tb else x.downAt }) s)))
  let s := if st = .failed then { s with mgmt := { s.mgmt with linkFail := s.mgmt.linkFail.lor (2 ^ l) } } else s
  if old = .active ∧ st ≠ .active then
    logEv .linkDown none none l [] (setLF l Reg.LNK_STATE_FALLOW_TX 0 (setLF l Reg.LNK_STATE_FALLOW_RX 0 s))
  else if old ≠ .active ∧ st = .active then logEv .linkUp none none l [] s
  else s

/-- R305: the replay buffer and the credits are discarded; both sequence counts and buffers start afresh. -/
def linkDiscard (l : Nat) (s : State) : State :=
  let s := bumpLF l Reg.LNK_DROPPED_GROUPS (getL l s).kept.length s
  modL l (fun x => { x with
    txSeq := 0, kept := [], sentAt := [], resend := none, resume := false, resends := 0, nakAck := 0, nakSame := 0, naks := [],
    rxNext := 0, missing := false, nakDue := false, ackDue := 0, used := [], owed := [], awake := false, brief := false,
    legacyReq := false, peerReleased := false, txPart := none, rxPart := [], idle := 0, wakeIn := 0 }) s

/-- An event of a link that the module has; LNK_STATE does not change while a snapshot freeze lasts (R280). -/
def lnkEv (i : Instr) (l : Nat) (f : State → State) (s : State) : Ans :=
  .next (if linkPresent l s then heldOr i f s else s)

/-- R574: are a link's lasers lit, those of its clock lanes and those of its data lanes? Not while the hub die's rails are off, nor once an
eject has turned them off (R544); a transmit direction in Fallow darkens its data lanes alone. -/
def lasersLit (l : Nat) (s : State) : Bool × Bool :=
  let on := linkPresent l s && s.powered && !s.pwr.hubDown && !s.mgmt.dark.testBit l &&
    (match (getL l s).st with | .disabled | .failed | .legacyIdle => false | _ => true)
  (on, on && getLF l Reg.LNK_STATE_FALLOW_TX s ≠ 1)

/-- Does the link run its lanes for blocks? -/
def lnkActive (l : Nat) (s : State) : Bool := (getL l s).st = .active

/-- R304: an ACTIVE link goes into RETRAIN. While a snapshot freeze lasts, that waits. -/
def retrainNow (l : Nat) (s : State) : State :=
  if !lnkActive l s then s
  else if s.frozen then { s with held := s.held ++ [.lnkRetrain ⟨l % 6, Nat.mod_lt _ (by decide)⟩] }
  else
    modL l (fun x => { x with resume := true, nakSame := 0, naks := [], resends := 0, brief := false, wakeIn := 0 })
      (setLSt l .retrain (bumpLF l Reg.LNK_RETRAINS 1 s))

/-- R304: this end starts a retrain, and asks its partner for one in a lane message. -/
def startRetrain (l : Nat) (s : State) : State :=
  if lnkActive l s && !s.frozen then emit (.laneMsg l .retrain) (retrainNow l s) else retrainNow l s

/-! ### Training -/

/-- R307, R310, R317: an attempt at CLOCK_DETECT. -/
def clockDetect (l : Nat) (fast : Bool) (s : State) : State :=
  setLSt l .clockDetect (modL l (fun x => { x with fast := fast, lx7Rate := x.want = 2, locked := 0 }) s)

/-- R317, R321: LNK_CFG.PARTNER takes effect at the start of a training; with AUTO the rate of an LX9 partner comes first. -/
def takePartner (l : Nat) (s : State) : State :=
  let p := getLF l Reg.LNK_CFG_PARTNER s
  modL l (fun x => { x with want := p, lx7Rate := p = 2 }) s

/-- R319: a test starts: its counts are zero, and the generators stand somewhere in their sequence, a free state. -/
def testStart (l : Nat) (running far : Bool) (s : State) : State :=
  let g := 1 + freeNat s % 8191
  setLF l Reg.LNK_TEST_STAT_RUNNING (if running then 1 else 0) (setLF l Reg.LNK_TEST_STAT_PARTNER_REFUSED 0
    (setLF l Reg.LNK_TEST_STAT_SYNC 0 (tick1 (modL l (fun x => { x with
      prbs := [], farLoop := far, farAsked := false, prbsTx := g }) s))))

/-- R307, R311: training starts from POWER_UP, on the fast path when that is wanted and the record allows it. -/
def trainOn (l : Nat) (fast : Bool) (s : State) : State :=
  let fast := fast && getLF l Reg.LNK_STATE_SETTINGS_VALID s = 1
  setLF l Reg.LNK_STATE_NO_PARTNER 0
    (setLSt l .powerUp (modL l (fun x => { x with fast := fast, fails := 0, lastChance := false, locked := 0 })
      (takePartner l s)))

/-- R307, R311, R318: training starts from POWER_UP, on the fast path when it may; or a test that MODE has waiting. -/
def startTraining (l : Nat) (full : Bool) (s : State) : State :=
  if getLF l Reg.LNK_TEST_CTL_MODE s ≠ 0 then
    testStart l (getLF l Reg.LNK_TEST_CTL_MODE s ≠ 3) false (setLSt l .test s)
  else trainOn l (!full && getLF l Reg.LNK_CFG_FAST s = 1) s

/-- R505: the result of a link in BOOT_TOPO: 3 bits each. -/
def topoRes (l : Nat) (s : State) : Nat := getF Reg.BOOT_TOPO_RESULT s / 8 ^ l % 8
/-- Set it. -/
def setTopo (l v : Nat) (s : State) : State :=
  let r := getF Reg.BOOT_TOPO_RESULT s
  setF Reg.BOOT_TOPO_RESULT (r - topoRes l s * 8 ^ l + v * 8 ^ l) s

/-- A link fails (R305, R310). -/
def linkFailed (l : Nat) (s : State) : State :=
  let s := logEv .linkTrainFailed none none l [] (setLSt l .failed (modL l (fun x => { x with locked := 0 }) (linkDiscard l s)))
  if topoRes l s = 1 then setTopo l 5 s else s

/-- R310, R311: an attempt, or a RETRAIN, has failed with a cause. -/
def trainFail (l cause : Nat) (s : State) : State :=
  let x := getL l s
  let stale := x.fast && (x.st = .blockLock || x.st = .eqFine || cause = 7)
  let cause := if stale then 7 else cause
  let s := bumpLF l Reg.LNK_TRAIN_FAILS 1 (setLF l Reg.LNK_STATE_LAST_FAIL cause s)
  let s := if stale then logEv .linkSettingsStale none none l [] s else s
  if x.st = .retrain then clockDetect l false (modL l (fun x => { x with lastChance := true }) (takePartner l s))
  else if x.lastChance then linkFailed l s
  else if 2 ≤ x.fails then linkFailed l (modL l (fun x => { x with fails := 0 }) s)
  else clockDetect l false (modL l (fun x => { x with fails := x.fails + 1 }) s)

/-! ### Topology discovery -/

/-- R324: the size of the dimension of a link. -/
def dimSize (l : Nat) (s : State) : Nat :=
  if l / 2 = 0 then getF Reg.FAB_TOPO_SX s else if l / 2 = 1 then getF Reg.FAB_TOPO_SY s else getF Reg.FAB_TOPO_SZ s

/-- The module's coordinate in the dimension of a link. -/
def ownCoord (l : Nat) (s : State) : Nat :=
  if l / 2 = 0 then getF Reg.SYS_CHIP_X s else if l / 2 = 1 then getF Reg.SYS_CHIP_Y s else getF Reg.SYS_CHIP_Z s

/-- R324, R505: the chip that a link is expected to lead to. -/
def neighbour (l : Nat) (s : State) : Nat :=
  let n := dimSize l s
  let c := if l % 2 = 0 then (ownCoord l s + 1) % n else (ownCoord l s + n - 1) % n
  let w := if l / 2 = 0 then 1024 else if l / 2 = 1 then 32 else 1
  ownChip s - ownCoord l s * w + c * w

/-- R505: compare a link that is HELD with the expected topology. -/
def topoCompare (l : Nat) (s : State) : State :=
  setTopo l (if getLF l Reg.LNK_PARTNER_VALID s = 0 then 4
    else if getLF l Reg.LNK_PARTNER_CHIP s = neighbour l s then 2 else 3) s

/-- R509: a TOPO_PROBE (0x10) or TOPO_REPLY (0x11) to a chip. -/
def topoPacket (kind dst : Nat) (s : State) : State :=
  let d := [getF Reg.FAB_TOPO_SX s, getF Reg.FAB_TOPO_SY s, getF Reg.FAB_TOPO_SZ s].map (BitVec.ofNat 8 ·) ++
    List.replicate 5 0 ++ leBytes 8 (getF Reg.LIC_SERIAL s)
  sendPacket 8 { packet0 with
    typ := 7, vc := 4, dst := dst, src := ownChip s, unit := 0x3F0, len := 16, ctrl := kind, data := d } s

/-- R308, R506, R509: a HELD link is released to ACTIVE, and its neighbour is probed. -/
def releaseLink (l : Nat) (s : State) : State :=
  let s := timerSet .probe l (setLSt l .active (modL l (fun x => { x with released := true, probes := 1 }) s))
  topoPacket 0x10 (getLF l Reg.LNK_PARTNER_CHIP s) s

/-- R511: the length of the step in progress is recorded. -/
def stepDone (n : Nat) (s : State) : State :=
  setF (fldNth Reg.BOOT_STEP_MS (n - 1)) ((s.tb - s.bootAt - s.bootWait) / 1000000) s

/-- R493: a step begins. -/
def stepBegin (n : Nat) (s : State) : State :=
  { setF Reg.BOOT_STAT_STEP n s with bootAt := s.tb, bootWait := 0 }

/-- R511: the length of the bring-up. -/
def totalMs (s : State) : Nat := (List.range 9).foldl (fun n i => n + getF (fldNth Reg.BOOT_STEP_MS i) s) 0

/-- R493, R496: step 10: READY, or TOPOLOGY_HOLD with a cause; a module in FAILED stays so and logs BOOT_FAILED. -/
def bootEnd (state cause : Nat) (s : State) : State :=
  if getF Reg.BOOT_STAT_STATE s = 4 ∧ getF Reg.BOOT_STAT_STEP s = 10 then s
  else
    let s := stepBegin 10 (if getF Reg.BOOT_STAT_STEP s = 9 then stepDone 9 s else s)
    let s := setF Reg.BOOT_STAT_TOTAL_MS (totalMs s) s
    if getF Reg.BOOT_STAT_STATE s = 4 then logEv .bootFailed none none 0 (arg16 [getF Reg.BOOT_STAT_CAUSE s]) s
    else
      let s := setBoot state (setF Reg.BOOT_STAT_CAUSE cause s)
      if state = 2 then logEv .bootReady none none 0 (arg16 [totalMs s]) s
      else logEv .topologyHold none none 0 (arg16 [cause]) s

/-- The module enters READY. -/
def bootReady (s : State) : State := bootEnd 2 0 s
/-- R506: the module holds with a cause. -/
def bootHoldAt (cause : Nat) (s : State) : State := bootEnd 3 cause s

/-- The links with a result. -/
def linksWith (v : Nat) (s : State) : List Nat := (List.range 6).filter fun l => topoRes l s = v

/-- R506: report the links that stay HELD because they do not agree. -/
def reportMismatch (s : State) : State :=
  (linksWith 3 s ++ linksWith 4 s).foldl (fun (s : State) l => logBoot .topologyLinkMismatch l s) s

/-- R506: the decision, at the end of step 8 or at the first result after it. -/
def topoDecide (s : State) : State :=
  let a := (linksWith 2 s).length
  let d := (linksWith 3 s).length
  if s.bootHold ≠ 0 then bootHoldAt s.bootHold s
  else if (List.range 6).all fun l => topoRes l s = 0 then bootReady (setF Reg.SYS_CHIP_CONFIRMED 1 s)
  else if d < a then
    let s := logBoot .topologyConfirmed 0 (setF Reg.SYS_CHIP_CONFIRMED 1 s)
    reportMismatch (bootReady ((linksWith 2 s).foldl (fun (s : State) l => releaseLink l s) s))
  else if 1 ≤ d then reportMismatch (bootHoldAt 5 s)
  else s

/-- Does discovery wait for a result (R506): in step 9, held for NO_PARTNER, or, in FAILED, after step 9 had none? -/
def discovering (s : State) : Bool :=
  (getF Reg.BOOT_STAT_STEP s = 9 && getF Reg.SYS_CHIP_CONFIRMED s = 0) ||
  (getF Reg.BOOT_STAT_STATE s = 3 && getF Reg.BOOT_STAT_CAUSE s = 6) ||
  (getF Reg.BOOT_STAT_STATE s = 4 && getF Reg.BOOT_STAT_STEP s = 10 && getF Reg.SYS_CHIP_CONFIRMED s = 0 &&
    (linksWith 2 s ++ linksWith 3 s).length ≤ 1)

/-- R308, R505, R508: a link has reached HELD. -/
def linkHeld (l : Nat) (s : State) : State :=
  let s := topoCompare l (setLSt l .held s)
  if getF Reg.SYS_CHIP_CONFIRMED s = 1 then
    if topoRes l s = 2 then releaseLink l s else logBoot .topologyLinkMismatch l s
  else if discovering s then topoDecide s
  else s

/-- R308, R311: a link has been identified, and nothing is wrong. -/
def identified (l : Nat) (s : State) : State :=
  let x := getL l s
  let now := (getLF l Reg.LNK_PARTNER_SERIAL s, getLF l Reg.LNK_PARTNER_CHIP s)
  let s := setLF l Reg.LNK_STATE_FAST_USED (if x.fast then 1 else 0)
    (setLF l Reg.LNK_STATE_LX7 (if x.lx7Rate then 1 else 0) s)
  let s := if x.fast then s else linkSave l s
  let s := modL l (fun x => { x with known := some now, fails := 0, lastChance := false, resume := true }) s
  if x.known = some now ∧ x.released then setLSt l .active s
  else
    let s := if x.known.isSome ∧ x.known ≠ some now then
        linkDiscard l (logEv .linkPartnerChanged none none l [] s)
      else s
    linkHeld l (modL l (fun x => { x with released := false, peerReleased := false, resume := false }) s)

/-! ### Training events -/

/-- LINK_ENABLE (R321): LNK_CFG.ENABLE is written 1. -/
def linkEnable (l : Nat) (s : State) : State :=
  if getLF l Reg.LNK_CFG_ENABLE s = 1 then s
  else startTraining l false (setLF l Reg.LNK_CFG_ENABLE 1 s)
/-- LINK_ENABLE (R321). -/
def execLinkEnable (l : LinkId) (s : State) : Ans := lnkEv (.linkEnable l) l.val (linkEnable l.val) s

/-- R305, R307: a link is disabled. -/
def linkDisable (l : Nat) (s : State) : State :=
  setLF l Reg.LNK_TEST_STAT_RUNNING 0 (setLF l Reg.LNK_STATE_NO_PARTNER 0
    (setLSt l .disabled (modL l (fun x => { x with locked := 0, farLoop := false }) (linkDiscard l
      (setLF l Reg.LNK_CFG_ENABLE 0 s)))))
/-- LINK_DISABLE (R305, R307): LNK_CFG.ENABLE is written 0. -/
def execLinkDisable (l : LinkId) (s : State) : Ans := lnkEv (.linkDisable l) l.val (linkDisable l.val) s

/-- An event of a link that is in a given state. -/
def inLSt (i : Instr) (l : Nat) (st : LSt) (f : State → State) (s : State) : Ans :=
  lnkEv i l (fun s => if (getL l s).st = st then f s else s) s

/-- LINK_POWER_UP_DONE (R307). -/
def execLinkPowerUpDone (l : LinkId) (s : State) : Ans := inLSt (.linkPowerUpDone l) l.val .powerUp (setLSt l.val .clockDetect) s

/-- PARTNER_CLOCK_DETECTED (R307): `lanes` are the clock lanes received. -/
def execPartnerClockDetected (l : LinkId) (lanes : Fin 4) (s : State) : Ans :=
  inLSt (.partnerClockDetected l lanes) l.val .clockDetect (fun s =>
    if lanes.val = 0 then s
    else setLF l.val Reg.LNK_STATE_CLOCK_LANES lanes.val (setLF l.val Reg.LNK_STATE_NO_PARTNER 0
      (setLSt l.val (if (getL l.val s).fast then .restore else .eqCoarse) s))) s

/-- PARTNER_RATE_ALTERNATE (R317): 100 ms at one rate. -/
def execPartnerRateAlternate (l : LinkId) (s : State) : Ans :=
  inLSt (.partnerRateAlternate l) l.val .clockDetect (fun s =>
    if (getL l.val s).want = 0 then
      every .linkRate l.val 100000000 (modL l.val (fun x => { x with lx7Rate := !x.lx7Rate })) s
    else s) s

/-- NO_PARTNER_TIMER (R310): 1 s in CLOCK_DETECT. -/
def execNoPartnerTimer (l : LinkId) (s : State) : Ans :=
  inLSt (.noPartnerTimer l) l.val .clockDetect (fun s =>
    if timerDue .linkState l.val 1000000000 s then setLF l.val Reg.LNK_STATE_NO_PARTNER 1 s else s) s

/-- EQ_COARSE_DONE (R307). -/
def execEqCoarseDone (l : LinkId) (s : State) : Ans := inLSt (.eqCoarseDone l) l.val .eqCoarse (setLSt l.val .blockLock) s

/-- SETTINGS_RESTORED (R307, R311). -/
def execSettingsRestored (l : LinkId) (s : State) : Ans := inLSt (.settingsRestored l) l.val .restore (setLSt l.val .blockLock) s

/-- BLOCK_LOCK_DONE (R293, R296): `lanes` are the lane numbers in the messages that arrive on lanes 0 to 23, `skew` the
largest skew in blocks, and `hdrs` the last 64 sync headers of each lane: every lane must have gained its lock. When both are
wrong, the cause is a free choice of the two. -/
def execBlockLockDone (l : LinkId) (lanes : List Nat) (skew : Nat) (hdrs : List (List (BitVec 2))) (s : State) : Ans :=
  inLSt (.blockLockDone l lanes skew hdrs) l.val .blockLock (fun s =>
    if hdrs.length ≠ 24 || !hdrs.all lockGained then s else
    let same := lanes == List.range 24
    let rev := lanes == (List.range 24).reverse
    let badMap := !(same || rev)
    if badMap && 32 < skew then trainFail l.val (2 + freeNat s % 2) (tick1 s)
    else if badMap then trainFail l.val 3 s
    else if 32 < skew then trainFail l.val 2 s
    else setLF l.val Reg.LNK_STATE_REVERSED (if rev then 1 else 0)
      (setLSt l.val .eqFine (modL l.val (fun x => { x with locked := 2 ^ 24 - 1 }) s))) s

/-- R308: a link enters IDENTIFY, and sends its identity. -/
def enterIdentify (l : Nat) (s : State) : State :=
  emit (.identity l (ownChip s) (getB Reg.SYS_CHIP_VALID s) (getF Reg.LIC_SERIAL s)) (setLSt l .identify s)

/-- EQ_FINE_DONE (R309): the symbol errors of each lane over 10⁹ symbols. -/
def execEqFineDone (l : LinkId) (errs : List Nat) (s : State) : Ans :=
  inLSt (.eqFineDone l errs) l.val .eqFine (fun s =>
    if errs.all (· ≤ 20000) then enterIdentify l.val s else trainFail l.val 4 s) s

/-- R308, R321: LNK_PARTNER and LNK_PARTNER_SERIAL show what the partner has sent. -/
def notePartner (n : Nat) (chip : Fin 32768) (valid : Bool) (link : Fin 8) (lx7 : Bool) (serial : B64) (s : State) : State :=
  setLF n Reg.LNK_PARTNER_CHIP chip.val (setLF n Reg.LNK_PARTNER_VALID (if valid then 1 else 0)
    (setLF n Reg.LNK_PARTNER_LINK link.val (setLF n Reg.LNK_PARTNER_LX7 (if lx7 then 1 else 0)
      (setLF n Reg.LNK_PARTNER_KNOWN 1 (setLF n Reg.LNK_PARTNER_SERIAL serial.toNat s)))))

/-- IDENTIFY_DONE (R308, R311, R317): what the partner sends. -/
def execIdentifyDone (l : LinkId) (chip : Fin 32768) (valid : Bool) (link : Fin 8) (lx7 : Bool) (serial : B64) (s : State) :
    Ans :=
  inLSt (.identifyDone l chip valid link lx7 serial) l.val .identify (fun s =>
    let n := l.val
    let s := notePartner n chip valid link lx7 serial s
    let want := (getL n s).want
    if link.val ≠ n.xor 1 then trainFail n 5 s
    else if (want = 1 ∧ lx7) ∨ (want = 2 ∧ !lx7) then trainFail n 6 s
    else if (getL n s).fast ∧ linkRecSerial n s ≠ serial.toNat then trainFail n 7 s
    else identified n s) s

/-- R307: the bound of a state on a path, in ns; none where the table gives none. -/
def stateBound (st : LSt) (fast : Bool) : Option Nat :=
  match st with
  | .powerUp | .blockLock => some 5000000
  | .eqCoarse => some 150000000
  | .restore => some 2000000
  | .eqFine => some (if fast then 10000000 else 50000000)
  | .identify => some 1000000
  | .retrain => some 20000000
  | _ => none

/-- LINK_STATE_TIMEOUT (R307, R310): the state has exceeded its bound. -/
def execLinkStateTimeout (l : LinkId) (s : State) : Ans :=
  lnkEv (.linkStateTimeout l) l.val (fun s =>
    match stateBound (getL l.val s).st (getL l.val s).fast with
    | some b => if timerDue .linkState l.val b s then trainFail l.val 1 s else s
    | none => s) s

/-- R318: a link enters TEST. -/
def enterTest (l : Nat) (far : Bool) (running : Bool) (s : State) : State :=
  testStart l running far (setLSt l .test (linkDiscard l s))

/-- R320: the partner asks for a far loop. -/
def farAsked (l : Nat) (s : State) : State :=
  if (getL l s).st = .disabled then s
  else if getLF l Reg.LNK_CFG_ALLOW_FAR s = 1 then emit (.laneMsg l .farGranted) (enterTest l true true s)
  else emit (.laneMsg l .farRefused) s

/-- LANE_MSG_RECEIVED (R292, R304, R320): a control block on a lane, and what the firmware makes of its message. -/
def execLaneMsgReceived (l : LinkId) (lane : Fin 24) (block : B64) (asks : LaneAsk) (s : State) : Ans :=
  lnkEv (.laneMsgReceived l lane block asks) l.val (fun s =>
    let b := leBytes 8 block.toNat
    let t := dField' b
    if !knownControl t ∨ t = 0xE7 then bumpLF l.val Reg.LNK_BAD_CONTROL 1 s
    else if t ≠ 0x8C ∨ crc16 (b.take 6) ≠ leNat (b.drop 6) then s
    else match asks with
      | .nothing => s
      | .retrain => retrainNow l.val s
      | .farRequest => farAsked l.val s
      | .farGranted => if (getL l.val s).st = .test && (getL l.val s).farAsked then setLF l.val Reg.LNK_TEST_STAT_RUNNING 1 s else s
      | .farRefused => if (getL l.val s).st = .test && (getL l.val s).farAsked then setLF l.val Reg.LNK_TEST_STAT_PARTNER_REFUSED 1 s else s) s
where
  /-- The type byte of a control block. -/
  dField' (b : List Byte) : Nat := (b.headD 0).toNat

/-- R310: the code of the cause of a failed retrain. -/
def retrainCause : RetrainEnd → Nat
  | .ok => 0 | .deskew => 2 | .laneMap => 3 | .symbols => 4

/-- RETRAIN_DONE (R304, R310): the retrain ends, well or not. -/
def execRetrainDone (l : LinkId) (fin : RetrainEnd) (s : State) : Ans :=
  inLSt (.retrainDone l fin) l.val .retrain (fun s =>
    if fin = .ok then setLSt l.val .active (modL l.val (fun x => { x with locked := 2 ^ 24 - 1 }) s)
    else trainFail l.val (retrainCause fin) s) s

/-- BLOCK_LOCK_LOST (R293): 16 of the last 64 headers `hdrs` of a lane that has lock are invalid. Not while the receive direction
expects no blocks. -/
def execBlockLockLost (l : LinkId) (lane : Fin 24) (hdrs : List (BitVec 2)) (s : State) : Ans :=
  lnkEv (.blockLockLost l lane hdrs) l.val (fun s =>
    let x := getL l.val s
    if getLF l.val Reg.LNK_STATE_FALLOW_RX s = 1 || x.st = .legacyIdle || !lockLost hdrs || !x.locked.testBit lane.val then s
    else startRetrain l.val (setL l.val { x with locked := x.locked - 2 ^ lane.val } s)) s

/-- ALIGNMENT_LOST (R295): not while the receive direction is asleep. -/
def execAlignmentLost (l : LinkId) (s : State) : Ans :=
  inLSt (.alignmentLost l) l.val .active (fun s =>
    if getLF l.val Reg.LNK_STATE_FALLOW_RX s = 1 then s else startRetrain l.val s) s

/-- LINK_CLOCK_LANE_LOST (R289): when both clock lanes have failed, every data lane loses lock. -/
def execLinkClockLaneLost (l : LinkId) (lane : Fin 2) (s : State) : Ans :=
  lnkEv (.linkClockLaneLost l lane) l.val (fun s =>
    let c := getLF l.val Reg.LNK_STATE_CLOCK_LANES s
    if !c.testBit lane.val then s
    else
      let s := setLF l.val Reg.LNK_STATE_CLOCK_LANES (c - 2 ^ lane.val) s
      if c = 2 ^ lane.val then startRetrain l.val (modL l.val (fun x => { x with locked := 0 }) s)
      else logEv .linkClockLaneLost none none l.val [] s) s

/-! ### LNK_CTL and tests -/

/-- LNK_RETRAIN (R304, R321). -/
def execLnkRetrain (l : LinkId) (s : State) : Ans := .next (if linkPresent l.val s then startRetrain l.val s else s)

/-- LNK_SAVE (R311, R321). -/
def execLnkSave (l : LinkId) (s : State) : Ans := .next (if linkPresent l.val s && lnkActive l.val s then linkSave l.val s else s)

/-- LNK_RETRY (R321): a full training from FAILED. -/
def execLnkRetry (l : LinkId) (s : State) : Ans := inLSt (.lnkRetry l) l.val .failed (startTraining l.val true) s

/-- LNK_FORGET (R311): the saved record is invalid. -/
def execLnkForget (l : LinkId) (s : State) : Ans := lnkEv (.lnkForget l) l.val (linkForget l.val) s

/-- R320: a test ends, and the link trains again. -/
def endTest (l : Nat) (s : State) : State :=
  startTraining l false (setLF l Reg.LNK_TEST_CTL_MODE 0 (setLF l Reg.LNK_TEST_STAT_RUNNING 0
    (setLF l Reg.LNK_TEST_STAT_SYNC 0 (modL l (fun x => { x with farLoop := false, farAsked := false }) s))))

/-- R318: the link, as it stands, has trained to BLOCK_LOCK: every lane has its lock. -/
def lnkTrained (l : Nat) (s : State) : Bool := (getL l s).locked = 2 ^ 24 - 1

/-- R318: a test is started. A FAR test asks the partner for its loop, when the link has trained to BLOCK_LOCK. -/
def testMode (l mode : Nat) (s : State) : State :=
  let ask := mode = 3 && lnkTrained l s
  let s := enterTest l false (mode ≠ 3) s
  if ask then emit (.laneMsg l .farRequest) (modL l (fun x => { x with farAsked := true }) s) else s

/-- R318: a write of LNK_TEST_CTL. -/
def testCtl (l : Nat) (v : Nat) (s : State) : State :=
  let mode := v % 4
  let s := if v / 4 % 4 = 3 then s else setLF l Reg.LNK_TEST_CTL_PATTERN (v / 4 % 4) s
  let st := (getL l s).st
  let s := setLF l Reg.LNK_TEST_CTL_MODE mode s
  if mode = 0 then if st = .test then endTest l s else s
  else if st = .disabled then s
  else testMode l mode s

/-- LNK_TEST_CTL_WRITE (R318, R320). -/
def execLnkTestCtlWrite (l : LinkId) (v : B64) (s : State) : Ans :=
  lnkEv (.lnkTestCtlWrite l v) l.val (testCtl l.val v.toNat) s

/-- FAR_LOOP_REQUEST (R320): the partner asks for a far loop. -/
def execFarLoopRequest (l : LinkId) (s : State) : Ans := lnkEv (.farLoopRequest l) l.val (farAsked l.val) s

/-- TEST_CHECKER_SYNC (R319): a lane's checker is synchronised and counts `errs` symbol errors. -/
def execTestCheckerSync (l : LinkId) (lane : Fin 24) (errs : Nat) (s : State) : Ans :=
  inLSt (.testCheckerSync l lane errs) l.val .test (fun s =>
    if getLF l.val Reg.LNK_TEST_STAT_RUNNING s = 0 then s
    else
      let y := getLF l.val Reg.LNK_TEST_STAT_SYNC s
      let s := if y.testBit lane.val then s else setLF l.val Reg.LNK_TEST_STAT_SYNC (y + 2 ^ lane.val) s
      modL l.val (fun x => { x with prbs := smMod 0 x.prbs lane.val fun n => min (n + errs) (2 ^ 32 - 1) }) s) s

/-- LINK_DEGRADED_CHECK (R322): the bytes of a lane in the last second, and those corrected. -/
def execLinkDegradedCheck (l : LinkId) (lane : Fin 24) (corrected bytes : Nat) (s : State) : Ans :=
  let k := l.val * 32 + lane.val
  .next (if linkPresent l.val s && lnkActive l.val s then
    every .degraded k 1000000000 (fun s =>
      if bytes < corrected * 100000 then
        logLimited (2 ^ 61 + k) 3600000000000 .linkDegraded none none l.val (arg16 [lane.val]) s
      else s) s
  else s)

/-! ### Topology events -/

/-- R499: is step 8 over: every enabled link is HELD or FAILED, or 1 s has passed? -/
def trainingOver (s : State) : Bool :=
  (List.range 6).all (fun l => getLF l Reg.LNK_CFG_ENABLE s ≠ 1 || (getL l s).st = .held || (getL l s).st = .failed) ||
  decide (s.bootAt + 1000000000 ≤ s.tb)

/-- LINK_TRAINING_STEP_END (R499): step 8 ends, and discovery begins. -/
def execLinkTrainingStepEnd (s : State) : Ans :=
  .next (if getF Reg.BOOT_STAT_STEP s = 8 ∧ trainingOver s then topoDecide (stepBegin 9 (stepDone 8 s)) else s)

/-- R487, R506: DISCOVERY_WAIT_MS of the configuration block, in ns; 0 stands for 2,000 ms. -/
def discoveryWait (s : State) : Nat :=
  let w := dField s.cfgBlk 20 2
  (if w = 0 then 2000 else w) * 1000000

/-- DISCOVERY_WAIT_EXPIRE (R506): the module holds with cause NO_PARTNER. -/
def execDiscoveryWaitExpire (s : State) : Ans :=
  .next (if getF Reg.BOOT_STAT_STEP s = 9 ∧ getF Reg.SYS_CHIP_CONFIRMED s = 0 ∧ s.bootAt + discoveryWait s ≤ s.tb then
    bootHoldAt 6 { s with bootWait := s.tb - s.bootAt } else s)

/-- The first CTRL packet of a kind that waits at the hub. -/
def ctrlOf (kind : Nat) (s : State) : Option Packet := s.hubIn.find? fun p => p.typ = 7 && p.ctrl = kind
/-- Take it. -/
def ctrlTake (p : Packet) (s : State) : State := { s with hubIn := s.hubIn.erase p }

/-- TOPO_PROBE_RECEIVED (R509): Felmos, while a core is active, answers. -/
def execTopoProbeReceived (s : State) : Ans :=
  match ctrlOf 0x10 s with
  | some p => .next (if s.mgmt.up then topoPacket 0x11 p.src (ctrlTake p s) else s)
  | none => .next s

/-- R509: the links that wait for a reply of a chip. -/
def probedLinks (chip : Nat) (s : State) : List Nat :=
  (List.range 6).filter fun l => getLF l Reg.LNK_PARTNER_CHIP s = chip && (getL l s).probes ≠ 0

/-- R509: a reply: its sizes are compared. -/
def topoReply (p : Packet) (s : State) : State :=
  let ls := probedLinks p.src s
  let s := ls.foldl (fun (s : State) l => modL l (fun x => { x with probes := 0 }) s) (ctrlTake p s)
  if (p.data.take 3).map BitVec.toNat = [getF Reg.FAB_TOPO_SX s, getF Reg.FAB_TOPO_SY s, getF Reg.FAB_TOPO_SZ s] then s
  else
    let s := setF Reg.BOOT_TOPO_PEER_DIFFERS 1 s
    logBoot .topologyPeerDiffers (ls.headD 0) s

/-- TOPO_REPLY_RECEIVED (R509). -/
def execTopoReplyReceived (s : State) : Ans :=
  match ctrlOf 0x11 s with
  | some p => .next (if s.mgmt.up then topoReply p s else s)
  | none => .next s

/-- R509: 1 ms after a probe: it is sent again, or after three the peer is silent. -/
def probeAgain (l : Nat) (s : State) : State :=
  let n := (getL l s).probes
  if n = 0 then s
  else if n < 3 then topoPacket 0x10 (getLF l Reg.LNK_PARTNER_CHIP s) (modL l (fun x => { x with probes := n + 1 }) s)
  else logBoot .topologyPeerSilent l (setF Reg.BOOT_TOPO_PEER_SILENT 1 (modL l (fun x => { x with probes := 0 }) s))

/-- TOPO_PROBE_TIMER (R509). -/
def execTopoProbeTimer (l : LinkId) (s : State) : Ans := .next (every .probe l.val 1000000 (probeAgain l.val) s)

end Sys2Proof.Machine
end

