-- ==== Sys2Proof/Machine/Router.lean ====
section
/-! DEFINITION. Machine/Router.lean: the router (R328 to R348): routing, the Headland channel, drops, multicast, route
tables and epochs, and the release of held requests (R336). -/

namespace Sys2Proof.Machine

/-! ### Buffers and credits -/

/-- R328: the credit code of a packet on a link. -/
def creditCode (p : Packet) : Nat := if p.vc = 5 then 5 + p.hlc else p.vc

/-- R328: the credits that a packet takes. -/
def creditsOf (p : Packet) : Nat := (packetSize p + 63) / 64

/-- R328: the credits of a buffer. -/
def bufferCredits : Nat → Nat
  | 0 => 256 | 1 | 2 | 3 => 4096 | 4 => 64 | 5 | 6 => 128 | _ => 0

/-- R300, R328: a packet leaves the buffer of the link that it came in on: its credits are owed to the partner. -/
def bufferFree (inp code n : Nat) (s : State) : State :=
  if inp < 6 then modL inp (fun x => { x with owed := smMod 0 x.owed code (· + n) }) s else s

/-! ### Drops -/

/-- R326: is a field that the packet's type does not use, and that is zero therefore, set? STATUS is for responses, RLEN for
READ_REQ, CTRL_KIND for CTRL, HLC for VC 5; the four memory types have no GROUP, READ_REQ and WRITE_ACK no payload, and a response
no ADDR and no FENCE (log entry 68). -/
def unusedSet (p : Packet) : Bool :=
  let resp := p.typ = 3 || p.typ = 4
  (p.status ≠ 0 && !resp) || (p.rlen ≠ 0 && p.typ ≠ 1) || (p.ctrl ≠ 0 && p.typ ≠ 7) || (p.hlc ≠ 0 && p.vc ≠ 5) ||
  (p.group ≠ 0 && p.typ ≤ 4) || (p.len ≠ 0 && (p.typ = 1 || p.typ = 4 || (p.typ = 3 && p.status ≠ 0))) ||
  (resp && (p.addr ≠ 0 || p.fence))

/-- R346: is the packet malformed? -/
def malformed (p : Packet) : Bool :=
  p.typ = 0 || 7 < p.typ || p.zero ≠ 0 || unusedSet p || 512 < p.len || (p.typ = 1 && (p.rlen = 0 || 512 < p.rlen)) ||
  (p.mcast && p.typ ≠ 6 && p.typ ≠ 7) ||
  (p.vc ≠ 5 && p.vc ≠ (match p.typ with
    | 1 => 0
    | 2 => if p.len ≤ 64 then 0 else 3
    | 3 | 4 => 1
    | 5 | 6 => 2
    | _ => 4))

/-- The route code of a packet (R329): PORT, or HL_PORT in the Headland channel. -/
def routeCode (p : Packet) (s : State) : Nat :=
  let e := routeEntry p.epoch p.dst s
  if p.vc = 5 then e / 8 % 8 else e % 8

/-- R346: the NO_ROUTE response to a dropped request, when the version that it names routes to its source here. -/
def noRouteReply (p : Packet) (s : State) : State :=
  if (p.typ = 1 ∨ p.typ = 2) ∧ (p.src = ownChip s ∨ (routePort (routeEntry p.epoch p.src s % 8) s).isSome) then
    let q : Packet := { packet0 with
      typ := p.typ + 2, vc := 1, epoch := p.epoch, part := p.part, dst := p.src, src := ownChip s, unit := p.unit
      tag := p.tag, status := 3 }
    { s with rtIn := smMod [] s.rtIn 8 (· ++ [q]) }
  else s

/-- R346: drop a packet: counted, logged at most once per cause per second with its header, and answered if it may be. A multicast
entry that is not valid is a cause of its own. -/
def dropPacket (f : Fld) (reply : Bool) (p : Packet) (s : State) : State :=
  let s := bump f 1 s
  let s := logLimited (2 ^ 62 + f.off + if f.off = Reg.FAB_DROP_NOROUTE.off && !reply then 1 else 0) 1000000000 .fabricPacketDropped none none 0 (headerBytes p) s
  if reply then noRouteReply p s else s

/-! ### Local delivery -/

/-- R331: the router output of a module offset: the die's port, or the hub. -/
def homePort (off : Nat) (s : State) : Nat :=
  if off < hbmEnd then 6 + dieOf off s else match spSlot off with | some p => 6 + p.1 / 136 | none => 8

/-- R331: a request from another module arrives. -/
def remoteRequest (link : Nat) (p : Packet) (s : State) : State :=
  let port := homePort p.addr s
  let n := if p.typ = 1 then p.rlen else p.len
  let r : Req := ⟨.remote link p.src p.unit p.tag port p.vc, if p.typ = 1 then .read else .write p.data,
    ownGlobal p.addr s, n, true, false, p.part, .queued, []⟩
  if !destOk p.addr n s then answer r .refused [] s
  else
    let id := s.nextReq
    setReq id r { s with nextReq := id + 1 }

/-- The status of a response packet (R332). UNCORRECTABLE carries the global address of the request. -/
def packetStatus (p : Packet) (r : Req) : RStatus :=
  if p.status = 0 then .ok else if p.status = 2 then .uncorrectable (r.gaddr / 512 * 512)
  else if p.status = 3 then .noRoute else .refused

/-- R332, R346: a response arrives for a unit of this module. One that no request waits for is discarded. A NO_ROUTE response comes
from the router that dropped the request, whatever chip that is. -/
def responseIn (p : Packet) (s : State) : State :=
  match s.reqs.find? fun e =>
    e.1 % 65536 = p.tag && unitCode e.2.unit = p.unit && (p.status = 3 || gChip e.2.gaddr = p.src) && e.2.stage = .sent &&
    !s.fenced.contains e.1 && (match e.2.kind with | .write _ => p.typ = 4 | _ => p.typ = 3) with
  | some e => setReq e.1 { e.2 with stage := .done (packetStatus p e.2) p.data } s
  | none => s

/-- R331: a packet for this module. A COLL packet of an unassigned phase is stray (R417). -/
def deliver (link : Nat) (p : Packet) (s : State) : State :=
  if p.typ = 1 ∨ p.typ = 2 then remoteRequest link p s
  else if p.typ = 3 ∨ p.typ = 4 then responseIn p s
  else if p.typ = 5 ∧ 5 < p.addr / 2 ^ 36 then bump Reg.COL_STRAY_PACKETS 1 s
  else { s with hubIn := s.hubIn ++ [p] }

/-- R331: the port of the die of the unit that SRC_UNIT names, or the hub's (R336). -/
def codePort (u : Nat) : Nat :=
  if u < 0x200 then 6 + u / 136 % 2 else if u < 0x280 then 6 + (u - 0x200) / 8 % 2
  else if u < 0x300 then 6 + (u - 0x280) % 2 else if u < 0x380 then 6 + (u - 0x300) / 8 % 2 else 8

/-- R331: the output of a packet that is delivered here. -/
def localPort (p : Packet) (s : State) : Nat :=
  if p.typ = 1 ∨ p.typ = 2 then homePort p.addr s else if p.typ = 3 ∨ p.typ = 4 then codePort p.unit else 8

/-! ### Routing -/

/-- R324: does the link cross a dateline? -/
def crossesDateline (l : Nat) (s : State) : Bool := (getF Reg.FAB_TOPO_DATELINE s).testBit l

/-- R334: the Headland class of a packet on link `l`, when it came in on `inp`. -/
def hlClass (inp l : Nat) (p : Packet) (s : State) : Nat :=
  if crossesDateline l s then 1
  else if inp < 6 && inp / 2 = l / 2 && p.vc = 5 then p.hlc else 0

/-- Queue a packet for a link. -/
def enqueue (l id inp code : Nat) (p : Packet) (s : State) : State :=
  let p := if p.vc = 5 then { p with hlc := hlClass inp l p s } else p
  { s with outQ := smMod [] s.outQ l (· ++ [⟨id, p, inp, code, 0⟩]) }

/-- R338: queue a packet for a local output, which delivers it in its turn. -/
def enqueueLocal (o id inp code : Nat) (p : Packet) (s : State) : State :=
  { s with outQ := smMod [] s.outQ o (· ++ [⟨id, p, inp, code, 0⟩]) }

/-- R341: the copies of a multicast packet. -/
def fanOut (inp id code : Nat) (p : Packet) (out : Nat) (s : State) : State :=
  (List.range 6).foldl (fun (s : State) l =>
    if out.testBit l && linkPresent l s then enqueue l id inp code p s else s) s

/-- Do copies of packet `id` still wait? -/
def copiesLeft (id : Nat) (s : State) : Bool := s.outQ.any fun e => e.2.any (·.id = id)

/-- R329 to R346: the router takes a packet from input `inp`. -/
def routePacket (inp : Nat) (p : Packet) (s : State) : State :=
  let code := creditCode p
  let n := creditsOf p
  let id := s.nextPkt
  let s := { s with nextPkt := id + 1 }
  if malformed p then bufferFree inp code n (dropPacket Reg.FAB_DROP_MALFORMED false p s)
  else if p.mcast then
    let e := smLook 0 s.mcast (p.epoch * 4096 + p.group)
    if !e.testBit 7 then bufferFree inp code n (dropPacket Reg.FAB_DROP_NOROUTE false p s)
    else
      let s := if e.testBit 6 then enqueueLocal 8 id inp code p s else s
      let s := if 96 ≤ p.hops then (if e % 64 = 0 then s else dropPacket Reg.FAB_DROP_HOPS true p s)
        else fanOut inp id code p (e % 64) s
      if copiesLeft id s then s else bufferFree inp code n s
  else if p.dst = ownChip s then enqueueLocal (localPort p s) id inp code p s
  else match routePort (routeCode p s) s with
    | none => bufferFree inp code n (dropPacket Reg.FAB_DROP_NOROUTE true p s)
    | some l =>
      if 96 ≤ p.hops then bufferFree inp code n (dropPacket Reg.FAB_DROP_HOPS true p s)
      else enqueue l id inp code p s

/-- PACKET_ARRIVAL (R333): the head of a router input: links 0 to 5, die ports 6 and 7, the hub 8. -/
def execPacketArrival (port : Fin 9) (s : State) : Ans :=
  match smLook [] s.rtIn port.val with
  | [] => .next s
  | p :: l => .next (routePacket port.val p { s with rtIn := smPut [] s.rtIn port.val l })

/-- Take a waiting packet off a link's queue: its buffer is free once its last copy has left. -/
def dequeue (l : Nat) (q : QPkt) (s : State) : State :=
  let s := { s with outQ := smMod [] s.outQ l (·.erase q) }
  if copiesLeft q.id s then s else bufferFree q.inp q.code (creditsOf q.p) s

/-- R334: does a packet stand at the head of its input buffer: did none of those that wait come into that buffer before it? -/
def atHead (q : QPkt) (s : State) : Bool :=
  !(s.outQ.any fun e => e.2.any fun r => r.inp = q.inp && r.code = q.code && r.id < q.id)

/-- R334: 10 ns more at the heads of the input buffers. -/
def tickHeads (s : State) : State :=
  { s with outQ := s.outQ.map fun (e : Nat × List QPkt) =>
      (e.1, e.2.map fun q => if atHead q s then { q with wait := q.wait + 10 } else q) }

/-- HEADLAND_MOVE (R334): the first packet of VCs 0 to 4 that has stood at the head of its buffer for HL_WAIT_NS, of those that wait
for a link, moves into the Headland channel and follows HL_PORT; a copy of a multicast packet keeps to its link. -/
def execHeadlandMove (l : LinkId) (s : State) : Ans :=
  match (smLook [] s.outQ l.val).find? fun q => q.p.vc < 5 && getF Reg.FAB_CFG_HL_WAIT_NS s ≤ q.wait with
  | none => .next s
  | some q =>
    let s := bump Reg.FAB_HL_ENTRIES 1 { s with outQ := smMod [] s.outQ l.val (·.erase q) }
    let put (k : Nat) (s : State) : State :=
      { s with outQ := smMod [] s.outQ k (· ++ [{ q with p := { q.p with
        vc := 5, hlc := if crossesDateline k s then 1 else 0 } }]) }
    if q.p.mcast then .next (put l.val s)
    else match routePort (routeEntry q.p.epoch q.p.dst s / 8 % 8) s with
      | some k => .next (put k s)
      | none => .next (bufferFree q.inp q.code (creditsOf q.p) (dropPacket Reg.FAB_DROP_NOROUTE true q.p s))

/-- R346: for how long has the link not been ACTIVE, in ns? -/
def downFor (l : Nat) (s : State) : Nat := s.tb - (getL l s).downAt

/-- LINK_DOWN_HOLD_EXPIRE (R346): the packets that wait for a link that has not been ACTIVE for DOWN_HOLD_MS are dropped. -/
def execLinkDownHoldExpire (l : LinkId) (s : State) : Ans :=
  if lnkActive l.val s ∨ downFor l.val s < getF Reg.FAB_CFG_DOWN_HOLD_MS s * 1000000 then .next s
  else .next ((smLook [] s.outQ l.val).foldl (fun (s : State) q =>
    dropPacket Reg.FAB_DROP_LINKDOWN (!q.p.mcast) q.p (dequeue l.val q s)) s)

/-- FENCED_PACKET_RELEASE (R270, R336): held requests that nothing holds any more leave, in order. -/
def execFencedPacketRelease (s : State) : Ans :=
  .next (s.fenced.foldl (fun (s : State) id =>
    match lookO s.reqs id with
    | none => { s with fenced := s.fenced.erase id }
    | some r =>
      if (r.fence && fenceHeld id r s) || orderHeld r s then s
      else leaveReq id r { s with fenced := s.fenced.erase id }) s)

/-! ### Route tables -/

/-- R343: write a word of the table that FAB_RT_SEL names. -/
def rtWrite (v : Nat) (s : State) : State :=
  let ver := getF Reg.FAB_RT_SEL_VERSION s
  let i := getF Reg.FAB_RT_SEL_INDEX s * 8
  if ver = getF Reg.FAB_EPOCH_CURRENT s then bump Reg.FAB_RT_REJECTS 1 s
  else
    let m := getB Reg.FAB_RT_SEL_MCAST s
    (List.range 8).foldl (fun (s : State) k =>
      let b := v / 2 ^ (8 * k) % 256
      if m then { s with mcast := smPut 0 s.mcast (ver * 4096 + i + k) b }
      else { s with routes := smPut 0x3F s.routes (ver * 32768 + i + k) b }) s

/-- FAB_RT_DATA: the word that FAB_RT_SEL names. -/
def rtRead (s : State) : Nat :=
  let ver := getF Reg.FAB_RT_SEL_VERSION s
  let i := getF Reg.FAB_RT_SEL_INDEX s * 8
  (List.range 8).foldl (fun n k =>
    n + (if getB Reg.FAB_RT_SEL_MCAST s then smLook 0 s.mcast (ver * 4096 + i + k) else routeEntry ver (i + k) s) * 2 ^ (8 * k)) 0

/-- FAB_RT_DATA_WRITE (R343). -/
def execFabRtDataWrite (v : B64) (s : State) : Ans := .next (rtWrite v.toNat s)

/-- FAB_EPOCH_SWITCH (R342): CURRENT is written. -/
def execFabEpochSwitch (v : Bool) (s : State) : Ans :=
  .next (heldOr (.fabEpochSwitch v) (fun s =>
    if getB Reg.FAB_EPOCH_CURRENT s = v then s
    else setB Reg.FAB_EPOCH_CURRENT v (bump Reg.FAB_EPOCH_SWITCHES 1 s)) s)

/-- R349: the packets of a version that the router holds or that a link keeps. -/
def inflight (ver : Nat) (s : State) : Nat :=
  let c (l : List Packet) : Nat := (l.filter fun p => p.epoch = ver).length
  s.rtIn.foldl (fun n e => n + c e.2) (s.outQ.foldl (fun n e => n + c (e.2.map (·.p)))
    (s.links.foldl (fun n e => n + c ((e.2.kept.map (·.packets)).flatten ++ (e.2.txPart.map (·.1)).toList)) 0))

end Sys2Proof.Machine
end

