-- ==== Sys2Proof/Machine/CollBase.lean ====
section
/-! DEFINITION. Machine/CollBase.lean: collectives (R382 to R419): groups, quotas, footprints, arithmetic, packets,
failures, revocation, and how a collective ends. -/

namespace Sys2Proof.Machine

/-! ### Groups -/

/-- The size of a dimension, and a chip's coordinate in it: dimension 0 X, 1 Y, 2 Z. -/
def dimOf (d : Nat) (s : State) : Nat := dimSize (2 * d) s
/-- A chip's coordinate (R40). -/
def coordOf (d chip : Nat) : Nat := if d = 0 then chip / 1024 % 32 else if d = 1 then chip / 32 % 32 else chip % 32

/-- R323: does the chip lie in the fabric? -/
def inFabric (chip : Nat) (s : State) : Bool := (List.range 3).all fun d => coordOf d chip < dimOf d s

/-- R330: the hops between two chips on the torus. -/
def torusHops (a b : Nat) (s : State) : Nat :=
  (List.range 3).foldl (fun n d =>
    let sz := dimOf d s
    let up := (coordOf d b + sz - coordOf d a) % sz
    n + min up ((sz - up) % sz)) 0

/-- R411: the settle window of a group. -/
def settleWindow (g : CollGroup) (s : State) : Nat :=
  if g.settle ≠ 0 then g.settle
  else
    let n := g.members.length
    let far := (List.range n).foldl (fun m i =>
      max m (torusHops (g.members.getD i 0) (g.members.getD ((i + 1) % n) 0) s)) 0
    4 * (250 * far) * (n / 2) + 20000

/-- Is the collective admitted or waiting (R384, R401)? -/
def collLive (c : Coll) : Bool := match c.st with | .waiting | .running | .ended => true | _ => false

/-- Is a collective of the group admitted or waiting? -/
def groupBusyC (g : Nat) (s : State) : Bool := s.colls.any fun e => e.2.group = g && collLive e.2

/-- R383: a group record's definition from its bytes, and its cause of failure (R384, R419). -/
def groupParse (g : Nat) (hdr list : List Byte) (s : State) : Except Nat CollGroup :=
  let n := dField hdr 2 2 % 4096 + 1
  let ms := (List.range n).map fun i => dField list (2 * i) 2
  let settle := dField hdr 8 4
  let hash := crc32 (hdr.take 12 ++ list)
  if dField hdr 0 2 ≠ 1 ∨ 4096 ≤ dField hdr 2 2 ∨ 8 ≤ dField hdr 4 1 ∨ !dZero hdr 5 3 ∨ !dZero hdr 16 48 ∨
      hash ≠ dField hdr 12 4 ∨ ms.any (fun m => 32768 ≤ m) ∨
      (settle ≠ 0 ∧ (settle < 1000 ∨ 1000000000 < settle)) then .error 1
  else if ms.any (fun m => !inFabric m s) ∨ ms.eraseDups.length ≠ n then .error 3
  else if !ms.contains (ownChip s) then .error 2
  else if !partOn (dField hdr 4 1) s then .error 5
  else if groupBusyC g s then .error 4
  else .ok ⟨ms, dField hdr 4 1, settle, hash⟩

/-- R384: read a group record once; a record that cannot be read is invalid. -/
def groupRead (g addr : Nat) (s : State) : Except Nat CollGroup × State :=
  if addr % 64 ≠ 0 ∨ !hbmBacked addr 64 s then (.error 1, s)
  else match hbmRead addr 64 0x380 s with
    | (.error _, s) => (.error 1, s)
    | (.ok h, s) =>
      let n := 2 * (dField h 2 2 % 4096 + 1)
      if !hbmBacked (addr + 64) n s then (.error 1, s)
      else match hbmRead (addr + 64) n 0x380 s with
        | (.error _, s) => (.error 1, s)
        | (.ok l, s) => (groupParse g h l s, s)

/-- COL_GROUP_DEFINE (R384): the definition of the group that COL_GROUP_SEL names begins. -/
def execColGroupDefine (s : State) : Ans :=
  .next { s with groupDefs := s.groupDefs ++ [(getF Reg.COL_GROUP_SEL s, getF Reg.COL_GROUP_ADDR s)] }

/-- GROUP_DEFINE_DONE (R384): the oldest definition in progress ends. -/
def execGroupDefineDone (s : State) : Ans :=
  match s.groupDefs with
  | [] => .next s
  | d :: l =>
    match groupRead d.1 d.2 { s with groupDefs := l } with
    | (.error c, s) => .next { s with groupFail := smPut 0 s.groupFail d.1 c }
    | (.ok g, s) => .next { s with groups := putO s.groups d.1 g, groupFail := smDel s.groupFail d.1 }

/-- COL_GROUP_UNDEFINE (R384). -/
def execColGroupUndefine (s : State) : Ans :=
  let g := getF Reg.COL_GROUP_SEL s
  if groupBusyC g s then .next { s with groupFail := smPut 0 s.groupFail g 4 }
  else .next { s with groups := smDel s.groups g, groupFail := smDel s.groupFail g }

/-! ### Quotas -/

/-- COL_QUOTA.QUOTA_p. -/
def quotaF (p : Nat) : Fld := { fldLane Reg.COL_QUOTA 8 p with rst := if p = 0 then 96 else 0 }
/-- COL_SLOTS.SLOTS_p. -/
def slotsF (p : Nat) : Fld := if p < 4 then fldLane Reg.COL_SLOTS_LO 16 p else fldLane Reg.COL_SLOTS_HI 16 (p - 4)

/-- COL_QUOTA_WRITE (R400). -/
def execColQuotaWrite (v : B64) (s : State) : Ans :=
  let q := (List.range 8).map fun p => bitsOf v.toNat (8 * p) 7
  if 96 < q.foldl (· + ·) 0 then .next s else .next ((List.range 8).foldl (fun (s : State) p => setF (quotaF p) (q.getD p 0) s) s)

/-- COL_SLOTS_WRITE (R400): COL_SLOTS_LO or COL_SLOTS_HI. -/
def execColSlotsWrite (hi : Bool) (v : B64) (s : State) : Ans :=
  let q := (List.range 4).map fun p => bitsOf v.toNat (16 * p) 13
  let other := (List.range 4).foldl (fun n p => n + getF (slotsF (if hi then p else p + 4)) s) 0
  if 4096 < q.foldl (· + ·) other then .next s
  else .next ((List.range 4).foldl (fun (s : State) p => setF (slotsF (if hi then p + 4 else p)) (q.getD p 0) s) s)

/-- Bytes of the grist buffer that a partition's admitted collectives occupy. -/
def gristUsed (p : Nat) (s : State) : Nat := s.colls.foldl (fun n e => if e.2.part = p then n + e.2.foot else n) 0

/-- R388: the bytes of an element of DTYPE. -/
def dtypeSize (d : Nat) : Nat := if d = 1 then 2 else if d = 2 ∨ d = 3 then 1 else 4

/-- R391: the bytes of a partial. -/
def partialSize (dtype ctl : Nat) : Nat :=
  if ctl % 4 = 0 ∧ (dtype = 2 ∨ dtype = 3 ∨ (dtype = 1 ∧ ctl.testBit 2)) then 4 else dtypeSize dtype

/-- R388: the first element of chunk `k`. -/
def chunkAt (count g k : Nat) : Nat := k * count / g

/-- Is the operation a reduction? -/
def isReduce (op : Nat) : Bool := op < 2

/-- R399: the footprint in normal mode. -/
def normalFoot (op count a : Nat) : Nat :=
  if isReduce op then (count * a + 65535) / 65536 * 65536 else if op = 4 then 1114112 else 1048576

/-- R401: the smallest footprint. -/
def leastFoot (op g a : Nat) : Nat := if isReduce op then g * 1024 * a else normalFoot op 0 a

/-- R402: SLICE (0 in normal mode) and the footprint under a quota in bytes. -/
def collMode (op count g a quota : Nat) : Nat × Nat :=
  let n := normalFoot op count a
  if isReduce op && quota < n then
    let sl := quota / (g * a) / 1024 * 1024
    (sl, g * sl * a)
  else (0, n)

/-! ### Arithmetic (R391) -/

/-- The bytes of a list as words of `a` bytes. -/
def wordsLe (a : Nat) (l : List Byte) : List Nat := (List.range (l.length / a)).map fun i => dField l (a * i) a

/-- Words as bytes. -/
def bytesLe (a : Nat) (l : List Nat) : List Byte := (l.map (leBytes a)).flatten

/-- A 32-bit float of a word. -/
def w32 (n : Nat) : B32 := BitVec.ofNat 32 n
/-- A BF16 of a word. -/
def w16 (n : Nat) : B16 := BitVec.ofNat 16 n

/-- The value of an FP8 code of DTYPE 2 or 3. -/
def fp8Dec (dtype n : Nat) : FV := if dtype = 2 then e4m3Dec (BitVec.ofNat 8 n) else e5m2Dec (BitVec.ofNat 8 n)

/-- MAX or MIN of two FP8 codes: NaN when either is NaN, with a free sign and payload (log entry 6), +0 above −0. -/
def fp8MaxMin (dtype : Nat) (mn : Bool) (x y : Nat) : Nat :=
  let nan := (nan32 (seed2 12 (w32 x) (w32 y))).toNat / 2 ^ 31 * 128 + 0x7F
  match fp8Dec dtype x, fp8Dec dtype y with
  | .nan, _ => nan
  | _, .nan => nan
  | a, b => if fvRankLt a b = mn then x else y

/-- R391: combine the partial received, the left operand, with the member's own. -/
def collCombine (dtype ctl x y : Nat) : Nat :=
  let mn := ctl % 4 = 2
  if ctl % 4 = 0 then
    if dtype = 4 then (x + y) % 2 ^ 32
    else if dtype = 1 ∧ !ctl.testBit 2 then (cvt32Bf (add32 (cvtBf32 (w16 x)) (cvtBf32 (w16 y)))).toNat
    else (add32 (w32 x) (w32 y)).toNat
  else match dtype with
    | 0 => (if mn then min32 (w32 x) (w32 y) else max32 (w32 x) (w32 y)).toNat
    | 1 =>
      let a := cvtBf32 (w16 x)
      let b := cvtBf32 (w16 y)
      (cvt32Bf (if mn then min32 a b else max32 a b)).toNat
    | 4 => if decide ((w32 x).toInt < (w32 y).toInt) = mn then x else y
    | _ => fp8MaxMin dtype mn x y

/-- An input element as a partial. -/
def collPartial (dtype ctl x : Nat) : Nat :=
  if partialSize dtype ctl = dtypeSize dtype then x
  else if dtype = 1 then (cvtBf32 (w16 x)).toNat
  else (enc32 (13 + 16 * x) (fp8Dec dtype x)).toNat

/-- A reduced partial as an output element, and whether it saturated. -/
def collOutput (dtype ctl x : Nat) : Nat × Nat :=
  if partialSize dtype ctl = dtypeSize dtype then (x, 0)
  else if dtype = 1 then ((cvt32Bf (w32 x)).toNat, 0)
  else
    let r := quantElem (if dtype = 2 then elE4m3 else elE5m2) false 0 (w32 x) ⟨0, 0, 0⟩
    (r.1, r.2.sat)

/-! ### Parts of a collective -/

/-- Replace a collective. -/
def setColl (n : Nat) (c : Coll) (s : State) : State := { s with colls := putO s.colls n c }
/-- A collective. -/
def getColl (n : Nat) (s : State) : Option Coll := lookO s.colls n
/-- Change a collective, if it exists. -/
def modColl (n : Nat) (f : Coll → Coll) (s : State) : State :=
  match getColl n s with | some c => setColl n (f c) s | none => s
/-- Remove a collective. -/
def delColl (n : Nat) (s : State) : State := { s with colls := smDel s.colls n }

/-- The group's size. -/
def Coll.g (c : Coll) : Nat := c.members.length
/-- The bytes of an element. -/
def Coll.e (c : Coll) : Nat := dtypeSize c.dtype
/-- The bytes of a partial. -/
def Coll.a (c : Coll) : Nat := partialSize c.dtype c.ctl
/-- Position arithmetic on the ring: `i` places before this member. -/
def Coll.back (c : Coll) (i : Nat) : Nat := (c.pos + c.g * (i / c.g + 1) - i) % c.g
/-- The successor. -/
def Coll.succ (c : Coll) : Nat := (c.pos + 1) % c.g
/-- The elements of chunk `k`. -/
def Coll.len (c : Coll) (k : Nat) : Nat := chunkAt c.count c.g (k + 1) - chunkAt c.count c.g k
/-- The chunk of an element. -/
def Coll.chunkOf (c : Coll) (x : Nat) : Nat :=
  match (List.range c.g).find? fun k => x < chunkAt c.count c.g (k + 1) with | some k => k | none => 0
/-- Elements per strip of a chunk. -/
def Coll.sliceLen (c : Coll) : Nat := if c.slice = 0 then max c.count 1 else c.slice
/-- The elements of chunk `k` in strip `t`. -/
def Coll.inStrip (c : Coll) (k t : Nat) : Nat := min c.sliceLen (c.len k - t * c.sliceLen)
/-- The strips of a collective. -/
def Coll.strips (c : Coll) : Nat :=
  ((List.range c.g).foldl (fun m k => max m (c.len k)) 0 + c.sliceLen - 1) / c.sliceLen
/-- R392: the elements that this member receives in strip `t`. -/
def Coll.expect (c : Coll) (t : Nat) : Nat :=
  (List.range c.g).foldl (fun n k =>
    n + (if isReduce c.op && k ≠ c.back 1 then c.inStrip k t else 0) +
      (if (c.op = 0 || c.op = 2) && k ≠ c.pos then c.inStrip k t else 0)) 0

/-- R388: the bytes that a member reads at SRC: offset from SRC and length. -/
def readLen (op count g r e rb : Nat) : Nat :=
  if op = 2 then (chunkAt count g (r + 1) - chunkAt count g r) * e
  else if op = 3 ∨ op = 4 then g * count * rb
  else if op = 5 ∧ r ≠ 0 then 0 else count * e

/-- R388: the bytes that a member writes at DST. -/
def writeLen (op count g r e rb cap : Nat) : Nat :=
  if op = 1 then (chunkAt count g (r + 1) - chunkAt count g r) * e
  else if op = 3 then g * count * rb
  else if op = 4 then cap * rb else count * e

/-- R395: the size of the metadata area: COUNTS, records and DROP_MASK. -/
def metaLen (g : Nat) : Nat := (4 * g + 63) / 64 * 64 + 16 * g + 8 * ((g + 63) / 64)

/-! ### Packets (R417) -/

/-- A packet of the engine to chip `dst`. -/
def collPacket (c : Coll) (typ : Nat) (data : List Byte) (s : State) : Packet :=
  { packet0 with
    typ := typ, vc := 2, part := c.part, src := ownChip s, unit := 0x380, tag := c.seq % 65536, group := c.group
    len := data.length, data := data }

/-- Send a COLL packet to a member. -/
def collSend (c : Coll) (dest ph off : Nat) (data : List Byte) (s : State) : State :=
  sendPacket 8 { collPacket c 5 data s with dst := c.members.getD dest 0, addr := ph * 2 ^ 36 + off } s

/-- A 16-byte payload of two words. -/
def twoWords (a b : Nat) : List Byte := leBytes 8 a ++ leBytes 8 b

/-- R403: the fingerprint of a collective. -/
def collPrint (c : Coll) : Nat :=
  (Config.fingerprint (leBytes 1 c.op ++ leBytes 1 c.ctl ++ leBytes 1 c.dtype ++ leBytes 5 c.count ++
    leBytes 4 c.rowBytes)).toNat

/-- R403: grant space to a member that sends to this one, with HASH and fingerprint. -/
def collGrant (c : Coll) (dest n : Nat) (s : State) : State :=
  collSend c dest 5 0 (twoWords n (c.hash + collPrint c * 2 ^ 32)) s

/-- R392: a member's pieces of up to 512 bytes. -/
def collPieces (dest ph off : Nat) (l : List Byte) : List CollSend :=
  (chunks 512 ((l.length + 511) / 512) l).zip (List.range ((l.length + 511) / 512)) |>.map fun p =>
    ⟨dest, ph, off + 512 * p.2, p.1⟩

/-- May a piece be sent: is its space granted? A broadcast needs the space of every other member (R398). -/
def hasSpace (c : Coll) (p : CollSend) : Bool :=
  if p.dest = c.g then (List.range c.g).all fun i => i = c.pos || p.data.length ≤ smLook 0 c.credit i
  else p.data.length ≤ smLook 0 c.credit p.dest

/-- Use the space of a piece. -/
def useSpace (p : CollSend) (c : Coll) : Coll :=
  let f (m : SMap Nat) (i : Nat) : SMap Nat := smMod 0 m i (· - p.data.length)
  { c with credit := if p.dest = c.g then (List.range c.g).foldl f c.credit else f c.credit p.dest }

/-- Send what has space, in order for each member. -/
def collFlush (n : Nat) (s : State) : State :=
  match getColl n s with
  | none => s
  | some c =>
    c.sends.foldl (fun (s : State) p =>
      match getColl n s with
      | none => s
      | some x =>
        if (x.sends.takeWhile (· ≠ p)).all (fun q => q.dest ≠ p.dest) && hasSpace x p then
          let s := setColl n (useSpace p { x with sends := x.sends.erase p }) s
          if p.dest = x.g then
            sendPacket 8 { collPacket x 6 p.data s with mcast := true, addr := p.off } s
          else collSend x p.dest p.phase p.off p.data s
        else s) s

/-- Queue pieces and send what has space. -/
def collQueue (n : Nat) (ps : List CollSend) (s : State) : State :=
  collFlush n (modColl n (fun c => { c with sends := c.sends ++ ps }) s)

/-- Space that `k` bytes from a member have freed is granted to it again, while it still has bytes to send. -/
def collRegrant (n src k : Nat) (s : State) : State :=
  match getColl n s with
  | none => s
  | some c =>
    let k := min k (smLook 0 c.owe src)
    if k = 0 then s else collGrant c src k (setColl n { c with owe := smMod 0 c.owe src (· - k) } s)

/-! ### Failures (R415, R416) -/

/-- A collective ends without its result. -/
def collFail (n status detail : Nat) (s : State) : State :=
  match getColl n s with
  | none => s
  | some c => finishCmd c.ring c.idx status 0 detail c.wrote false (delColl n s)

/-- Read this module's memory at an offset: the bytes, or the block that does not decode. -/
def collRead (off n : Nat) (s : State) : Except Nat (List Byte) × State :=
  match homeRead off n 0x380 s with
  | (.ok, l, s) => (.ok l, s)
  | (.uncorrectable b, _, s) => (.error b, s)
  | (_, _, s) => (.ok [], s)

/-- Write this module's memory; a block that does not decode ends the collective. -/
def collWrite (n off : Nat) (l : List Byte) (s : State) : State :=
  if l.isEmpty then s
  else
    let s := modColl n (fun c => { c with wrote := true }) s
    match homeWrite off l 0x380 s with
    | (.uncorrectable b, s) => collFail n 0x0202 b s
    | (_, s) => s

/-- Write output at DST + `o` and count it. -/
def collOut (n o : Nat) (l : List Byte) (s : State) : State :=
  match getColl n s with
  | none => s
  | some c => modColl n (fun c => { c with got := c.got + l.length }) (collWrite n (c.dst + o) l s)

/-! ### Revocation (R407, R413) -/

/-- R413: member 0 multicasts REVOKE once for a collective. -/
def revokeAll (c : Coll) (chip pos : Nat) (s : State) : State :=
  if s.rootRevoked.contains (c.group, c.seq) then s
  else
    let data := leBytes 8 c.seq ++ leBytes 2 chip ++ leBytes 2 pos ++ leBytes 4 0
    bump Reg.COL_REVOKES_SENT 1 (sendPacket 8 { collPacket c 7 data s with
      vc := 4, part := 0, ctrl := 1, mcast := true } { s with rootRevoked := s.rootRevoked ++ [(c.group, c.seq)] })

/-- R413: tell member 0 of a detection. -/
def revokeRoot (c : Coll) (s : State) : State :=
  let data := leBytes 8 c.seq ++ leBytes 2 (ownChip s) ++ leBytes 2 c.pos ++ leBytes 4 0
  bump Reg.COL_REVOKES_SENT 1 (sendPacket 8 { collPacket c 7 data s with
    vc := 4, part := 0, ctrl := 2, dst := c.members.getD 0 0 } s)

/-- R410: a SETTLED or REVOKED that follows RESULT falls due; it is written after the completions already due. -/
def lateAdd (r : Nat) (k : Compl) (s : State) : State :=
  let s := modR r (fun x => { x with late := x.late ++ [k] }) s
  if s.frozen then { s with held := s.held ++ [.commandComplete ⟨r % 262144, Nat.mod_lt _ (by decide)⟩] }
  else if (getR r s).blocked then s
  else postLate r ((getR r s).late.length) (postDue r ((getR r s).cmds.length) s)

/-- R409: a completion of a collective after its RESULT. -/
def lateCompl (c : Coll) (status kind aux detail : Nat) : Compl :=
  ⟨c.idx, status, 0x10, kind, false, c.tag, aux, detail, false⟩

/-- R409, R413: the AUX and DETAIL of a REVOKED. -/
def revokedAux (c : Coll) : Nat := c.seq % 2 ^ 32

/-- R413: a member learns of a revocation that `chip` detected. -/
def collLearn (n chip : Nat) (s : State) : State :=
  match getColl n s with
  | none => s
  | some c =>
    if c.revoke.isSome then s
    else
      let s := setColl n { c with revoke := some chip } s
      match c.st with
      | .resulted t =>
        lateAdd c.ring (lateCompl c 0x0310 3 (revokedAux c) (chip * 2 ^ 40)) (modColl n (fun c => { c with st := .revoked t }) s)
      | .ended => modCmd c.ring c.idx (fun k => { k with st := .done 0x0310 (revokedAux c) (chip * 2 ^ 40) false false }) s
      | _ => s

/-- R407: a detection: logged, counted, and the collective revoked. -/
def collDetect (n lane : Nat) (s : State) : State :=
  match getColl n s with
  | none => s
  | some c =>
    let s := logEv .collResidueFault (some c.part) (some c.ctx) c.group (leBytes 8 c.seq ++ leBytes 2 lane) s
    let s := bump Reg.COL_RESIDUE_FAULTS 1 s
    let s := if c.pos = 0 then revokeAll c (ownChip s) 0 s else revokeRoot c s
    collLearn n (ownChip s) s

/-! ### The end of a collective -/

/-- R396: the order in which this destination grants. -/
def grantOrder (c : Coll) : List Nat :=
  (List.range c.g).map fun i => if c.ctl.testBit 4 then (c.seq + i) % c.g else i

/-- R396: the grants that the counts known so far decide: source, rows, first row. -/
def grantList (cap : Nat) (counts : SMap Nat) : Nat → List Nat → List (Nat × Nat × Nat)
  | _, [] => []
  | used, i :: is =>
    match lookO counts i with
    | none => []
    | some k =>
      let m := min k (cap - used)
      (i, m, used) :: grantList cap counts (used + m) is

/-- The rows granted to all sources. -/
def Coll.rows (c : Coll) : Nat := c.granted.foldl (fun n e => n + e.2.1) 0

/-- R409: does the member hold its whole output? -/
def collHolds (c : Coll) : Bool :=
  c.st = .running &&
  (if c.op = 4 then c.granted.length = c.g && c.grants.length = c.g && c.got = c.rows * c.rowBytes
   else c.got = writeLen c.op c.count c.g c.pos c.e c.rowBytes c.cap && (c.op = 5 || c.op = 3 || c.strips ≤ c.strip))

/-- R397: rows of the member's own input that were dropped. -/
def collDropped (c : Coll) : Nat :=
  (List.range c.g).foldl (fun n j => n + (c.mine.getD j 0 - (match lookO c.grants j with | some x => x.1 | none => 0))) 0

/-- R395: the records and DROP_MASK. -/
def collMeta (c : Coll) : List Byte :=
  let gr (m : SMap (Nat × Nat)) (j : Nat) : Nat × Nat := match lookO m j with | some x => x | none => (0, 0)
  let rows := (List.range c.g).map fun j =>
    leBytes 4 (gr c.grants j).1 ++ leBytes 4 (c.mine.getD j 0 - (gr c.grants j).1) ++
    leBytes 4 (gr c.granted j).2 ++ leBytes 4 (gr c.granted j).1
  let mask := (List.range c.g).foldl (fun m j => if (gr c.grants j).1 < c.mine.getD j 0 then m + 2 ^ j else m) 0
  rows.flatten ++ leBytes (8 * ((c.g + 63) / 64)) mask

/-- R395, R396: what an ALL_TO_ALL_CAP writes at its end: zero rows, then the metadata. -/
def collCapEnd (n : Nat) (c : Coll) (s : State) : State :=
  let s := bump Reg.COL_A2A_DROPPED_ROWS (c.counts.foldl (fun k e => k + e.2) 0 - c.rows) s
  let s := collWrite n (c.dst + c.rows * c.rowBytes) (List.replicate ((c.cap - c.rows) * c.rowBytes) 0) s
  if (getColl n s).isNone then s else collWrite n (c.mta + (4 * c.g + 63) / 64 * 64) (collMeta c) s

/-- R409: a member that holds its whole output ends the collective; RESULT, or REVOKED in its place, is then due. -/
def collSettle (n : Nat) (s : State) : State :=
  match getColl n s with
  | none => s
  | some c =>
    if !collHolds c then s
    else
      let s := if c.op = 4 then collCapEnd n c s else s
      if (getColl n s).isNone then s
      else
        let aux := if c.op = 4 then min (collDropped c) (2 ^ 32 - 1) else c.sat
        let s := finishCmd c.ring c.idx 0 aux 0 false false (modColl n (fun c => { c with st := .ended }) s)
        let s := match c.revoke with
          | some chip =>
            modCmd c.ring c.idx (fun k => { k with st := .done 0x0310 (revokedAux c) (chip * 2 ^ 40) false false }) s
          | none => s
        if c.ctl.testBit 3 then collDetect n (freeNat s % 1024) (tick1 s) else s

/-! ### The ring schedule (R392) -/

/-- Queue the first send of strip `t`: chunk r − 1 of the partials, or the own chunk of an ALL_GATHER. -/
def stripStart (n t : Nat) (s : State) : State :=
  match getColl n s with
  | none => s
  | some c =>
    let k := if c.op = 2 then c.pos else c.back 1
    let w := if c.op = 2 then c.e else c.a
    let o := (chunkAt c.count c.g k + t * c.sliceLen) * w
    if c.g = 1 then s
    else collQueue n (collPieces c.succ (if c.op = 2 then 1 else 0) o (sliceB c.acc o (c.inStrip k t * w))) s

/-- R392, R394: while the strip that runs has been received whole, the next begins. -/
def stripNext (n : Nat) : Nat → State → State
  | 0, s => s
  | k + 1, s =>
    match getColl n s with
    | none => s
    | some c =>
      if c.strip < c.strips && smLook 0 c.recv c.strip = c.expect c.strip then
        let s := setColl n { c with strip := c.strip + 1 } s
        stripNext n k (if c.strip + 1 < c.strips then stripStart n (c.strip + 1) s else s)
      else s

/-- Elements received of a strip; then the next strip may begin and the collective may end. -/
def stripGot (n t k : Nat) (s : State) : State :=
  let s := modColl n (fun c => { c with recv := smMod 0 c.recv t (· + k) }) s
  match getColl n s with
  | none => s
  | some c => collSettle n (stripNext n (c.strips + 1) s)

/-- R392: a reduced piece of the own chunk, at element `x`, is final: it is converted and written, and an ALL_REDUCE
sends it on. -/
def collFinal (n x : Nat) (l : List Byte) (s : State) : State :=
  match getColl n s with
  | none => s
  | some c =>
    let rs := (wordsLe c.a l).map (collOutput c.dtype c.ctl)
    let out := bytesLe c.e (rs.map (·.1))
    let s := modColl n (fun c => { c with sat := c.sat + rs.foldl (fun k r => k + r.2) 0 }) s
    let o := if c.op = 1 then (x - chunkAt c.count c.g c.pos) * c.e else x * c.e
    let s := collOut n o out s
    if c.op = 0 ∧ 1 < c.g then collQueue n (collPieces c.succ 1 (x * c.e) out) s else s

end Sys2Proof.Machine
end

