-- ==== Sys2Proof/Machine/Coll.lean ====
section
/-! DEFINITION. Machine/Coll.lean: the COLLECTIVE command (R387 to R402), admission (R403), and the events of the
collective engine (R392 to R416). -/

namespace Sys2Proof.Machine

/-! ### The command -/

/-- R388, R389: do two ranges overlap? -/
def overlap (a n b m : Nat) : Bool := n ≠ 0 && m ≠ 0 && a < b + m && b < a + n

/-- R387, R389: the layout of a COLLECTIVE. -/
def collLayout (d : List Byte) (s : State) : Chk :=
  let op := dField d 10 1
  let e := dtypeSize (dField d 12 1)
  let count := dField d 40 8
  let rb := dField d 48 4
  let cap := dField d 52 4
  let src := dField d 24 8
  let dst := dField d 32 8
  let a2a := op = 3 || op = 4
  orElse (badLayout ((dField d 1 1).testBit 1 || 4096 ≤ dField d 8 2 || 32 ≤ dField d 11 1 || !dZero d 13 3 ||
      2 ^ 40 ≤ src || 2 ^ 40 ≤ dst || 2 ^ 40 ≤ count || count = 0))
    (orElse (badLayout (if a2a then rb % 16 ≠ 0 || rb = 0 || 65536 < rb else rb ≠ 0))
      (orElse (badLayout (if op = 4 then 2 ^ 24 < cap || dField d 56 8 % 64 ≠ 0 || 2 ^ 40 ≤ dField d 56 8
          else cap ≠ 0 || dField d 56 8 ≠ 0))
        (match lookO s.groups (dField d 8 2) with
          | none => none
          | some g =>
            let n := g.members.length
            let r := g.members.idxOf (ownChip s)
            badLayout ((op = 5 && r ≠ 0 && src ≠ 0) ||
              (overlap src (readLen op count n r e rb) dst (writeLen op count n r e rb cap) && !(op = 0 && src = dst))))))

/-- R390: the types and reductions of an operation. -/
def collOpOk (d : List Byte) : Bool :=
  let op := dField d 10 1
  let ctl := dField d 11 1
  let dt := dField d 12 1
  let redop := ctl % 4
  let wide := ctl.testBit 2
  op ≤ 5 && dt ≤ 4 &&
  (if op < 2 then redop < 3 && (!wide || (dt = 1 && redop = 0))
   else redop = 0 && !wide && (op = 2 || op = 5 || dt = 0))

/-- R398: a broadcast needs its multicast entry. -/
def treeOk (g : Nat) (s : State) : Bool := (smLook 0 s.mcast (getF Reg.FAB_EPOCH_CURRENT s * 4096 + g)).testBit 7

/-- R401: the group, the sequence number, the slots and the quota. -/
def collQueueOk (part : Nat) (d : List Byte) (s : State) : Chk :=
  let g := dField d 8 2
  let seq := dField d 16 8
  match lookO s.groups g with
  | none => some (0x0301, 0)
  | some grp =>
    orElse (refuse 0x0301 (grp.part ≠ part))
      (orElse (refuse 0x0303 (seq ≤ getF (fldNth Reg.COL_LAST_SEQ part) s ||
          s.colls.any fun e => e.2.group = g && collLive e.2 && e.2.seq % 65536 = seq % 65536))
        (orElse (refuse 0x0307 (getF (slotsF part) s ≤ (s.colls.filter fun e => e.2.part = part && collLive e.2).length))
          (refuse 0x0304 (getF (quotaF part) s * 2 ^ 20 <
            leastFoot (dField d 10 1) grp.members.length (partialSize (dField d 12 1) (dField d 11 1))))))

/-- R387: memory of the issuing module that a collective may name. -/
def collMem (part off n : Nat) (wr : Bool) (s : State) : Chk :=
  if n = 0 then none else if off < regWin then noAccess part (ownGlobal off s) n wr s else some (0x0104, ownGlobal off s)

/-- R387, R388, R395: the accesses of a collective. -/
def collAccess (part : Nat) (d : List Byte) (s : State) : Chk :=
  let op := dField d 10 1
  let e := dtypeSize (dField d 12 1)
  let count := dField d 40 8
  let rb := dField d 48 4
  match lookO s.groups (dField d 8 2) with
  | none => none
  | some grp =>
    let n := grp.members.length
    let r := grp.members.idxOf (ownChip s)
    orElse (collMem part (dField d 24 8) (readLen op count n r e rb) false s)
      (orElse (collMem part (dField d 32 8) (writeLen op count n r e rb (dField d 52 4)) true s)
        (if op = 4 then orElse (collMem part (dField d 56 8) (metaLen n) false s) (collMem part (dField d 56 8) (metaLen n) true s)
         else none))

/-- The checks of a COLLECTIVE after its header, in the order of R267 and of this chapter. -/
def collCheck (part : Nat) (d : List Byte) (s : State) : Chk :=
  orElse (collLayout d s) (orElse (refuse 0x0302 !collOpOk d)
    (orElse (refuse 0x0306 (dField d 10 1 = 5 && !treeOk (dField d 8 2) s))
      (orElse (collQueueOk part d s) (collAccess part d s))))

/-- A collective joins the admission queue (R403). -/
def collJoin (r i : Nat) (d : List Byte) (g : CollGroup) (mine : List Nat) (s : State) : State :=
  let c : Coll := {
    ring := r, idx := i, tag := dField d 4 4, ctx := (getR r s).ctx, part := ringPart r s, group := dField d 8 2
    seq := dField d 16 8, op := dField d 10 1, ctl := dField d 11 1, dtype := dField d 12 1, src := dField d 24 8
    dst := dField d 32 8, count := dField d 40 8, rowBytes := dField d 48 4, cap := dField d 52 4, mta := dField d 56 8
    mine := mine, members := g.members, pos := g.members.idxOf (ownChip s), hash := g.hash, window := settleWindow g s }
  setWork r i .elsewhere (setColl s.collSeq c { s with collSeq := s.collSeq + 1 })

/-- R395: COUNTS are read and checked; then the collective joins its queue. -/
def collStart (r i : Nat) (d : List Byte) (s : State) : State :=
  match lookO s.groups (dField d 8 2) with
  | none => s
  | some g =>
    if dField d 10 1 ≠ 4 then collJoin r i d g [] s
    else match collRead (dField d 56 8) (4 * g.members.length) s with
      | (.error b, s) => finishCmd r i 0x0202 0 b false false s
      | (.ok l, s) =>
        let mine := wordsLe 4 l
        if mine.any (fun k => dField d 40 8 < k) then refuseCmd r i (0x0102, 0) s else collJoin r i d g mine s

/-- CMD_COLLECTIVE (R387 to R403). -/
def execCmdCollective (ring : RingId) (s : State) : Ans :=
  .next (startCmd 0x10 ring.val (fun d s => collCheck (ringPart ring.val s) d s) (collStart ring.val) s)

/-! ### Admission -/

/-- The collective at the head of a partition's queue. -/
def collHead (p : Nat) (s : State) : Option (Nat × Coll) := s.colls.find? fun e => e.2.part = p && e.2.st = .waiting

/-- R412: have the earlier commands of an ORDERED ring completed? -/
def collTurn (c : Coll) (s : State) : Bool :=
  (getR c.ring s).unordered || match (getR c.ring s).cmds with | k :: _ => k.idx = c.idx | [] => false

/-- R403: the members that send to this one, with the bytes that each sends, at most. -/
def collSenders (c : Coll) : List (Nat × Nat) :=
  let others := (List.range c.g).filter fun i => i ≠ c.pos
  if c.op = 5 then (if c.pos = 0 then [] else [(0, c.count * c.e)])
  else if c.op = 3 then others.map fun i => (i, c.count * c.rowBytes)
  else if c.op = 4 then others.map fun i => (i, c.cap * c.rowBytes)
  else if c.g = 1 then []
  else
    let rs := if isReduce c.op then (c.count - c.len (c.back 1)) * c.a else 0
    let ag := if c.op = 0 ∨ c.op = 2 then (c.count - c.len c.pos) * c.e else 0
    [(c.back 1, rs + ag)]

/-- R403: send readiness and the first grant of space to every member that sends to this one. The footprint is shared
evenly among them, with room for one packet at least. -/
def collReady (n : Nat) (s : State) : State :=
  match getColl n s with
  | none => s
  | some c =>
    let l := collSenders c
    l.foldl (fun (s : State) p =>
      let w := min p.2 (max 512 (c.foot / l.length))
      collGrant c p.1 w (modColl n (fun x => { x with owe := smPut 0 x.owe p.1 (p.2 - w) }) s)) s

/-- R396: copy the member's own rows of an all-to-all, which no link carries. -/
def collOwnRows (n : Nat) (c : Coll) (rows first : Nat) (s : State) : State :=
  collOut n (first * c.rowBytes) (sliceB c.acc (c.pos * c.count * c.rowBytes) (rows * c.rowBytes)) s

/-- R396: grant what the counts known decide, to the sources that have no grant yet. -/
def collGrantRows (n : Nat) (s : State) : State :=
  match getColl n s with
  | none => s
  | some c =>
    let l := (grantList c.cap c.counts 0 (grantOrder c)).filter fun x => (lookO c.granted x.1).isNone
    l.foldl (fun (s : State) x =>
      let s := modColl n (fun c => { c with granted := putO c.granted x.1 x.2 }) s
      if x.1 = c.pos then collOwnRows n c x.2.1 x.2.2 (modColl n (fun c => { c with grants := putO c.grants x.1 x.2 }) s)
      else collSend c x.1 3 0 (twoWords x.2.1 x.2.2) s) s

/-- R396: tell the members that are ready how many rows this source has for them. -/
def collCounts (c : Coll) (l : List Nat) (s : State) : State :=
  l.foldl (fun (s : State) j => collSend c j 2 0 (twoWords (c.mine.getD j 0) c.rowBytes) s) s

/-- R403: what an admitted member does with its input. -/
def collBegin (n : Nat) (data : List Byte) (s : State) : State :=
  match getColl n s with
  | none => s
  | some c =>
    let s := collReady n s
    if isReduce c.op then
      let acc := bytesLe c.a ((wordsLe c.e data).map (collPartial c.dtype c.ctl))
      let s := modColl n (fun c => { c with acc := acc }) s
      let s := if c.g = 1 then collFinal n 0 acc s else stripStart n 0 s
      stripGot n 0 0 s
    else if c.op = 2 then
      let o := chunkAt c.count c.g c.pos * c.e
      let s := modColl n (fun c => { c with acc := List.replicate o 0 ++ data }) s
      stripGot n 0 0 (collOut n o data (stripStart n 0 s))
    else
      let s := modColl n (fun c => { c with acc := data }) s
      let sec := c.count * c.rowBytes
      if c.op = 3 then
        let ps := ((List.range c.g).filter fun j => j ≠ c.pos).map fun j =>
          collPieces j 4 (c.pos * sec) (sliceB data (j * sec) sec)
        collSettle n (collQueue n ps.flatten (collOut n (c.pos * sec) (sliceB data (c.pos * sec) sec) s))
      else if c.op = 4 then
        let s := modColl n (fun c => { c with counts := putO c.counts c.pos (c.mine.getD c.pos 0) }) s
        collSettle n (collGrantRows n (collCounts c c.ready s))
      else if c.pos = 0 then collQueue n (collPieces c.g 6 0 data) s
      else s

/-- COLL_ADMIT (R402, R403): the head of a partition's queue is admitted when its footprint fits. A member that has
admitted a higher SEQ meanwhile refuses it (R401, R404). -/
def execCollAdmit (p : PartId) (s : State) : Ans :=
  match collHead p.val s with
  | none => .next s
  | some e =>
    let c := e.2
    let quota := getF (quotaF p.val) s * 2 ^ 20
    let md := collMode c.op c.count c.g c.a quota
    if c.seq ≤ getF (fldNth Reg.COL_LAST_SEQ p.val) s then .next (collFail e.1 0x0303 0 s)
    else if quota < gristUsed p.val s + md.2 || (isReduce c.op && md.2 = 0) || !collTurn c s then .next s
    else
      let s := setF (fldNth Reg.COL_LAST_SEQ p.val) c.seq s
      let s := setColl e.1 { c with st := .running, slice := md.1, foot := md.2 } s
      let s := if md.1 = 0 then s else bump Reg.COL_STRIP_RUNS 1 s
      let s := modCmd c.ring c.idx (fun k => { k with started := true }) s
      match collRead c.src (readLen c.op c.count c.g c.pos c.e c.rowBytes) s with
      | (.error b, s) => .next (collFail e.1 0x0202 b s)
      | (.ok l, s) => .next (collBegin e.1 l s)

/-! ### Packets -/

/-- The first packet of a type and phase that waits at the hub. -/
def collPkt (typ ph : Nat) (s : State) : Option Packet :=
  s.hubIn.find? fun p => p.typ = typ && (typ ≠ 5 || p.addr / 2 ^ 36 = ph)

/-- R416: the collective that a packet belongs to: one admitted or waiting first. -/
def collFor (p : Packet) (s : State) : Option (Nat × Coll) :=
  let same (e : Nat × Coll) : Bool := e.2.group = p.group && e.2.seq % 65536 = p.tag
  match s.colls.find? fun e => same e && collLive e.2 with
  | some e => some e
  | none => s.colls.find? same

/-- R416: drop a stray packet. -/
def collStray (s : State) : State := bump Reg.COL_STRAY_PACKETS 1 s

/-- Take the first packet of a kind and, where the member holds its collective and the sender is a member, act on it:
`f` takes the collective's number, the collective, the sender's position, the offset and the payload. -/
def collTake (typ ph : Nat) (f : Nat → Coll → Nat → Nat → List Byte → State → State) (s : State) : Ans :=
  match collPkt typ ph s with
  | none => .next s
  | some p =>
    let s := { s with hubIn := s.hubIn.erase p }
    match collFor p s with
    | none => .next (collStray s)
    | some e =>
      if e.2.members.contains p.src then
        .next (f e.1 e.2 (e.2.members.idxOf p.src) (p.addr % 2 ^ (if typ = 5 then 36 else 40)) p.data s)
      else .next (collStray s)

/-- COLL_RS_SEGMENT (R392): received partials are the left operands; the result is final or goes on. -/
def execCollRsSegment (s : State) : Ans :=
  collTake 5 0 (fun n c i o l s =>
    if c.st ≠ .running ∨ !isReduce c.op ∨ i ≠ c.back 1 ∨ c.count * c.a < o + l.length then collStray s
    else
      let x := o / c.a
      let k := c.chunkOf x
      let own := wordsLe c.a (sliceB c.acc o l.length)
      let out := bytesLe c.a (((wordsLe c.a l).zip own).map fun p => collCombine c.dtype c.ctl p.1 p.2)
      let s := setColl n { c with acc := c.acc.take o ++ out ++ c.acc.drop (o + l.length) } s
      let s := if k = c.pos then collFinal n x out s else collQueue n (collPieces c.succ 0 o out) s
      stripGot n ((x - chunkAt c.count c.g k) / c.sliceLen) (l.length / c.a) (collRegrant n i l.length s)) s

/-- COLL_AG_SEGMENT (R392): a final piece is written, and forwarded unless the successor has it already. -/
def execCollAgSegment (s : State) : Ans :=
  collTake 5 1 (fun n c i o l s =>
    if c.st ≠ .running ∨ (c.op ≠ 0 ∧ c.op ≠ 2) ∨ i ≠ c.back 1 ∨ c.count * c.e < o + l.length then collStray s
    else
      let x := o / c.e
      let k := c.chunkOf x
      let s := collOut n o l s
      let s := if k = c.succ then s else collQueue n (collPieces c.succ 1 o l) s
      stripGot n ((x - chunkAt c.count c.g k) / c.sliceLen) (l.length / c.e) (collRegrant n i l.length s)) s

/-- COLL_ROW_COUNT (R396): a source's count; the destination grants what it decides. -/
def execCollRowCount (s : State) : Ans :=
  collTake 5 2 (fun n c i _ l s =>
    if c.st ≠ .running ∨ c.op ≠ 4 then collStray s
    else collSettle n (collGrantRows n (setColl n { c with counts := putO c.counts i (dField l 0 8) } s))) s

/-- COLL_GRANT (R396): a destination's grant; the source sends the rows that it grants. -/
def execCollGrant (s : State) : Ans :=
  collTake 5 3 (fun n c i _ l s =>
    if c.st ≠ .running ∨ c.op ≠ 4 then collStray s
    else
      let rows := dField l 0 8
      let first := dField l 8 8
      let s := setColl n { c with grants := putO c.grants i (rows, first) } s
      collSettle n (collQueue n (collPieces i 4 (first * c.rowBytes)
        (sliceB c.acc (i * c.count * c.rowBytes) (rows * c.rowBytes))) s)) s

/-- COLL_ROW_DATA (R396): rows are written at DST. -/
def execCollRowData (s : State) : Ans :=
  collTake 5 4 (fun n c i o l s =>
    if c.st ≠ .running ∨ (c.op ≠ 3 ∧ c.op ≠ 4) ∨ writeLen c.op c.count c.g c.pos c.e c.rowBytes c.cap < o + l.length then
      collStray s
    else collSettle n (collRegrant n i l.length (collOut n o l s))) s

/-- COLL_READY_GRANT (R403, R415): HASH and fingerprint are compared, and the space is noted. -/
def execCollReadyGrant (s : State) : Ans :=
  collTake 5 5 (fun n c i _ l s =>
    if collLive c ∧ dField l 8 8 ≠ c.hash + collPrint c * 2 ^ 32 then
      let chip := c.members.getD i 0
      collFail n 0x0305 (chip * 2 ^ 40) (logEv .collParamMismatch (some c.part) (some c.ctx) c.group
        (leBytes 8 c.seq ++ leBytes 2 chip) s)
    else
      let s := if c.op = 4 ∧ c.st = .running ∧ !c.ready.contains i then collCounts c [i] s else s
      collFlush n (setColl n { c with
        credit := smMod 0 c.credit i (· + dField l 0 8), ready := if c.ready.contains i then c.ready else c.ready ++ [i] } s)) s

/-- MC_WRITE_RECEIVED (R398): broadcast data is written at DST. -/
def execMcWriteReceived (s : State) : Ans :=
  collTake 6 0 (fun n c i o l s =>
    if c.st ≠ .running ∨ c.op ≠ 5 ∨ i ≠ 0 ∨ c.count * c.e < o + l.length then collStray s
    else collSettle n (collRegrant n i l.length (collOut n o l s))) s

/-! ### Detection and revocation -/

/-- The collective of a group and SEQ. -/
def collOf (g seq : Nat) (s : State) : Option (Nat × Coll) := s.colls.find? fun e => e.2.group = g && e.2.seq = seq

/-- RESIDUE_CHECK_RESULT (R407): the check of an operation on lane `lane` resolves. -/
def execResidueCheckResult (g : GroupId) (seq : B64) (lane : Fin 1024) (failed : Bool) (s : State) : Ans :=
  match collOf g.val seq.toNat s with
  | some e =>
    if failed && isReduce e.2.op && e.2.st ≠ .waiting && e.2.st ≠ .settled then .next (collDetect e.1 lane.val s)
    else .next s
  | none => .next s

/-- REVOKE_TO_ROOT_RECEIVED (R413): member 0 multicasts REVOKE; another module drops the packet as stray. -/
def execRevokeToRootReceived (s : State) : Ans :=
  match ctrlOf 2 s with
  | none => .next s
  | some p =>
    let s := ctrlTake p s
    match lookO s.groups p.group with
    | some g =>
      if g.members.headD 0 = ownChip s then
        let c : Coll := {
          ring := 0, idx := 0, tag := 0, ctx := 0, part := g.part, group := p.group, seq := dField p.data 0 8, op := 0
          ctl := 0, dtype := 0, src := 0, dst := 0, count := 0, rowBytes := 0, cap := 0, mta := 0, mine := []
          members := g.members, pos := 0, hash := g.hash, window := 0 }
        .next (revokeAll c (dField p.data 8 2) (dField p.data 10 2) s)
      else .next (collStray s)
    | none => .next (collStray s)

/-- REVOKE_RECEIVED (R413). -/
def execRevokeReceived (s : State) : Ans :=
  match ctrlOf 1 s with
  | none => .next s
  | some p =>
    let s := bump Reg.COL_REVOKES_RECEIVED 1 (ctrlTake p s)
    let seq := dField p.data 0 8
    let late (s : State) : State :=
      bump Reg.COL_LATE_REVOKES 1 (logEv .collLateRevoke (match lookO s.groups p.group with | some g => some g.part | none => none)
        none p.group (leBytes 8 seq) s)
    match collOf p.group seq s with
    | some e => if e.2.st = .settled then .next (late s) else .next (collLearn e.1 (dField p.data 8 2) s)
    | none => .next (late s)

/-- SETTLE_WINDOW_EXPIRE (R411): the window of a collective has passed since its RESULT: SETTLED is posted where no
revocation is known. What still waits for space at a peer is kept. -/
def execSettleWindowExpire (g : GroupId) (seq : B64) (s : State) : Ans :=
  .next (heldOr (.settleWindowExpire g seq) (fun s =>
    match collOf g.val seq.toNat s with
    | none => s
    | some e =>
      let c := e.2
      let leave (s : State) : State :=
        if c.sends.isEmpty then delColl e.1 s else setColl e.1 { c with st := .settled } s
      match c.st with
      | .resulted t =>
        if s.tb < t + c.window then s else leave (lateAdd c.ring (lateCompl c 0 2 0 0) s)
      | .revoked t => if s.tb < t + c.window then s else leave s
      | .settled => leave s
      | _ => s) s)

/-! ### What the registers show (R419) -/

/-- COL_INFLIGHT: admitted, waiting and in strip mode. -/
def collInflight (s : State) : Nat × Nat × Nat :=
  let adm := s.colls.filter fun e => collLive e.2 && e.2.st ≠ .waiting
  (adm.length, (s.colls.filter fun e => e.2.st = .waiting).length, (adm.filter fun e => e.2.slice ≠ 0).length)

/-- R403, R419: time that collectives spend in the admission queues. -/
def collWaiting (ns : Nat) (s : State) : State :=
  let k := (s.colls.filter fun e => e.2.st = .waiting).length
  if k = 0 then s else bump Reg.COL_ADMIT_WAIT_NS (k * ns) s

/-- R416: a context reset ends a context's collectives, and discards pending SETTLED completions. -/
def collDropCtx (c : Nat) (s : State) : State := { s with colls := s.colls.filter fun e => e.2.ctx ≠ c }

end Sys2Proof.Machine
end

