-- ==== Sys2Proof/Machine/LinkData.lean ====
section
/-! DEFINITION. Machine/LinkData.lean: arbitration (R338, R339); groups on a link: sending and credits (R301, R325, R328), receiving
and replay (R298, R302 to R304), Fallow (R313 to R315) and legacy idle (R316). -/

namespace Sys2Proof.Machine

/-! ### Arbitration (R338) -/

/-- R328: does the link hold the credits that a packet needs? -/
def hasCredits (x : Link) (p : Packet) : Bool :=
  creditsOf p + smLook 0 x.used (creditCode p) ≤ bufferCredits (creditCode p)

/-- R338: FAB_PART_WEIGHT of a partition, in bytes of quantum. -/
def quantum (p : Nat) (s : State) : Nat := getF Reg.FAB_PART_WEIGHT s / 256 ^ p % 256 * 64

/-- The packets of VCs 0 to 3 of a partition that could be sent now; `ok` says which packets hold their credits. -/
def partReady (ok : Packet → Bool) (q : List QPkt) (p : Nat) : List QPkt :=
  q.filter fun e => e.p.vc < 4 && e.p.part = p && ok e.p

/-- R338: the next VC of a partition in round robin after `last`. -/
def nextVc (l : List QPkt) (last : Nat) : Nat :=
  (((List.range 4).map fun i => (last + 1 + i) % 4).find? fun v => l.any fun e => e.p.vc = v).getD 0

/-- R338: within VC 2, the first packet of the next collective group after `last`; otherwise the first packet. -/
def nextInVc (l : List QPkt) (vc last : Nat) : Option QPkt :=
  let l := l.filter fun e => e.p.vc = vc
  if vc ≠ 2 then l.head?
  else
    let d (e : QPkt) : Nat := (e.p.group + 4096 - (last + 1) % 4096) % 4096
    l.foldl (fun a e => match a with
      | none => some e
      | some b => if d e < d b then some e else a) none

/-- R338: deficit round robin among partitions: the packet to send, and the arbitration moved on. -/
def drr (ok : Packet → Bool) (q : List QPkt) (s : State) : Nat → Arb → Option (QPkt × Arb)
  | 0, _ => none
  | n + 1, x =>
    let p := x.part
    let ready := partReady ok q p
    let vc := nextVc ready (smLook 3 x.vc p)
    let next (x : Arb) : Arb :=
      let p' := (p + 1) % 8
      { x with part := p', deficit := smMod 0 x.deficit p' (· + quantum p' s) }
    match nextInVc ready vc (smLook 4095 x.group p) with
    | none => drr ok q s n (next { x with deficit := smPut 0 x.deficit p 0 })
    | some e =>
      let size := packetSize e.p
      if size ≤ smLook 0 x.deficit p then
        some (e, { x with
          deficit := smMod 0 x.deficit p (· - size), vc := smPut 3 x.vc p vc
          group := if vc = 2 then smPut 4095 x.group p e.p.group else x.group })
      else drr ok q s n (next x)

/-- R338: the packet that an output starts next, in the order of the rule, and its arbitration then. -/
def pickPacket (ok : Packet → Bool) (q : List QPkt) (s : State) (x : Arb) : Option (QPkt × Arb) :=
  let first (f : Packet → Bool) : Option QPkt := q.find? fun e => f e.p && ok e.p
  match first (fun p => p.vc = 4), first (fun p => p.vc = 5 && p.hlc = 1), first (fun p => p.vc = 5 && p.hlc = 0) with
  | some e, _, _ => some (e, x)
  | none, some e, _ => some (e, x)
  | none, none, some e => some (e, x)
  | none, none, none => if (List.range 8).any fun p => !(partReady ok q p).isEmpty then drr ok q s 160 x else none

/-- R338, R339: a local output `o` (dies 6 and 7, hub 8) delivers up to `n` packets in the order of R338. -/
def serveLocal (o : Nat) : Nat → State → State
  | 0, s => s
  | n + 1, s =>
    match pickPacket (fun _ => true) (smLook [] s.outQ o) s (smLook {} s.portArb o) with
    | none => s
    | some e =>
      serveLocal o n (deliver e.1.inp e.1.p (dequeue o e.1 { s with portArb := smPut {} s.portArb o e.2 }))

/-- R338: what the local outputs deliver in 10 ns: up to 16 packets each, a free number (log entry 69). -/
def tickLocal (s : State) : State :=
  let n := freeNat s
  serveLocal 8 (n / 289 % 17) (serveLocal 7 (n / 17 % 17) (serveLocal 6 (n % 17) (tick1 s)))

/-- R328, R338: the packet that link `l` starts next leaves its queue with its credits taken. -/
def startPacket (l : Nat) (e : QPkt × Arb) (s : State) : State :=
  let p := { e.1.p with hops := e.1.p.hops + 1 }
  let s := modL l (fun y => { y with
    arb := e.2, used := smMod 0 y.used (creditCode p) (· + creditsOf p), txPart := some (p, packetBytes p) }) (dequeue l e.1 s)
  if e.1.inp < 6 then bump Reg.FAB_PASS_BYTES (packetSize p) (timerSet .passBytes 0 s) else s

/-- R297, R325, R328: fill `room` packet bytes of a group; a packet that does not fit goes on in the next group. The answer is the
packets that end in this group, and the bytes. -/
def fillGroup (l : Nat) : Nat → Nat → State → (List Packet × List Byte) × State
  | 0, _, s => (([], []), s)
  | n + 1, room, s =>
    if room = 0 then (([], []), s)
    else match (getL l s).txPart with
      | some t =>
        if t.2.length ≤ room then
          let r := fillGroup l n (room - t.2.length) (modL l (fun x => { x with txPart := none }) s)
          ((t.1 :: r.1.1, t.2 ++ r.1.2), r.2)
        else (([], t.2.take room), modL l (fun x => { x with txPart := some (t.1, t.2.drop room) }) s)
      | none =>
        match pickPacket (hasCredits (getL l s)) (smLook [] s.outQ l) s (getL l s).arb with
        | none => (([], []), s)
        | some e => fillGroup l n room (startPacket l e s)

/-! ### Sending -/

/-- R300: the two credit fields: the two codes that are owed most, at most 8,191 each; the lower code first of equals. -/
def creditPair (owed : SMap Nat) : (Nat × Nat) × (Nat × Nat) :=
  let best (skip : Nat) : Nat × Nat := (List.range 7).foldl (fun (a : Nat × Nat) c =>
    if c ≠ skip ∧ a.2 < min 8191 (smLook 0 owed c) then (c, min 8191 (smLook 0 owed c)) else a) (0, 0)
  let a := best 7
  (a, if a.2 = 0 then (0, 0) else best a.1)

/-- Send a group: its control word takes the ACK, the credits and a NAK that are due, and the lanes are coded. -/
def sendGroup (l : Nat) (g : Group) (s : State) : State :=
  let x := getL l s
  let c := creditPair x.owed
  let g := { g with
    ack := (x.rxNext + 65535) % 65536, credA := c.1, credB := c.2, nak := x.nakDue, released := x.released }
  let lanes := groupLanes (groupBytes g s.freeCtr) x.scr
  let owe (m : SMap Nat) (c : Nat × Nat) : SMap Nat := smMod 0 m c.1 (· - c.2)
  let s := if x.nakDue then timerSet .nakRepeat l (bumpLF l Reg.LNK_NAK_TX 1 s) else s
  emit (.group l x.pos g lanes.1) (modL l (fun y => { y with
    scr := lanes.2, pos := (y.pos + 1) % 963, nakDue := false, ackDue := 0, owed := owe (owe y.owed c.1) c.2 })
    { s with freeCtr := s.freeCtr + 3056 })

/-- R300: a NULL group. -/
def nullGroup (x : Link) : Group := ⟨true, (x.txSeq + 65535) % 65536, 0, (0, 0), (0, 0), false, false, false, [], []⟩

/-- R301, R303: what an ACTIVE link sends in a group slot: a kept group again, a NULL group when the replay buffer is full
or nothing can go, or a new DATA group. -/
def slotActive (l : Nat) (s : State) : State :=
  let x := getL l s
  if x.resume then sendGroup l (nullGroup x) s
  else match x.resend with
    | some i =>
      match x.kept[i]? with
      | some g =>
        sendGroup l g (bumpLF l Reg.LNK_REPLAYED 1 (modL l (fun y => { y with
          sentAt := y.sentAt.set i s.tb
          resend := if i + 1 < y.kept.length then some (i + 1) else none }) s))
      | none => sendGroup l (nullGroup x) (modL l (fun y => { y with resend := none }) s)
    | none =>
      if 256 ≤ x.kept.length then sendGroup l (nullGroup x) (bumpLF l Reg.LNK_REPLAY_FULL 1 s)
      else
        let r := fillGroup l 200 3056 s
        if r.1.2.isEmpty then sendGroup l (nullGroup x) r.2
        else
          let g : Group := ⟨false, x.txSeq, 0, (0, 0), (0, 0), false, false, false, r.1.1, r.1.2⟩
          sendGroup l g (modL l (fun y => { y with
            txSeq := (y.txSeq + 1) % 65536, kept := y.kept ++ [g], sentAt := y.sentAt ++ [s.tb], idle := 0 }) r.2)

/-- R313, R314: the direction sleeps: one row of SLEEP, and then its data lanes are dark. -/
def backToSleep (l : Nat) (s : State) : State :=
  emit (.row l 1 (ctlRow sleepBlock)) (setLF l Reg.LNK_STATE_FALLOW_TX 1 (bumpLF l Reg.LNK_FALLOW_ENTRIES 1
    (modL l (fun x => { x with brief := false, sleepAt := s.tb }) s)))

/-- R314: is there more than an ACK, a NAK or credit to wake for? -/
def wakeForData (l : Nat) (s : State) : Bool :=
  !(smLook [] s.outQ l).isEmpty || (getL l s).resend.isSome || (getL l s).txPart.isSome

/-- R314: may a direction that woke only for an ACK, a NAK or credit go back to sleep after its NULL group? -/
def sleepsAgain (l : Nat) (s : State) : Bool :=
  (getL l s).brief && !s.frozen && getLF l Reg.LNK_CFG_FALLOW_EN s = 1 && !wakeForData l s

/-- R318, R319: does this end's FRAMED generator run? -/
def framedTest (l : Nat) (s : State) : Bool :=
  (getL l s).st = .test && getLF l Reg.LNK_TEST_STAT_RUNNING s = 1 && getLF l Reg.LNK_TEST_CTL_PATTERN s = 2 &&
  !(getL l s).farLoop

/-- R294, R307: does the link send framed blocks: from BLOCK_LOCK on, or in a FRAMED test? -/
def sendsFramed (l : Nat) (s : State) : Bool :=
  match (getL l s).st with
  | .blockLock | .eqFine | .identify | .held | .retrain | .active => true
  | _ => framedTest l s

/-- R307, R319: a group slot of a pattern on the data lanes: 561 symbols of two bits. -/
def sendPrbs (l : Nat) (long : Bool) (s : State) : State :=
  emit (.prbs l long (getL l s).prbsTx) (modL l (fun x => { x with prbsTx := prbsSkip long 1122 x.prbsTx }) s)

/-- R319: a group slot of a test: the pattern that PATTERN selects. A far loop returns what it receives, and sends nothing of its
own. -/
def slotTest (l : Nat) (s : State) : State :=
  let x := getL l s
  if getLF l Reg.LNK_TEST_STAT_RUNNING s = 0 ∨ x.farLoop then s
  else if getLF l Reg.LNK_TEST_CTL_PATTERN s = 2 then
    let b := prbsBytes 3056 x.prbsTx
    sendGroup l { nullGroup x with body := b.1 } (modL l (fun x => { x with prbsTx := b.2 }) s)
  else sendPrbs l (getLF l Reg.LNK_TEST_CTL_PATTERN s = 1) s

/-- R294: a group's place in the period passes unused. -/
def passSlot (l : Nat) (s : State) : State :=
  modL l (fun x => { x with pos := (x.pos + 1) % 963, wakeIn := x.wakeIn - 1 }) s

/-- GROUP_SLOT (R301): a group boundary of the transmitter. -/
def execGroupSlot (l : LinkId) (s : State) : Ans :=
  let n := l.val
  let x := getL n s
  if !linkPresent n s then .next s
  else match x.st with
    | .active =>
      if getLF n Reg.LNK_STATE_FALLOW_TX s = 1 ∨ x.wakeIn ≠ 0 then .next (passSlot n s)
      else if sleepsAgain n s then .next (backToSleep n (sendGroup n { nullGroup x with fallow := true } s))
      else .next (slotActive n (if s.frozen then s else modL n (fun x => { x with brief := false }) s))
    | .blockLock | .eqFine | .identify | .held | .retrain => .next (sendGroup n (nullGroup x) s)
    | .clockDetect | .eqCoarse | .restore => .next (sendPrbs n true s)
    | .test => .next (slotTest n s)
    | _ => .next s

/-- R292, R294: rows 0 to 12 of a period: COMMA, and 12 rows of LANE_MSG, whose kinds and messages are the firmware's: free. -/
def periodRows (l : Nat) (s : State) : State :=
  let msg (r i : Nat) : LBlock :=
    let v := (Config.freeValue (s.freeCtr + 24 * r + i)).toNat
    ctlBlock (laneMsgBlock i (v % 8) (v / 8 % 2 ^ 32))
  (List.range 12).foldl (fun (s : State) r => emit (.row l 1 ((List.range 24).map (msg r))) s)
    (emit (.row l 1 (ctlRow commaBlock)) { s with freeCtr := s.freeCtr + 288 })

/-- PERIOD_START (R294): COMMA and lane messages on every lane; not while the direction sleeps, or sends WAKE rows. -/
def execPeriodStart (l : LinkId) (s : State) : Ans :=
  let n := l.val
  if !linkPresent n s then .next s
  else
    let s' := modL n (fun x => { x with pos := 0 }) s
    .next (if sendsFramed n s && getLF n Reg.LNK_STATE_FALLOW_TX s ≠ 1 && (getL n s).wakeIn = 0 then periodRows n s' else s')

/-! ### Receiving -/

/-- The distance from one SEQ to another, modulo 2^16. -/
def seqDiff (a b : Nat) : Nat := (a + 65536 - b) % 65536

/-- R302, R303: an ACK covers the kept groups up to it. -/
def takeAck (l ack : Nat) (s : State) : State :=
  modL l (fun x =>
    let rest := x.kept.dropWhile fun g => seqDiff ack g.seq < 32768
    let n := x.kept.length - rest.length
    if n = 0 then x
    else { x with
      kept := rest, sentAt := x.sentAt.drop n, resends := 0, nakSame := 0
      resend := match x.resend with
        | some i => if rest.isEmpty then none else some (i - n)
        | none => none }) s

/-- R303, R304: a NAK: everything kept is sent again; too many start a retrain. -/
def takeNak (l ack : Nat) (s : State) : State :=
  let x := getL l s
  let same := if x.nakAck = ack then x.nakSame + 1 else 1
  let recent := s.tb :: x.naks.filter fun t => s.tb < t + 1000000
  let s := modL l (fun x => { x with
    resend := if x.kept.isEmpty then none else some 0, nakAck := ack, nakSame := same, naks := recent }) s
  if 8 ≤ same ∨ getLF l Reg.LNK_CFG_RETRAIN_THRESH s < recent.length then startRetrain l s else s

/-- R300: the control word of an accepted group. After a retrain, the first one starts the resend. -/
def takeControl (l : Nat) (g : Group) (s : State) : State :=
  let s := takeAck l g.ack s
  let give (m : SMap Nat) (c : Nat × Nat) : SMap Nat := smMod 0 m c.1 (· - c.2)
  let s := modL l (fun x => { x with
    used := give (give x.used g.credA) g.credB, peerReleased := x.peerReleased || g.released
    resume := false
    resend := if x.resume && !x.kept.isEmpty then some 0 else x.resend }) s
  if g.nak then takeNak l g.ack s else s

/-- R302: a bad group or one that shows a loss: a NAK is due, once. -/
def groupLost (l : Nat) (s : State) : State :=
  modL l (fun x => if x.missing then x else { x with missing := true, nakDue := true }) s

/-- R298: the counts of the decoders. A CRC is compared when every codeword has been decoded. -/
def fecCounts (l : Nat) (x : RxWord) (s : State) : State :=
  let fixed := x.lanes.filterMap fun c => match c with | some (n + 1) => some (n + 1) | _ => none
  let s := bumpLF l Reg.LNK_FEC_CORR_CW fixed.length (bumpLF l Reg.LNK_FEC_CORR_BYTES (fixed.foldl (· + ·) 0) s)
  let s := bumpLF l Reg.LNK_FEC_UNCORR_CW x.uncorr s
  let s := if x.uncorr = 0 && x.crcBad then bumpLF l Reg.LNK_CRC_FAIL 1 s else s
  modL l (fun y => { y with laneCorr := (List.range 24).foldl (fun m i =>
    smMod 0 m i fun v => min (v + ((x.lanes.getD i none).getD 0)) (2 ^ 64 - 1)) y.laneCorr }) s

/-- R302, R308, R325: an in-order DATA group: the packets that its bytes complete go to the router. -/
def acceptData (l : Nat) (g : Group) (s : State) : State :=
  let x := getL l s
  let b := x.rxPart ++ g.body
  let ps := splitPackets b.length b
  let s := modL l (fun x => { x with
    rxNext := (x.rxNext + 1) % 65536, missing := false, ackDue := x.ackDue + 1, rxPart := ps.2
    ackAt := if x.ackDue = 0 then s.tb else x.ackAt }) s
  { s with rtIn := smMod [] s.rtIn l (· ++ ps.1) }

/-- R302: what a good group does in an ACTIVE or HELD link, by its SEQ. -/
def takeGroup (l : Nat) (g : Group) (s : State) : State :=
  let x := getL l s
  let d := seqDiff g.seq x.rxNext
  if g.null ∨ x.st = .held then takeControl l g s
  else if d = 0 then
    let s := takeControl l g s
    if (getL l s).peerReleased then acceptData l g s else s
  else if d < 32768 then groupLost l s
  else s

/-- GROUP_RECEIVED (R298, R302): a group's lanes are decoded and descrambled, and its CRC is compared. Groups of a link that trains,
and DATA groups before both ends are released, reach no router; a sleeping direction expects none. -/
def execGroupReceived (l : LinkId) (rx : RxGroup) (s : State) : Ans :=
  let n := l.val
  if !linkPresent n s ∨ !(sendsFramed n s || (getL n s).st = .test) ∨ getLF n Reg.LNK_STATE_FALLOW_RX s = 1 then .next s
  else
    let w := groupDecode rx.lanes (getLF n Reg.LNK_STATE_REVERSED s = 1) (getL n s).dscr
    let s := modL n (fun x => { x with dscr := w.dscr }) s
    match (getL n s).st with
    | .test => .next (fecCounts n w s)
    | .active | .held =>
      let s := fecCounts n w s
      .next (if w.bad then groupLost n s else takeGroup n (w.group rx.used) s)
    | _ => .next s

/-- NAK_REPEAT_TIMER (R302), every 2 µs while the expected group has not arrived. -/
def execNakRepeatTimer (l : LinkId) (s : State) : Ans :=
  .next (if (getL l.val s).missing && lnkActive l.val s then
    every .nakRepeat l.val 2000 (modL l.val (fun x => { x with nakDue := true })) s else s)

/-- R303, R304: what no ACK has covered is sent again; the fourth time in a row starts a retrain. -/
def replayAll (l : Nat) (s : State) : State :=
  let n := (getL l s).resends + 1
  let s := modL l (fun x => { x with resend := some 0, resends := n }) s
  if 4 ≤ n then startRetrain l s else s

/-- R303: has no ACK covered the oldest kept group within 10 µs of its last sending? -/
def replayDue (x : Link) (s : State) : Bool :=
  !x.kept.isEmpty && x.resend ≠ some 0 && decide (x.sentAt.headD 0 + 10000 ≤ s.tb)

/-- REPLAY_TIMEOUT (R303). -/
def execReplayTimeout (l : LinkId) (s : State) : Ans :=
  .next (if lnkActive l.val s && replayDue (getL l.val s) s then replayAll l.val s else s)

/-! ### Fallow -/

/-- R313: has the direction nothing to send, to be acknowledged, or to return? -/
def txIdle (l : Nat) (s : State) : Bool :=
  let x := getL l s
  (smLook [] s.outQ l).isEmpty && x.kept.isEmpty && !x.nakDue && x.ackDue = 0 && x.owed.isEmpty && !x.resume && x.txPart.isNone

/-- R313: has all of that held for IDLE_NS? -/
def idleLong (l : Nat) (s : State) : Bool := txIdle l s && getLF l Reg.LNK_CFG_IDLE_NS s ≤ (getL l s).idle

/-- R313: 10 ns of an idle direction, or of one that is not. -/
def tickIdle (l : Nat) (s : State) : State :=
  modL l (fun x => { x with idle := if x.st = .active && txIdle l s then x.idle + 10 else 0 }) s

/-- FALLOW_ENTER (R313): the direction has been idle for IDLE_NS. -/
def execFallowEnter (l : LinkId) (s : State) : Ans :=
  inLSt (.fallowEnter l) l.val .active (fun s =>
    let x := getL l.val s
    if getLF l.val Reg.LNK_CFG_FALLOW_EN s = 1 && getLF l.val Reg.LNK_STATE_LX7 s = 0 &&
        getLF l.val Reg.LNK_STATE_FALLOW_TX s = 0 && !x.awake && x.wakeIn = 0 && idleLong l.val s then
      backToSleep l.val (sendGroup l.val { nullGroup x with fallow := true } s)
    else s) s

/-- SLEEP_RECEIVED (R313). -/
def execSleepReceived (l : LinkId) (s : State) : Ans :=
  inLSt (.sleepReceived l) l.val .active (fun s =>
    if getLF l.val Reg.LNK_STATE_LX7 s = 1 then s else setLF l.val Reg.LNK_STATE_FALLOW_RX 1 (timerSet .wakeRows l.val s)) s

/-- R314, R315: wake the transmit direction; not while its lasers are off (R544). The first group follows 16 to 94 group slots
(at most 500 ns) later, behind at least 256 rows of WAKE that name its place, a free choice (log entry 65). -/
def wakeTx (l : Nat) (brief : Bool) (s : State) : State :=
  if s.mgmt.dark.testBit l then s
  else
    let n := 16 + freeNat s % 79
    let rows := 256 + freeNat (tick1 s) % (17 * n - 255)
    let first := ((getL l s).pos + n) % 963
    emit (.row l rows (ctlRow (wakeBlock (13 + 17 * first)))) (setLF l Reg.LNK_STATE_FALLOW_TX 0
      (modL l (fun x => { x with brief := brief, wakeIn := n, idle := 0 }) (tick1 (tick1 s))))

/-- R314: the credits owed to one virtual channel reach 4 KiB; VC 5 has two credit codes. -/
def creditDue (owed : SMap Nat) : Bool :=
  (List.range 5).any (fun c => 64 ≤ smLook 0 owed c) || decide (64 ≤ smLook 0 owed 5 + smLook 0 owed 6)

/-- R314: an owed ACK covers 64 groups, or is 2 µs old. -/
def ackOld (x : Link) (s : State) : Bool := 64 ≤ x.ackDue || (x.ackDue ≠ 0 && x.ackAt + 2000 ≤ s.tb)

/-- FALLOW_WAKE (R314): a reason to wake arises. -/
def execFallowWake (l : LinkId) (s : State) : Ans :=
  inLSt (.fallowWake l) l.val .active (fun s =>
    let x := getL l.val s
    if getLF l.val Reg.LNK_STATE_FALLOW_TX s = 0 then s
    else if wakeForData l.val s then wakeTx l.val false s
    else if x.nakDue || ackOld x s || creditDue x.owed then wakeTx l.val true s
    else s) s

/-- FALLOW_SLEEP_LIMIT (R314): 100 ms of sleep have passed. -/
def execFallowSleepLimit (l : LinkId) (s : State) : Ans :=
  inLSt (.fallowSleepLimit l) l.val .active (fun s =>
    if getLF l.val Reg.LNK_STATE_FALLOW_TX s = 0 ∨ s.tb < (getL l.val s).sleepAt + 100000000 then s
    else wakeTx l.val false (modL l.val (fun x => { x with awake := true, awakeAt := s.tb }) s)) s

/-- FALLOW_AWAKE_HOLD_END (R314): 10 µs later. -/
def execFallowAwakeHoldEnd (l : LinkId) (s : State) : Ans :=
  .next (modL l.val (fun x => if x.awakeAt + 10000 ≤ s.tb then { x with awake := false } else x) s)

/-- WAKE_RECEIVED (R315): lock is regained on every lane. -/
def execWakeReceived (l : LinkId) (s : State) : Ans :=
  inLSt (.wakeReceived l) l.val .active (setLF l.val Reg.LNK_STATE_FALLOW_RX 0) s

/-- WAKE_LOCK_TIMEOUT (R315): 1 µs from the first WAKE row, and not every lane has its lock; a direction that has slept less long has had no
WAKE row for 1 µs. -/
def execWakeLockTimeout (l : LinkId) (s : State) : Ans :=
  inLSt (.wakeLockTimeout l) l.val .active (fun s =>
    if getLF l.val Reg.LNK_STATE_FALLOW_RX s = 0 ∨ !timerDue .wakeRows l.val 1000 s then s
    else startRetrain l.val (setLF l.val Reg.LNK_STATE_FALLOW_RX 0 (bumpLF l.val Reg.LNK_WAKE_FAILS 1 s))) s

/-- LNK_WAKE (R314). -/
def execLnkWake (l : LinkId) (s : State) : Ans :=
  inLSt (.lnkWake l) l.val .active (fun s =>
    if getLF l.val Reg.LNK_STATE_FALLOW_TX s = 1 then wakeTx l.val false s else s) s

/-! ### Legacy idle -/

/-- LEGACY_IDLE_REQUEST (R316). -/
def execLegacyIdleRequest (l : LinkId) (s : State) : Ans :=
  inLSt (.legacyIdleRequest l) l.val .active (fun s =>
    if getLF l.val Reg.LNK_STATE_LX7 s = 1 && idleLong l.val s then
      emit (.row l.val 1 (ctlRow (legacyBlock 1))) (timerSet .legacyAsk l.val
        (modL l.val (fun x => { x with legacyReq := true }) s))
    else s) s

/-- LEGACY_IDLE_RECEIVED (R316): a request, or a grant of this end's request. -/
def execLegacyIdleReceived (l : LinkId) (grant : Bool) (s : State) : Ans :=
  inLSt (.legacyIdleReceived l grant) l.val .active (fun s =>
    if getLF l.val Reg.LNK_STATE_LX7 s = 0 then s
    else if grant then
      if (getL l.val s).legacyReq then setLSt l.val .legacyIdle (modL l.val (fun x => { x with legacyReq := false }) s) else s
    else if idleLong l.val s then setLSt l.val .legacyIdle (emit (.row l.val 1 (ctlRow (legacyBlock 2))) s)
    else s) s

/-- LEGACY_IDLE_LAPSE (R316): 10 µs without a grant. -/
def execLegacyIdleLapse (l : LinkId) (s : State) : Ans :=
  .next (if timerDue .legacyAsk l.val 10000 s then modL l.val (fun x => { x with legacyReq := false }) s else s)

/-- TRAINING_BURST (R316): this end leaves LEGACY_IDLE with a burst. -/
def execTrainingBurst (l : LinkId) (s : State) : Ans :=
  inLSt (.trainingBurst l) l.val .legacyIdle (fun s => emit (.burst l.val) (setLSt l.val .active s)) s

/-- TRAINING_BURST_RECEIVED (R316): the partner leaves LEGACY_IDLE. -/
def execTrainingBurstReceived (l : LinkId) (s : State) : Ans :=
  inLSt (.trainingBurstReceived l) l.val .legacyIdle (setLSt l.val .active) s

end Sys2Proof.Machine
end

