-- ==== Sys2Proof/Machine/Power.lean ====
section
/-! DEFINITION. Machine/Power.lean: caps and the limit (R422 to R426), the estimator and the limiter (R420, R421, R428,
R430), partition allocation (R431 to R433), the brake and the Tamp's duty (R434, R435), temperatures (R444 to R448),
droop (R438, R439), and throttle reasons (R442, R443). -/

namespace Sys2Proof.Machine

/-- Change the power controller's own state. -/
def modP (f : Pwr → Pwr) (s : State) : State := { s with pwr := f s.pwr }
/-- The clock of a compute die. -/
def clkOf (d : Nat) (s : State) : Clk := if d = 0 then s.clk0 else s.clk1
/-- Change it. -/
def modClk (d : Nat) (f : Clk → Clk) (s : State) : State :=
  if d = 0 then { s with clk0 := f s.clk0 } else { s with clk1 := f s.clk1 }

/-- Are the compute rails on (PWR_RAILS.ON)? -/
def railsOn (s : State) : Bool := getB Reg.PWR_RAILS_ON s

/-! ### Temperatures -/

/-- Sensor `n`'s register. -/
def thmF (n : Nat) (f : Fld) : Fld := fldNth f n

/-- R444: the sensors that exist; absent stacks have none. -/
def sensorPresent (n : Nat) (s : State) : Bool :=
  s.powered && n < 60 && (n < 40 || 48 ≤ n || (s.fuse.units / 2 ^ 24).testBit (n - 40))

/-- R445, R446: the effective temperature of a sensor, in 1/8 °C. The coolant sensors have no prediction and keep their
reading. -/
def effTemp (n : Nat) (s : State) : Nat :=
  let r := getF (thmF n Reg.THM_SENSOR_READING) s
  let m := getF (thmF n Reg.THM_SENSOR_MODEL) s
  if 58 ≤ n then r
  else if getB (thmF n Reg.THM_SENSOR_FAILED) s then m + 80
  else if getB Reg.THM_STAT_MODEL_DIVERGED s then max r m
  else r

/-- The hottest effective temperature of the present sensors from `lo`, `n` of them. -/
def hottest (lo n : Nat) (s : State) : Nat :=
  (List.range n).foldl (fun a i => if sensorPresent (lo + i) s then max a (effTemp (lo + i) s) else a) 0

/-- How many sensors have failed. -/
def sensorsFailed (s : State) : Nat :=
  ((List.range 60).filter fun n => getB (thmF n Reg.THM_SENSOR_FAILED) s).length

/-- R448: the sensors of die `d`: its junctions, the hub's, and its stacks. -/
def dieSensors (d : Nat) (s : State) : List Nat :=
  (List.range 60).filter fun n => sensorPresent n s &&
    ((16 * d ≤ n && n < 16 * d + 16) || (32 ≤ n && n < 40) || (40 + 4 * d ≤ n && n < 44 + 4 * d))

/-- R448: the threshold of a sensor, in 1/8 °C. -/
def threshold (n : Nat) (s : State) : Nat :=
  8 * (if n < 40 then getF Reg.THM_CFG_TJ_THROTTLE s else getF Reg.THM_CFG_HBM_THROTTLE s)

/-! ### The limit -/

/-- The fused TDP in W. -/
def tdp (s : State) : Nat := s.fuse.tdp

/-- R447, R450: the larger of 900 W and a percentage of the fused TDP. -/
def tdpShare (pct : Nat) (s : State) : Nat := max 900 (tdp s * pct / 100)

/-- R450: the coolant limit, 0 for none. -/
def coolantLimit (s : State) : Nat :=
  let cond (b : Bool) (w : Nat) : List Nat := if b then [w] else []
  let l := cond s.pwr.lost 900 ++ cond (getB Reg.CLN_STAT_INLET_HIGH s) (tdpShare 75 s) ++
    cond (getB Reg.CLN_STAT_INLET_SEVERE s) 900 ++ cond (getB Reg.CLN_STAT_EXCESS_RISE s) (tdpShare 50 s) ++
    cond s.pwr.leak 900 ++ cond s.pwr.cSensor (tdpShare 50 s)
  match l with
  | [] => 0
  | w :: ws => ws.foldl min w

/-- A cap with its WATTS and VALID fields. -/
def capOf (w v : Fld) (s : State) : Option Nat := if getB v s then some (getF w s) else none
/-- The cap of the rack manager, of the host, and of Felmos. -/
def rackCap (s : State) : Option Nat := capOf Reg.PWR_CAP_RACK_WATTS Reg.PWR_CAP_RACK_VALID s
/-- The host cap. -/
def hostCap (s : State) : Option Nat := capOf Reg.PWR_CAP_HOST_WATTS Reg.PWR_CAP_HOST_VALID s
/-- The firmware cap. -/
def fwCap (s : State) : Option Nat := capOf Reg.PWR_CAP_FW_WATTS Reg.PWR_CAP_FW_VALID s

/-- The caps that are valid. -/
def validCaps (s : State) : List Nat := [rackCap s, hostCap s, fwCap s].filterMap fun x => x

/-- R422, R423: the effective cap: the lowest valid cap, or the fused TDP, above which no cap acts. -/
def effCap (s : State) : Nat := (validCaps s).foldl min (tdp s)

/-- R422: the limit L. -/
def limitL (s : State) : Nat :=
  let other := [getF Reg.PWR_LIMIT_COOLANT_W s, getF Reg.PWR_LIMIT_THERMAL_W s, getF Reg.PWR_LIMIT_VOLTAGE_W s]
  max 900 ((other.filter (· ≠ 0)).foldl min (effCap s))

/-- A command of a ring that is a POWER_CAP still waiting (R426). -/
def capWaiters (s : State) : List (Nat × Nat) :=
  (s.rings.map fun e => (e.2.cmds.filter fun c =>
    (c.desc.headD 0).toNat = 0x20 && c.st = .running && c.work = .elsewhere).map fun c => (e.1, c.idx)).flatten

/-- R426: AUX of a POWER_CAP that completes with CAP_UNMET. -/
def capAux (s : State) : Nat := getF Reg.PWR_CAP_EFF_WATTS s + getF Reg.PWR_CAP_UNMET_SHORTFALL_W s * 65536

/-- R426: complete every POWER_CAP that waits. -/
def capFinish (status aux : Nat) (s : State) : State :=
  (capWaiters s).foldl (fun s w => finishCmd w.1 w.2 status aux 0 false false s) s

/-- R422, R425, R426, R458: bring the effective cap, CAP_UNMET and L up to date after any term has changed. -/
def setLimits (s : State) : State :=
  let s := setF Reg.PWR_LIMIT_COOLANT_W (coolantLimit s) s
  let s := setF Reg.PWR_LIMIT_THERMAL_W (if getB Reg.THM_STAT_HALF_LIMIT s then tdpShare 50 s else 0) s
  let s := setF Reg.PWR_LIMIT_VOLTAGE_W (if s.pwr.lowV then 900 else 0) s
  let eff := effCap s
  let src := bit (rackCap s = some eff) + bit (hostCap s = some eff) * 2 + bit (fwCap s = some eff) * 4
  let s := setF Reg.PWR_CAP_EFF_WATTS eff (setF Reg.PWR_CAP_EFF_SOURCES src
    (setB Reg.PWR_CAP_EFF_TDP ((validCaps s).all (tdp s < ·)) s))
  let l := limitL s
  let s := if l = getF Reg.PWR_LIMIT_L_W s then s else setF Reg.PWR_LIMIT_L_W l (modP (fun x => { x with lAt := s.tb }) s)
  let was := getB Reg.PWR_CAP_UNMET_UNMET s
  let s := setF Reg.PWR_CAP_UNMET_SHORTFALL_W (900 - eff) (setB Reg.PWR_CAP_UNMET_UNMET (eff < 900) s)
  if eff < 900 && !was then capFinish 0x0401 (capAux s) (logEv .capUnmet none none 0 [] s) else s

/-! ### Coalescing -/

/-- The cap of a source. -/
def capVal (o : CapOwner) (s : State) : Option Nat := match o with | .rack => rackCap s | .host => hostCap s

/-- R423: put a value in force. -/
def capSet (o : CapOwner) (v : Option Nat) (s : State) : State :=
  let w := match v with | some x => x | none => 0
  setLimits (match o with
    | .rack => setF Reg.PWR_CAP_RACK_WATTS w (setB Reg.PWR_CAP_RACK_VALID v.isSome s)
    | .host => setF Reg.PWR_CAP_HOST_WATTS w (setB Reg.PWR_CAP_HOST_VALID v.isSome s))

/-- R424: a source's window and held values. -/
def capHeld (o : CapOwner) (s : State) : Bool × List (Option Nat) :=
  match o with
  | .rack => (s.pwr.rackWin, s.pwr.rackHeld)
  | .host => (s.pwr.hostWin, s.pwr.hostHeld)

/-- Set them. -/
def capHold (o : CapOwner) (win : Bool) (held : List (Option Nat)) (s : State) : State :=
  match o with
  | .rack => modP (fun x => { x with rackWin := win, rackHeld := held }) s
  | .host => modP (fun x => { x with hostWin := win, hostHeld := held }) s

/-- R424: a change has been applied to a source's cap: its window of 250 µs opens. -/
def capOpen (o : CapOwner) (held : List (Option Nat)) (s : State) : State :=
  capHold o true held (timerSet .capWindow (match o with | .rack => 0 | .host => 1) s)

/-- R423: WATTS and VALID as a cap; 0 W removes. -/
def capOfWrite (w : Nat) (valid : Bool) : Option Nat := if valid && w ≠ 0 then some w else none

/-- R424: a write of a source's cap: applied at once when no window is open, and held otherwise. -/
def capWrite (o : CapOwner) (v : Option Nat) (s : State) : State :=
  let h := capHeld o s
  if h.1 then capHold o true (h.2 ++ [v]) s
  else if capVal o s = v then s
  else capOpen o [] (capSet o v s)

/-- R424: the lower of two values; no cap is above every cap. -/
def capLower (a b : Option Nat) : Option Nat :=
  match a, b with
  | some x, some y => some (min x y)
  | some x, none => some x
  | none, y => y

/-- R424: a source's window ends. -/
def capWindowEnd (o : CapOwner) (s : State) : State :=
  let h := capHeld o s
  match h.2 with
  | [] => capHold o false [] s
  | v :: vs =>
    let low := vs.foldl capLower v
    let last := (v :: vs).getLast?.getD v
    let changed := capVal o s ≠ low
    let s := if changed then capSet o low s else s
    if changed || last ≠ low then capOpen o (if last ≠ low then [last] else []) s else capHold o false [] s

/-- PWR_CAP_HOST_WRITE (R423): WATTS in [15:0] and VALID in [16]. -/
def execPwrCapHostWrite (v : B64) (s : State) : Ans :=
  .next (heldOr (.pwrCapHostWrite v)
    (capWrite .host (capOfWrite (v.extractLsb' 0 16).toNat (v.getLsbD 16))) s)

/-- R424: has a source's window, of 250 µs, come to its end? -/
def capWindowOver (o : CapOwner) (s : State) : Bool :=
  (capHeld o s).1 && timerDue .capWindow (match o with | .rack => 0 | .host => 1) 250000 s

/-- CAP_WINDOW_EXPIRE (R424). -/
def execCapWindowExpire (o : CapOwner) (s : State) : Ans :=
  .next (heldOr (.capWindowExpire o) (fun s => if capWindowOver o s then capWindowEnd o s else s) s)

/-- CMD_POWER_CAP (R426). -/
def execCmdPowerCap (ring : RingId) (s : State) : Ans :=
  let r := ring.val
  .next (startCmd 0x20 r (fun d _ => badLayout (2 ≤ dField d 10 1 || !dZero d 11 53))
    (fun i d s =>
      let s := capWrite .host (capOfWrite (dField d 8 2) true) (modCmd r i (fun c => { c with started := true }) s)
      if dField d 10 1 = 0 then cmdOk r i 0 s
      else if getB Reg.PWR_CAP_UNMET_UNMET s then finishCmd r i 0x0401 (capAux s) 0 false false s
      else setWork r i .elsewhere s) s)

/-- FW_CAP_UPDATE (R449): Felmos sets the firmware cap, 0 for none. The value that its thermal model asks for is the
operand; without an active core nothing changes (R437). -/
def execFwCapUpdate (w : B16) (s : State) : Ans :=
  .next (heldOr (.fwCapUpdate w) (fun s =>
    if s.mgmt.up then
      setLimits (setF Reg.PWR_CAP_FW_WATTS w.toNat (setB Reg.PWR_CAP_FW_VALID (w ≠ 0) s))
    else s) s)

/-! ### The estimator -/

/-- POWER_ESTIMATE_TICK (R420), every 4 µs: `dyn` is the weighted activity in W before the gain and `stat` the static power. -/
def execPowerEstimateTick (dyn stat : Nat) (s : State) : Ans :=
  let e := dyn * s.pwr.gain / 1000000 + stat
  .next (if s.powered then every .estimate 0 4000 (modP (fun x => { x with
    estSum := x.estSum + e, estN := x.estN + 1, estHist := (e :: x.estHist).take 25 })) s else s)

/-- R421: the next gain: toward measured over estimated, at most 1 % away and within 0.80 to 1.25. -/
def nextGain (g est meas : Nat) : Nat :=
  let ideal := if est = 0 then g else g * meas / est
  max 800000 (min 1250000 (max (g - g / 100) (min (g + g / 100) ideal)))

/-- R429: does the millisecond that ends now comply with L: it began at least 1 ms after L last changed, and its mean is
at most L + 2 %? -/
def complies (s : State) : Bool :=
  getF Reg.PWR_EST_INPUT_W s * 100 ≤ getF Reg.PWR_LIMIT_L_W s * 102 && s.pwr.lAt + 2000000 ≤ s.tb

/-- R453: does the outlet read more than 2 °C below the inlet, at more than 900 W? -/
def crossOff (s : State) : Bool :=
  900 < getF Reg.PWR_EST_INPUT_W s &&
  getF (thmF 59 Reg.THM_SENSOR_READING) s + 16 < getF (thmF 58 Reg.THM_SENSOR_READING) s

/-- R453: a reading changes: the 10 s are measured from the last instant at which the outlet was not below. -/
def crossNote (f : State → State) (s : State) : State :=
  let note (s : State) : State := if crossOff s then s else timerSet .crossCheck 0 s
  note (f (note s))

/-- R421, R426, R458: the end of a millisecond: its means as measured at the input. -/
def gainCorrect (w v a : Nat) (s : State) : State :=
  let est := if s.pwr.estN = 0 then 0 else s.pwr.estSum / s.pwr.estN
  let g := nextGain s.pwr.gain est w
  let log := g ≠ s.pwr.gain && (g = 800000 || g = 1250000)
  let s := modP (fun x => { x with gain := g, estSum := 0, estN := 0 }) s
  let s := setF Reg.PWR_EST_EST_W (min est 65535) (crossNote (setF Reg.PWR_EST_INPUT_W w)
    (setF Reg.PWR_EST_INPUT_V v (setF Reg.PWR_EST_INPUT_A a s)))
  let s := if log then logEv .powerEstimateClamped none none 0 [] s else s
  if complies s && s.pwr.hostHeld.isEmpty then capFinish 0 0 s else s

/-- ESTIMATE_GAIN_CORRECT (R421), every 1 ms: power in W, voltage in 10 mV and current in 10 mA. -/
def execEstimateGainCorrect (w v a : B16) (s : State) : Ans :=
  .next (if s.powered then every .gain 0 1000000 (gainCorrect w.toNat v.toNat a.toNat) s else s)

/-! ### The limiter -/

/-- R428: the target f_T in MHz. -/
def targetF (s : State) : Nat := if getB Reg.PWR_CFG_BOOST_EN s then 1250 else 1050
/-- FMAX of a die. -/
def fmax (d : Nat) (s : State) : Nat := getF (if d = 0 then Reg.PWR_AGEING_FMAX_D0 else Reg.PWR_AGEING_FMAX_D1) s
/-- R428: a die's ceiling. -/
def ceiling (d : Nat) (s : State) : Nat := min (fmax d s) (targetF s)
/-- Where the die's frequency is to go: the lowest demand wins (R559). -/
def clkTarget (d : Nat) (s : State) : Nat :=
  max 600 (min (clkOf d s).want (min (ceiling d s) (clkOf d s).loop))

/-- R439: was there a stretch on the die in the last microsecond? -/
def droopNow (d : Nat) (s : State) : Bool :=
  match (clkOf d s).stretchAt with | some t => s.tb < t + 1000 | none => false

/-- R439: a move toward the die's target starts, is retargeted, or is over. -/
def retarget (d : Nat) (s : State) : State :=
  let c := clkOf d s
  if c.f = 0 ∨ clkTarget d s = c.f then modClk d (fun c => { c with moving := false, waiting := false }) s
  else if c.moving then s
  else modClk d (fun c => { c with moving := true, waiting := droopNow d s }) (timerSet .droop d s)

/-- R25: is there power headroom: the latest estimate lies below the limit? -/
def headroom (s : State) : Bool := s.pwr.estHist.headD 0 < getF Reg.PWR_LIMIT_L_W s

/-- R25, R428: an evaluation of the limiter. Above 1.05 GHz the clock goes only within power headroom. One that switches banks
(R538) holds what it asks for. -/
def limiterEval (freq duty : Nat) (s : State) : State :=
  if s.pwr.skip then modP (fun x => { x with skip := false }) s
  else
    let want := max 600 (min (if headroom s then targetF s else 1050) freq) / 25 * 25
    let put (c : Clk) : Clk := { c with want := want, duty := max 4 (min 16 duty) }
    retarget 1 (retarget 0 (modClk 1 put (modClk 0 put s)))

/-- LIMITER_EVAL (R428), every 4 µs: the control law within its bounds is the controller's own: `freq` in MHz and `duty` in
sixteenths are what it asks of both dies. -/
def execLimiterEval (freq duty : Nat) (s : State) : Ans :=
  .next (if railsOn s then every .limiter 0 4000 (limiterEval freq duty) s else s)

/-- R430: may the die step: it moves, waits for no droop, has not stepped in the last microsecond, and has the voltage for an
increase? -/
def mayStep (d : Nat) (s : State) : Bool :=
  let c := clkOf d s
  railsOn s && c.moving && !c.waiting && timerDue .freq d 1000 s && (clkTarget d s ≤ c.f || c.f + 25 ≤ c.vmax)

/-- R430: one step of 25 MHz. After a decrease the voltage follows. -/
def freqStep (d : Nat) (s : State) : State :=
  let t := clkTarget d s
  timerSet .freq d (modClk d (fun c =>
    if c.f < t then { c with f := c.f + 25, moving := decide (c.f + 25 < t) }
    else { c with f := max t (c.f - 25), vmax := max t (c.f - 25), moving := decide (t < c.f - 25) }) s)

/-- FREQ_STEP (R430). -/
def execFreqStep (die : DieId) (s : State) : Ans := .next (if mayStep die.val s then freqStep die.val s else s)

/-- VOLTAGE_SETTLED (R430): the regulator has reached the voltage of the die's target. -/
def execVoltageSettled (die : DieId) (s : State) : Ans :=
  let d := die.val
  .next (if railsOn s && (clkOf d s).moving then
    modClk d (fun c => { c with vmax := max c.vmax (clkTarget d s) }) s else s)

/-- DROOP_STRETCH (R438). -/
def execDroopStretch (die : DieId) (s : State) : Ans :=
  .next (if railsOn s then modClk die.val (fun c => { c with stretchAt := some s.tb }) s else s)

/-- R439: is the wait of a move over: 1 µs without a stretch, or 50 µs in all? -/
def droopOver (d : Nat) (s : State) : Bool := !droopNow d s || timerDue .droop d 50000 s

/-- DROOP_WAIT_EXPIRE (R439). -/
def execDroopWaitExpire (die : DieId) (s : State) : Ans :=
  .next (if droopOver die.val s then modClk die.val (fun c => { c with waiting := false }) s else s)

/-! ### Partition allocation -/

/-- A partition's guarantee, weight and demand in an allocation. -/
structure Claim where
  p : Nat
  need : Nat
  weight : Nat
  demand : Nat
  deriving DecidableEq, Repr

/-- R431: the claims of the enabled partitions. -/
def claims (demands : List Nat) (s : State) : List Claim :=
  ((List.range 8).filter fun p => partOn p s).map fun p =>
    let d := demands.getD p 0
    ⟨p, min d (getF (fldNth Reg.PWR_PART_GUAR_W p) s), getF (fldNth Reg.PWR_PART_WEIGHT p) s, d⟩

/-- Division to the nearest whole number. -/
def nearest (a b : Nat) : Nat := if b = 0 then 0 else (2 * a + b) / (2 * b)

/-- R431: divide `rest` by weight among the claims that want more; a claim whose share passes its demand gets its demand,
and the division is made again without it. `n` bounds the rounds. The answer is each partition's allocation. -/
def fillShares : Nat → Nat → List Claim → List (Nat × Nat)
  | 0, _, l => l.map fun c => (c.p, c.need)
  | n + 1, rest, l =>
    let w := l.foldl (fun a c => a + c.weight) 0
    let full (c : Claim) : Bool := c.demand * w ≤ c.need * w + rest * c.weight
    if l.any full then
      let done := l.filter full
      (done.map fun c => (c.p, c.demand)) ++
        fillShares n (done.foldl (fun a c => a - (c.demand - c.need)) rest) (l.filter fun c => !full c)
    else l.map fun c => (c.p, nearest (c.need * w + rest * c.weight) w)

/-- R431, R432: the allocation of each enabled partition from the budget `b`. -/
def allocate (b : Nat) (l : List Claim) : List (Nat × Nat) :=
  let sum := l.foldl (fun a c => a + c.need) 0
  if b < sum then l.map fun c => (c.p, nearest (c.need * b) sum) else fillShares 8 (b - sum) l

/-- R432: a partition's guarantee is scaled, or is so no longer. The event and the notification come at most once in
10 ms. -/
def setScaled (c : Claim) (alloc : Nat) (s : State) : State :=
  let f := fldNth Reg.PWR_PART_SCALED c.p
  let was := getB f s
  let now := decide (alloc < c.need)
  let s := setB f now (setB (partF c.p Reg.PART_STAT_GUARANTEE_SCALED) now s)
  if now && !was then
    let key := 2 ^ 62 + c.p
    let due : Bool := match lookO s.logLast key with | some t => decide (t + 10000000 ≤ s.tb) | none => true
    let s := logLimited key 10000000 .guaranteeScaled (some c.p) none 0 [] s
    if due then
      notify .guaranteeScaled c.p none 0 0x0402 (alloc + getF (fldNth Reg.PWR_PART_GUAR_W c.p) s * 65536) s
    else s
  else s

/-- One partition's part of an allocation (R431 to R433). -/
def setAlloc (use : List Nat) (allocs : List (Nat × Nat)) (s : State) (c : Claim) : State :=
  let a := match allocs.find? fun e => e.1 = c.p with | some e => e.2 | none => 0
  let s := setF (fldNth Reg.PWR_PART_ALLOC_W c.p) a (setF (fldNth Reg.PWR_PART_USE_W c.p) (use.getD c.p 0) s)
  let duty := if c.demand ≤ a then 16 else 16 * a / c.demand
  setScaled c a (modP (fun x => { x with partDuty := smPut 16 x.partDuty c.p duty }) s)

/-- R431 to R433: the allocation of a millisecond. -/
def allocateAll (demands : List Nat) (other : Nat) (use : List Nat) (s : State) : State :=
  let l := claims demands s
  l.foldl (setAlloc use (allocate (getF Reg.PWR_LIMIT_L_W s - other) l)) s

/-- PARTITION_ALLOCATE (R431), every 1 ms: the demands D_p, the module's non-tile power and the partitions' tile power of the
last millisecond, in W. -/
def execPartitionAllocate (demands : List Nat) (other : Nat) (use : List Nat) (s : State) : Ans :=
  .next (heldOr (.partitionAllocate demands other use) (fun s =>
    if s.powered then every .allocate 0 1000000 (allocateAll demands other use) s else s) s)

/-! ### The brake and the Tamp -/

/-- R434, R435: does the Tamp take away clock pulses? -/
def tampOn (s : State) : Bool := s.pwr.clampTdp || s.pwr.clampI || s.pins.brake

/-- R434, R435: the clock duty in hundredths: 50 while any action demands it, 75 while a brake's release eases. While
RESET_N holds the module, the arithmetic clocks are stopped (R563). -/
def clockDuty (s : State) : Nat :=
  if s.pins.resetN then 0 else if tampOn s then 50 else if s.pwr.ease ≠ 0 then 75 else 100

/-- BRAKE_ASSERT (R434). -/
def execBrakeAssert (s : State) : Ans :=
  .next (setB Reg.PWR_RAILS_BRAKE s.powered (modP (fun x => { x with ease := 0 })
    { s with pins := { s.pins with brake := true } }))

/-- BRAKE_RELEASE (R434): the duty returns to 100 % through 75 % over 20 µs. -/
def execBrakeRelease (s : State) : Ans :=
  .next (if s.pins.brake then
    setB Reg.PWR_RAILS_BRAKE false (modP (fun x => { x with ease := 20000 })
      { s with pins := { s.pins with brake := false } })
  else s)

/-- R435: the 100 µs average of P_est, times 25. -/
def estAverage (s : State) : Nat := s.pwr.estHist.foldl (· + ·) 0

/-- TAMP_TDP_CLAMP (R435): imposed above 105 % of the fused TDP, released at or below it. -/
def execTampTdpClamp (s : State) : Ans :=
  .next (if s.pwr.estHist.length < 25 then s
  else if tdp s * 25 * 105 < estAverage s * 100 then modP (fun x => { x with clampTdp := true }) s
  else if estAverage s ≤ tdp s * 25 then modP (fun x => { x with clampTdp := false }) s
  else s)

/-- INPUT_CURRENT_LIMIT (R435): the input current has exceeded its fused limit for 20 µs. -/
def execInputCurrentLimit (s : State) : Ans :=
  .next (if s.powered then modP (fun x => { x with clampI := true }) s else s)

/-- INPUT_CURRENT_RELEASE (R435). -/
def execInputCurrentRelease (s : State) : Ans := .next (modP (fun x => { x with clampI := false }) s)

/-! ### The thermal model and loop -/

/-- R444, R445: the peers of a sensor: the other present sensors of its row. -/
def peers (n : Nat) (s : State) : List Nat :=
  let row := if n < 16 then (0, 16) else if n < 32 then (16, 16) else if n < 40 then (32, 8) else if n < 48 then (40, 8)
    else if n < 54 then (48, 6) else (54, 4)
  ((List.range row.2).map (row.1 + ·)).filter fun k => k ≠ n && sensorPresent k s

/-- R445: does the sensor differ from its prediction by more than 8 °C? -/
def sensorOff (n : Nat) (s : State) : Bool :=
  let r := getF (thmF n Reg.THM_SENSOR_READING) s
  let m := getF (thmF n Reg.THM_SENSOR_MODEL) s
  64 < r - m || 64 < m - r

/-- R445, R453: a sensor is declared failed. The second failure brings the sensor-failure limit (R447). -/
def sensorFail (n : Nat) (s : State) : State :=
  if getB (thmF n Reg.THM_SENSOR_FAILED) s then s
  else
    let s := logEv .thermalSensorFailed none none n [] (setB (thmF n Reg.THM_SENSOR_FAILED) true s)
    if 2 ≤ sensorsFailed s then setLimits (setB Reg.THM_STAT_HALF_LIMIT true s) else s

/-- R445: one sensor's milliseconds of disagreement and agreement. -/
def sensorCount (s : State) (n : Nat) : State :=
  if sensorOff n s then
    modP (fun x => { x with offMs := smMod 0 x.offMs n (· + 1), okMs := smPut 0 x.okMs n 0 }) s
  else modP (fun x => { x with offMs := smPut 0 x.offMs n 0, okMs := smMod 0 x.okMs n (· + 1) }) s

/-- R445: has the sensor failed: off for 100 ms, and half of its peers in agreement over the same time? -/
def sensorBad (n : Nat) (s : State) : Bool :=
  100 ≤ smLook 0 s.pwr.offMs n &&
  (peers n s).length ≤ 2 * ((peers n s).filter fun k => 100 ≤ smLook 0 s.pwr.okMs k).length

/-- R446: does the sensor make the model suspect: off, and fewer than half of its peers agree? -/
def suspects (n : Nat) (s : State) : Bool :=
  sensorOff n s && 2 * ((peers n s).filter fun k => !sensorOff k s).length < (peers n s).length

/-- R446: THM_STAT.MODEL_DIVERGED after this millisecond. -/
def divergence (ns : List Nat) (s : State) : State :=
  if ns.any fun n => !getB (thmF n Reg.THM_SENSOR_FAILED) s && suspects n s then
    let was := getB Reg.THM_STAT_MODEL_DIVERGED s
    let s := setB Reg.THM_STAT_MODEL_DIVERGED true (modP (fun x => { x with divMs := 0 }) s)
    if was then s else logEv .thermalModelDiverged none none 0 [] s
  else
    let s := modP (fun x => { x with divMs := min 1000 (x.divMs + 1) }) s
    if s.pwr.divMs = 1000 then setB Reg.THM_STAT_MODEL_DIVERGED false s else s

/-- R448: is any sensor of the die at or above its threshold? -/
def dieHot (d : Nat) (s : State) : Bool := (dieSensors d s).any fun n => threshold n s ≤ effTemp n s
/-- R448: does every sensor of the die lie 2 °C below its threshold? -/
def dieCool (d : Nat) (s : State) : Bool := (dieSensors d s).all fun n => effTemp n s + 16 ≤ threshold n s

/-- R448: once a sensor reaches its threshold, the loop raises the frequency no more until all lie 2 °C below. -/
def loopNote (d : Nat) (s : State) : State := if dieHot d s then modClk d (fun c => { c with rising := false }) s else s

/-- R445, R446: what the model makes of a millisecond's readings and predictions. -/
def modelTick (readings models : List (BitVec 12)) (s : State) : State :=
  let put (f : Fld) (lim : Nat) (l : List (BitVec 12)) (s : State) : State :=
    (List.range (min lim l.length)).foldl (fun s n =>
      if sensorPresent n s then setF (thmF n f) (l.getD n 0).toNat s else s) s
  let s := crossNote (fun s => put Reg.THM_SENSOR_MODEL 58 models (put Reg.THM_SENSOR_READING 60 readings s)) s
  let ns := (List.range 58).filter fun n => sensorPresent n s
  let s := ns.foldl sensorCount s
  let s := (ns.filter fun n => sensorBad n s).foldl (fun s n => sensorFail n s) s
  loopNote 1 (loopNote 0 (divergence ns s))

/-- THERMAL_MODEL_TICK (R445, R446), every 1 ms: the readings of sensors 0 to 59 and the predictions for sensors 0 to 57, in
1/8 °C, as far as the lists go. -/
def execThermalModelTick (readings models : List (BitVec 12)) (s : State) : Ans :=
  .next (if s.powered then every .thermal 0 1000000 (modelTick readings models) s else s)

/-- R448: 25 MHz down. -/
def loopDown (d : Nat) (s : State) : State :=
  retarget d (modClk d (fun c => { c with loop := max 600 (min c.loop c.f - 25), rising := false }) s)

/-- THERMAL_LOOP_STEP_DOWN (R448), every 100 µs. -/
def execThermalLoopStepDown (die : DieId) (s : State) : Ans :=
  .next (if railsOn s && dieHot die.val s then every .loopDown die.val 100000 (loopDown die.val) s else s)

/-- R448: may the loop raise the die: all its sensors lie 2 °C below their thresholds, or have done so and none has reached its
threshold since? -/
def loopMayRise (d : Nat) (s : State) : Bool := dieCool d s || ((clkOf d s).rising && !dieHot d s)

/-- R448: 25 MHz up. -/
def loopUp (d : Nat) (s : State) : State :=
  retarget d (modClk d (fun c => { c with loop := if ceiling d s ≤ c.loop + 25 then 1250 else c.loop + 25, rising := true }) s)

/-- THERMAL_LOOP_STEP_UP (R448), every 1 ms. -/
def execThermalLoopStepUp (die : DieId) (s : State) : Ans :=
  .next (if railsOn s && loopMayRise die.val s then every .loopUp die.val 1000000 (loopUp die.val) s else s)

/-! ### Throttle reasons -/

/-- R442: does a limit bind: does the limiter hold a die below its ceiling, or apply issue duty? -/
def limitBinds (s : State) : Bool :=
  railsOn s && ((List.range 2).any (fun d => (clkOf d s).want < ceiling d s || (clkOf d s).duty < 16) ||
    !s.pwr.partDuty.isEmpty)

/-- R442: does a cap equal L, a term below 900 W counting as 900 W? -/
def capEqualsL (c : Option Nat) (s : State) : Bool :=
  match c with | some w => max 900 (min w (tdp s)) = getF Reg.PWR_LIMIT_L_W s | none => false

/-- R442: does a limit, 0 for none, equal L? -/
def termEqualsL (w : Nat) (s : State) : Bool := w ≠ 0 && w = getF Reg.PWR_LIMIT_L_W s

/-- R441, R442: does FMAX hold the die below what the limiter asks? -/
def ageingHolds (d : Nat) (s : State) : Bool := fmax d s < targetF s && fmax d s < (clkOf d s).want

/-- R448, R459: does the thermal loop hold the die? -/
def loopHolds (d : Nat) (s : State) : Bool := (clkOf d s).loop < ceiling d s

/-- R442: bit `i` of the reasons. -/
def reasonActive (i : Nat) (s : State) : Bool :=
  let b := limitBinds s
  match i with
  | 0 => b && capEqualsL (rackCap s) s
  | 1 => b && capEqualsL (hostCap s) s
  | 2 => b && capEqualsL (fwCap s) s
  | 3 => (railsOn s && (loopHolds 0 s || loopHolds 1 s)) || (b && termEqualsL (getF Reg.PWR_LIMIT_THERMAL_W s) s) ||
      getB Reg.THM_STAT_TRIPPED s
  | 4 => (b && termEqualsL (getF Reg.PWR_LIMIT_COOLANT_W s) s) || (!railsOn s &&
      (getF Reg.PWR_RAILS_LAST_OFF_CAUSE s = 3 || getF Reg.PWR_RAILS_LAST_OFF_CAUSE s = 4))
  | 5 => railsOn s && (droopNow 0 s || droopNow 1 s)
  | 6 => b && termEqualsL (getF Reg.PWR_LIMIT_VOLTAGE_W s) s
  | 7 => !s.pins.resetN && (s.pins.brake || s.pwr.ease ≠ 0)
  | 8 => railsOn s && (ageingHolds 0 s || ageingHolds 1 s)
  | 9 => (b && termEqualsL (tdp s) s) || s.pwr.clampTdp || s.pwr.clampI
  | 10 => s.tiles.any fun (e : Nat × Tile) => e.2.ramp ≠ 0 || waveHeld e.2
  | _ => false

/-- R442: PWR_THROTTLE.REASONS; a freeze holds it (R280). -/
def reasons (s : State) : Nat :=
  if s.frozen then getF Reg.PWR_THROTTLE_REASONS s
  else (List.range 11).foldl (fun n i => n + bit (reasonActive i s) * 2 ^ i) 0

/-- R443: a sample of every reason, every 10 ns. -/
def sampleReasons (s : State) : State :=
  let r := reasons s
  if r = 0 then s
  else modP (fun x => { x with
    samples := (List.range 11).foldl (fun m i => if r.testBit i then smMod 0 m i (· + 1) else m) x.samples }) s

/-- R443: reason `i` counts one for each 100 samples in which it was active. -/
def countReason (s : State) (i : Nat) : State :=
  let n := smLook 0 s.pwr.samples i
  bump (fldNth Reg.PWR_THR_US i) (n / 100) (modP (fun x => { x with samples := smPut 0 x.samples i (n % 100) }) s)

/-- THROTTLE_SAMPLE_TICK (R443): what has been sampled is counted. -/
def execThrottleSampleTick (s : State) : Ans :=
  .next (if s.powered then (List.range 11).foldl countReason s else s)

end Sys2Proof.Machine
end

