-- ==== Sys2Proof/Machine/Rails.lean ====
section
/-! DEFINITION. Machine/Rails.lean: when the compute rails are on (R454), what turning them off does (R455, R478), and
the events of coolant, leaks, the input, the rack manager and ageing that lead there (R436, R440, R450 to R457). -/

namespace Sys2Proof.Machine

/-- R454, R436, R567: do all the conditions hold under which the compute rails may come on? -/
def railsMay (s : State) : Bool :=
  s.powered && s.pins.hotswap && s.pins.coolantOk && !s.pins.resetN && !getB Reg.PWR_RAILS_RACK_OFF s &&
  !getB Reg.PWR_RAILS_HOST_OFF s && !s.pwr.tripHold && !s.pins.under && !s.pins.overV && !s.pwr.leakOff

/-- R494: every junction sensor reads 85 °C or less. -/
def junctionsCool (s : State) : Bool := (List.range 40).all fun n => getF (thmF n Reg.THM_SENSOR_READING) s ≤ 680

/-- R478: what becomes of a context when the rails go off. -/
def ctxRailsOff (x : Ctx) : Ctx :=
  if x.st = .free then x else { x with st := .faulted, faultStatus := 0x0207, lastLevel := 5, resetProd := [] }

/-- R478: what becomes of a ring: it halts, and what its command processor held is lost. -/
def ringRailsOff (x : Ring) : Ring := if x.enable then { x with halted := true, cmds := [], late := [] } else x

/-- R327, R455: the requests that outlive the compute dies: those of other modules. -/
def reqRemote (r : Req) : Bool := match r.unit with | .remote .. => true | _ => false

/-- R469, R478: the contexts that the rails' loss faults enter FAULTED now. -/
def ctxsFaulted (s : State) : State :=
  s.ctxs.foldl (fun s (e : Nat × Ctx) => if e.2.st = .free then s else timerSet .autoReset e.1 s) s

/-- R455: everything on the compute dies stops: tiles, HBM with its contents, command processors, walkers and
remote-read caches; the commands of the contexts end without a completion. -/
def diesOff (s : State) : State :=
  let regs := smClear (smClear (smClear s.regs (0x100000 * 64) (0x100000 * 64)) (0x2F000 * 64) (0x800 * 64))
    (0x70400 * 64) (0x80 * 64)
  let s := { ctxsFaulted s with
    regs := regs, tiles := [], kernels := [], bindings := [], chans := [], fenced := [], rrc0 := [], rrc1 := []
    fills0 := [], fills1 := [], waves := [], colls := [], hbm := [], written := [], blkErr := [], blkFate := []
    reqs := s.reqs.filter fun (e : Nat × Req) => reqRemote e.2
    ctxs := s.ctxs.map fun (e : Nat × Ctx) => (e.1, ctxRailsOff e.2)
    rings := s.rings.map fun (e : Nat × Ring) => (e.1, ringRailsOff e.2)
    jobs := [], mgmt := { s.mgmt with tileNew := 0 } }
  zeroF [Reg.MEM_INIT_WRITTEN_D0, Reg.MEM_INIT_WRITTEN_D1, fldNth Reg.PWR_DRILL_STAT_HELD 0,
    fldNth Reg.PWR_DRILL_STAT_HELD 1] s

/-- R497: what bring-up does when the rails go off: it waits for them, at step 5 again, or to rerun steps 5 to 7. -/
def bootRailsOff (s : State) : State :=
  let st := getF Reg.BOOT_STAT_STATE s
  if st = 2 ∨ st = 3 then setBoot 1 { s with rerun := some (st, getF Reg.BOOT_STAT_CAUSE s) }
  else if st = 0 ∧ 5 ≤ getF Reg.BOOT_STAT_STEP s ∧ getF Reg.BOOT_STAT_STEP s ≤ 9 then
    setBoot 1 (setF Reg.BOOT_STAT_STEP 5 { s with bootAt := s.tb })
  else s

/-- R455, R458, R478: the compute rails go off for a cause. Grace and leak delays that run go on only for a leak. -/
def railsOff (cause : Nat) (s : State) : State :=
  if !railsOn s then s
  else
    let s := setB Reg.PWR_RAILS_ON false (setF Reg.PWR_RAILS_LAST_OFF_CAUSE cause s)
    let s := logEv .computeRailsOff none none 0 (arg16 [cause]) s
    let off (c : Clk) : Clk := { c with f := 0, moving := false, waiting := false }
    let s := modP (fun x => { x with lost := false, graceEnd := none })
      (modClk 1 off (modClk 0 off (diesOff s)))
    bootRailsOff (setLimits s)

/-! ### Orders and trips -/

/-- HOST_OFF_WRITE (R454): partition 0 sets or clears PWR_RAILS.HOST_OFF. -/
def execHostOffWrite (v : Bool) (s : State) : Ans :=
  .next (heldOr (.hostOffWrite v) (fun s =>
    let s := setB Reg.PWR_RAILS_HOST_OFF v s
    if v then railsOff 2 s else s) s)

/-- R436: every rail but the always-on rails goes off: the hub die with Felmos, the router, the links and the Ethernet
ports. -/
def hubOff (s : State) : State :=
  let s := (List.range 6).foldl (fun s l =>
    if (getL l s).st = .disabled then s else setLSt l .disabled (linkDiscard l s)) s
  let s := forN 4 (fun p s => zeroF [ethF p Reg.ETH_STAT_UP_A, ethF p Reg.ETH_STAT_UP_B] s) s
  { modP (fun x => { x with hubDown := true }) s with
    mgmt := {}, qps := [], rtIn := [], outQ := [], hubIn := [], routes := [], mcast := [], reqs := [], outbox := []
    groups := [], groupDefs := [], groupFail := [] }

/-- THERMAL_TRIP (R436): sensor `n` has stayed at or above 105 °C for 20 µs. -/
def execThermalTrip (n : SensorId) (s : State) : Ans :=
  .next (heldOr (.thermalTrip n) (fun s =>
    let again := getB Reg.THM_STAT_TRIPPED s && (n.val < 32 || s.pwr.hubDown)
    if !s.powered ∨ 40 ≤ n.val ∨ effTemp n.val s < 840 ∨ again then s
    else
      let s := setB Reg.THM_STAT_TRIPPED true (modP (fun x => { x with tripHold := true }) s)
      let s := railsOff 5 (logEv .thermalTrip none none n.val [] s)
      if 32 ≤ n.val then hubOff s else s) s)

/-! ### Ageing -/

/-- R440: one die's measurement: a margin that falls short raises the trim by a step, or, at +60 mV, lowers FMAX. -/
def ageDie (d : Nat) (s : State) : State :=
  if !s.hw.marginLow.testBit d then s
  else
    let t := if d = 0 then Reg.PWR_AGEING_TRIM_D0 else Reg.PWR_AGEING_TRIM_D1
    let f := if d = 0 then Reg.PWR_AGEING_FMAX_D0 else Reg.PWR_AGEING_FMAX_D1
    if getF t s < 12 then setF t (getF t s + 1) s
    else logEv .ageingFmaxReduced none none d [] (setF f (getF f s - 25) s)

/-- R440: measure both dies, and write the ageing record. -/
def ageRun (s : State) : State :=
  let s := ageDie 1 (ageDie 0 (bump Reg.PWR_AGEING_CALIBRATIONS 1 s))
  cfgPush ⟨2, [], .ageing⟩ (retarget 1 (retarget 0 (timerSet .ageing 0 s)))

/-- AGEING_CALIBRATION (R440), every 24 h ± 1 h: it waits for the new core during a switchover. -/
def execAgeingCalibration (s : State) : Ans :=
  .next (if !railsOn s ∨ !timerDue .ageing 0 82800000000000 s then s
  else if s.mgmt.up then ageRun s
  else modP (fun x => { x with ageHold := true }) s)

/-! ### Coolant and leaks -/

/-- Change what the pins show. -/
def modPins (f : Pins → Pins) (s : State) : State := { s with pins := f s.pins }

/-- Show COOLANT_OK_N in PWR_RAILS and CLN_STAT. -/
def showCoolant (s : State) : State :=
  let b := s.powered && s.pins.coolantOk
  setB Reg.PWR_RAILS_COOLANT_OK b (setB Reg.CLN_STAT_COOLANT_OK b s)

/-- COOLANT_OK_DEASSERT (R450): the pin has been high for 1 ms. -/
def execCoolantOkDeassert (s : State) : Ans :=
  .next (
    let s := showCoolant (modPins (fun p => { p with coolantOk := false }) s)
    if railsOn s ∧ !s.pwr.lost then
      let s := modP (fun x => { x with
        lost := true, graceEnd := some (s.tb + getF Reg.CLN_CFG_GRACE_S s * 1000000000) }) s
      setLimits (logEv .coolantLost none none 0 [] (bump Reg.CLN_EVENTS_COOLANT_LOSSES 1 s))
    else s)

/-- COOLANT_OK_ASSERT (R450, R454): the coolant limit of a loss ends, and the transition is logged. -/
def execCoolantOkAssert (s : State) : Ans :=
  .next (
    let s := showCoolant (modPins (fun p => { p with coolantOk := true }) s)
    if s.pwr.lost then
      setLimits (logEv .coolantLost none none 0 [] (modP (fun x => { x with lost := false, graceEnd := none }) s))
    else s)

/-- Has a delay that runs come to its end? -/
def delayOver (e : Option Nat) (s : State) : Bool :=
  match e with | some t => t ≤ s.tb | none => false

/-- COOLANT_GRACE_EXPIRE (R454). -/
def execCoolantGraceExpire (s : State) : Ans :=
  .next (heldOr .coolantGraceExpire (fun s =>
    if delayOver s.pwr.graceEnd s ∧ !s.pins.coolantOk then railsOff 3 s else s) s)

/-- R450: set a coolant condition that a register shows; each transition is logged. -/
def coolantCond (f : Fld) (e : Ev) (now : Bool) (s : State) : State :=
  if getB f s = now then s else logEv e none none 0 [] (setB f now s)

/-- R450: an inlet below 15 °C limits nothing, and is logged. -/
def inletLow (now : Bool) (s : State) : State :=
  if now then coolantCond Reg.CLN_STAT_INLET_LOW .coolantInletLow true s else setB Reg.CLN_STAT_INLET_LOW false s

/-- INLET_TEMP_CHANGE (R450): the inlet now reads `t`, in 1/8 °C. -/
def execInletTempChange (t : BitVec 12) (s : State) : Ans :=
  .next (if !s.powered then s
  else
    let n := t.toNat
    let s := crossNote (setF (thmF 58 Reg.THM_SENSOR_READING) n) s
    let now (f : Fld) (hi lo : Nat) : Bool := if getB f s then lo < n else hi < n
    let high := now Reg.CLN_STAT_INLET_HIGH 320 312
    let severe := now Reg.CLN_STAT_INLET_SEVERE 360 352
    setLimits (inletLow (n < 120)
      (coolantCond Reg.CLN_STAT_INLET_SEVERE .coolantInletHigh severe
        (coolantCond Reg.CLN_STAT_INLET_HIGH .coolantInletHigh high s))))

/-- R450, R451: a sample of the excess outlet rise. -/
def riseSample (rate : B16) (s : State) : State :=
  let s := setF Reg.CLN_STAT_EXCESS_RATE rate.toNat s
  let was := getB Reg.CLN_STAT_EXCESS_RISE s
  let n := if rate.toInt < 50 then min 500 (s.pwr.riseLow + 1) else 0
  let s := modP (fun x => { x with riseLow := n }) s
  if 200 < rate.toInt ∧ !was then
    setLimits (bump Reg.CLN_EVENTS_RISES 1 (coolantCond Reg.CLN_STAT_EXCESS_RISE .coolantRise true s))
  else if was ∧ n = 500 then setLimits (coolantCond Reg.CLN_STAT_EXCESS_RISE .coolantRise false s)
  else s

/-- EXCESS_RISE_SAMPLE (R451), every 10 ms: the excess outlet rise as computed, signed, in 0.01 °C/s. -/
def execExcessRiseSample (rate : B16) (s : State) : Ans :=
  .next (if s.powered then every .rise 0 10000000 (riseSample rate) s else s)

/-- R452: the state of the leak loop: 0 NORMAL, 1 LEAK, 2 OPEN, 3 SHORT. -/
def loopState (ohms : Nat) : Nat :=
  if ohms < 200 then 3 else if ohms < 5000 then 1 else if ohms ≤ 20000 then 0 else 2

/-- R452, R521: show the loop. -/
def showLoop (s : State) : State :=
  let now := loopState s.pins.ohms
  sensorNote 0x0212 now (getF Reg.CLN_STAT_LEAK_STATE s)
    (setF Reg.CLN_STAT_LEAK_STATE now (setF Reg.CLN_STAT_LOOP_OHMS (min 65535 s.pins.ohms) s))

/-- R450, R452: the leak condition begins: the limit applies, and the leak delay starts while the rails are on. -/
def leakBegin (s : State) : State :=
  modP (fun x => { x with
    leak := true, leakEnd := some (s.tb + getF Reg.CLN_CFG_LEAK_OFF_S s * 1000000000) }) s

/-- LEAK_LOOP_STATE_CHANGE (R452): the debounced resistance of the loop. The leak condition lasts until NORMAL (R450). -/
def execLeakLoopStateChange (ohms : Nat) (s : State) : Ans :=
  .next (
    let s := modPins (fun p => { p with ohms := ohms }) s
    if !s.powered then s
    else
      let old := getF Reg.CLN_STAT_LEAK_STATE s
      let now := loopState ohms
      let s := showLoop s
      if now = old then s
      else if now = 1 then
        let s := logEv .coolantLeak none none 0 [] (bump Reg.CLN_EVENTS_LEAKS 1 s)
        setLimits (if s.pwr.leak then s else leakBegin s)
      else if now = 0 then
        if s.pwr.leak then
          setLimits (logEv .coolantLeak none none 0 [] (modP (fun x => { x with leak := false, leakEnd := none }) s))
        else s
      else logEv .leakSenseFault none none 0 [] (bump Reg.CLN_EVENTS_LOOP_FAULTS 1 s))

/-- LEAK_OFF_EXPIRE (R452, R454): the leak delay has run out; the rails go off and stay off until a reset. -/
def execLeakOffExpire (s : State) : Ans :=
  .next (heldOr .leakOffExpire (fun s =>
    if delayOver s.pwr.leakEnd s then
      let s := modP (fun x => { x with leakEnd := none, leakOff := true }) s
      if railsOn s then railsOff 4 s else setF Reg.PWR_RAILS_LAST_OFF_CAUSE 4 s
    else s) s)

/-- COOLANT_SENSOR_CROSSCHECK (R453): the outlet has read more than 2 °C below the inlet for 10 s, at more than 900 W. -/
def execCoolantSensorCrosscheck (s : State) : Ans :=
  .next (if s.powered ∧ !s.pwr.cSensor ∧ crossOff s ∧ timerDue .crossCheck 0 10000000000 s then
    setLimits (logEv .coolantSensorFault none none 0 []
      (sensorFail 59 (sensorFail 58 (modP (fun x => { x with cSensor := true }) s))))
  else s)

/-! ### The rack manager and the input -/

/-- RACK_REFRESH_TIMEOUT (R456): 3 s without a refresh. -/
def execRackRefreshTimeout (s : State) : Ans :=
  .next (heldOr .rackRefreshTimeout (fun s =>
    if s.pwr.refreshDue ∧ timerDue .refresh 0 3000000000 s then
      logEv .rackManagerLost none none 0 [] (setB Reg.PWR_CAP_RACK_LOST true (timerSet .orphan 0
        (modP (fun x => { x with refreshDue := false, orphanDue := true }) s)))
    else s) s)

/-- ORPHAN_TIMEOUT (R456): 10 s more. -/
def execOrphanTimeout (s : State) : Ans :=
  .next (heldOr .orphanTimeout (fun s =>
    if s.pwr.orphanDue ∧ timerDue .orphan 0 10000000000 s then
      let o := getF Reg.PWR_ORPHAN_ORPHAN_W s
      let v := match rackCap s with | some w => min w o | none => o
      let s := setB Reg.PWR_CAP_RACK_ORPHAN true (modP (fun x => { x with orphanDue := false }) s)
      if rackCap s = some v then s else capOpen .rack s.pwr.rackHeld (capSet .rack (some v) s)
    else s) s)

/-- INPUT_SAG (R457). -/
def execInputSag (s : State) : Ans :=
  .next (
    let s := modPins (fun p => { p with sag := true }) s
    if s.powered then setLimits (modP (fun x => { x with lowV := true }) s) else s)

/-- INPUT_RECOVER (R457): the input has been between 40 V and 60 V for 10 ms. -/
def execInputRecover (s : State) : Ans :=
  .next (setLimits (modP (fun x => { x with lowV := false })
    (modPins (fun p => { p with sag := false, under := false, overV := false }) s)))

/-- UNDERVOLTAGE (R457, R567): the rails and the hot-swap switch go off. -/
def execUndervoltage (s : State) : Ans :=
  .next (heldOr .undervoltage (fun s =>
    railsOff 6 (modPins (fun p => { p with under := true, hotswap := false }) s)) s)

/-- OVERVOLTAGE (R457). -/
def execOvervoltage (s : State) : Ans :=
  .next (heldOr .overvoltage (fun s => railsOff 7 (modPins (fun p => { p with overV := true }) s)) s)

end Sys2Proof.Machine
end

