-- ==== Sys2Proof/Machine/Firmware.lean ====
section
/-! DEFINITION. Machine/Firmware.lean: the Bamron bundle and its verification (R531 to R533), the boot header (R535), and
what follows an operation of configuration memory (R486, R558). -/

namespace Sys2Proof.Machine

/-! ### Entries -/

/-- R531, R532: an entry's own rules. -/
def entryOk (e : List Byte) : Bool :=
  match entryComp e with
  | some c =>
    let x := entrySpan e
    dZero e 4 4 && dZero e 56 8 && x.1 % 4096 = 0 && 8192 ≤ x.1 && x.1 + x.2 ≤ slotSize && x.2 ≤ c.2
  | none => false

/-- R531: each component once, and no two images overlap. -/
def entriesOk (m : List Byte) : Bool :=
  let es := (List.range 10).map (entryAt m)
  es.all entryOk && (List.range 10).all (fun c => es.any fun e => (entryComp e).map (·.1) = some c) &&
  (List.range 10).all fun i => (List.range i).all fun j =>
    let a := entrySpan (entryAt m i)
    let b := entrySpan (entryAt m j)
    a.1 + a.2 ≤ b.1 || b.1 + b.2 ≤ a.1

/-- R531, R533: FORMAT, COUNT, SECURITY_VERSION and the zero fields. -/
def manifestOk (m : List Byte) : Bool :=
  dField m 0 2 = 1 && dField m 2 2 = 10 && dField m 4 4 ≤ 64 && dZero m 28 36 && dZero m 704 320 && dZero m 2976 1120 &&
  dZero m 7405 787

/-- R533: does every image hash as its entry says? -/
def imagesOk (slot : Nat) (m : List Byte) (s : State) : Bool :=
  (List.range 10).all fun i =>
    let e := entryAt m i
    Config.shake256 (flashBytes (fwSlotBase slot + (entrySpan e).1) (entrySpan e).2 s) 32 = sliceB e 24 32

/-- R533: verify the bundle of a slot: 0 when it is good, 4 (VERIFY) when it is not, 5 (SVN) when only its
SECURITY_VERSION is too low. -/
def bundleCheck (slot : Nat) (s : State) : Nat :=
  let m := manifest slot s
  let key := sliceB m 1024 1952
  if !(manifestOk m && Config.shake256 key 32 = s.fuse.fwKey &&
      Config.signatureOk key (sliceB m 0 4096) (sliceB m 4096 3309) && entriesOk m && imagesOk slot m s) then 4
  else if dField m 4 4 < s.fuse.svn then 5
  else 0

/-- R546: the register values of a bundle: BUNDLE_VERSION and the ten version words. -/
def bundleWords (m : List Byte) : List Nat := dField m 8 8 :: (List.range 10).map fun c => dField (entryOf m c) 8 8

/-- Show a bundle as the one in force. -/
def showBundle (ws : List Nat) (s : State) : State :=
  (List.range 10).foldl (fun s i => setF (fldNth Reg.FW_VER i) (ws.getD (i + 1) 0) s) (setF Reg.FW_BUNDLE (ws.getD 0 0) s)

/-- The Felmos image of a slot as a bank holds it: the slot, CKPT_MIN and CKPT_MAX. -/
def bankImage (slot : Nat) (s : State) : Nat × Nat × Nat :=
  (slot, dField (manifest slot s) 24 2, dField (manifest slot s) 26 2)

/-! ### The boot header -/

/-- A boot header: ACTIVE_SLOT and the fields of TRIAL. -/
structure BootHdr where
  active : Nat := 0
  armed : Bool := false
  pending : Bool := false
  trial : Nat := 0
  deriving DecidableEq, Repr

/-- R535: the 256 bytes. -/
def hdrBytes (h : BootHdr) : List Byte :=
  let body := [h.active, bit h.armed + bit h.pending * 2 + h.trial * 4].map (BitVec.ofNat 8) ++ List.replicate 246 0
  let head := leBytes 4 1
  head ++ leBytes 4 (crc32 (head ++ body)) ++ body

/-- R535: a copy, when it is valid. -/
def hdrParse (l : List Byte) : Option BootHdr :=
  let t := dField l 9 1
  if dField l 0 2 = 1 ∧ dZero l 2 2 ∧ dField l 4 4 = crc32 (l.take 4 ++ l.drop 8) ∧ dField l 8 1 < 2 ∧ t < 8 ∧
      dZero l 10 246 then
    some ⟨dField l 8 1, t.testBit 0, t.testBit 1, t / 4⟩
  else none

/-- R485, R535: the boot header in force; with no valid copy, slot A and no trial (log entry 40). -/
def bootHdr (s : State) : BootHdr :=
  match hdrParse (flashBytes 0 256 s) with
  | some h => h
  | none => (hdrParse (flashBytes 0x8000 256 s)).getD {}

/-- R535: the boot ROM writes both copies at once. -/
def hdrPut (h : BootHdr) (s : State) : State := flashPut 0x8000 (hdrBytes h) (flashPut 0 (hdrBytes h) s)

/-- R535, R558: Felmos writes copy 0 and then copy 1. -/
def hdrQueue (h : BootHdr) (after : CfgAfter) (s : State) : State :=
  cfgPush ⟨1, [(0x8000, hdrBytes h)], after⟩ (cfgPush ⟨1, [(0, hdrBytes h)], .none⟩ s)

/-- R537: a request, an activation or a trial fails, with the cause of FW_STAT.FAIL_CAUSE. -/
def actFail (cause : Nat) (s : State) : State :=
  logEv .firmwareActivationFailed none none 0 (arg16 [cause]) (setF Reg.FW_STAT_FAIL_CAUSE cause s)

/-! ### Records kept -/

/-- R440: the ageing record holds the trims and FMAX as they are. -/
def ageKeep (s : State) : State :=
  { s with kept := { s.kept with
    trim0 := getF Reg.PWR_AGEING_TRIM_D0 s, trim1 := getF Reg.PWR_AGEING_TRIM_D1 s
    fmax0 := getF Reg.PWR_AGEING_FMAX_D0 s, fmax1 := getF Reg.PWR_AGEING_FMAX_D1 s } }

/-- R546: the Felmos settings are saved as they are. -/
def settingsKeep (s : State) : State :=
  { s with kept := { s.kept with
    confirmMode := getF Reg.FW_CFG_CONFIRM_MODE s, serviceActivate := getF Reg.FW_CFG_SERVICE_ACTIVATE s
    serviceWriteEn := getF Reg.FW_CFG_SERVICE_WRITE_EN s, drainS := getF Reg.MGT_EJECT_CFG_DRAIN_S s } }

/-- R546: a setting was written: it is saved within 1 s, but not during a trial (R541). -/
def settingsWritten (s : State) : State :=
  if getF Reg.FW_STAT_ACT_STATE s = 3 then s else cfgPush ⟨3, [], .settings⟩ s

/-- R541: a trial image of another settings format runs with the Felmos settings at their defaults. -/
def trialSettings (old new : Nat) (s : State) : State :=
  if settingsFormat old 0 s = settingsFormat new 0 s then s
  else setF Reg.FW_CFG_CONFIRM_MODE 0 (setF Reg.FW_CFG_SERVICE_ACTIVATE 0 (setF Reg.FW_CFG_SERVICE_WRITE_EN 1
    (setF Reg.MGT_EJECT_CFG_DRAIN_S 30 s)))

/-- R440, R311, R498, R524, R529: what follows an operation that has succeeded. An answer of the service port is given by
its own event. -/
def cfgAfter (a : CfgAfter) (s : State) : State :=
  match a with
  | .none => s
  | .linkRec l => setF (lnkF l Reg.LNK_STATE_SETTINGS_VALID) (bit (linkRecOk l s)) s
  | .settings => settingsKeep s
  | .ageing => ageKeep s
  | .train k ver => { s with kept := { s.kept with train := smPut 0 s.kept.train k (ver + 1) } }
  | .answer .. => s
  | .coldReset => s

/-- Perform the writes of an operation. -/
def cfgWrites (op : CfgOp) (s : State) : State :=
  op.writes.foldl (fun (s : State) (w : Nat × List Byte) => flashPut w.1 w.2 s) s

/-- The oldest operation has been performed. -/
def cfgDone (op : CfgOp) (s : State) : State := cfgAfter op.after (cfgWrites op s)

/-- R462, R558: a reset: the operation that has started runs to its end, the record writes that wait (priorities 1 and 2)
are made before bring-up reads them, and the rest are dropped (log entry 41). -/
def cfgFlush (s : State) : State :=
  let ops := s.cfgQ.take 1 ++ (s.cfgQ.drop 1).filter (·.prio ≤ 2)
  ops.foldl (fun s op => cfgDone op s) { s with cfgQ := [] }

end Sys2Proof.Machine
end

