-- ==== Sys2Proof/Machine/Boot.lean ====
section
/-! DEFINITION. Machine/Boot.lean: bring-up (R493 to R504), its waits, power-on, resets of the module (R462), and loss of
power (R568). A step runs at once, up to the next thing it waits for. -/

namespace Sys2Proof.Machine

/-! ### Step 3: the firmware -/

/-- R495: boot a verified slot: both cores hold its Felmos image, core 0 is ACTIVE, and the other will be tested. -/
def bootSlot (slot : Nat) (fallback : Bool) (s : State) : State :=
  let img := bankImage slot s
  let s := setF Reg.BOOT_STAT_SLOT slot (setF Reg.FW_STAT_ACTIVE_SLOT slot (showBundle (bundleWords (manifest slot s)) s))
  let s := setB Reg.MGT_CORE_STAT_HB_MAILBOX_OK true (setB Reg.MGT_CORE_STAT_HB_WIRE_OK true
    (beatStart { s with mgmt := { s.mgmt with up := true, bank0 := some img, bank1 := some img, ckFmt := img.2.2 } }))
  if fallback then
    logBoot .firmwareSlotFallback 0 (setB Reg.BOOT_STAT_SLOT_FALLBACK true s)
  else s

/-- R495, R496: both slots fail: RECOVERY. -/
def bootRecovery (s : State) : State :=
  let s := setF Reg.BOOT_STAT_CAUSE 7 (setBoot 5 (setF Reg.BOOT_STAT_STEP 10 s))
  logEv .bootFailed none none 0 (arg16 [7]) s

/-- R495: verify a slot, then the other. None when both fail; otherwise the slot, and whether it is the other. -/
def slotChoice (slot : Nat) (s : State) : Option (Nat × Bool) :=
  if bundleCheck slot s = 0 then some (slot, false)
  else if bundleCheck (1 - slot) s = 0 then some (1 - slot, true)
  else none

/-- R536: what the boot ROM makes of the header: the slot to boot with whether it is a fallback, and whether the slot is
on trial. -/
def romChoice (s : State) : Option (Nat × Bool) × Bool × State :=
  let h := bootHdr s
  if h.armed then
    let s := hdrPut { h with armed := false } s
    if bundleCheck h.trial s = 0 then (some (h.trial, false), true, s)
    else
      let s := actFail 4 (hdrPut { h with armed := false, pending := false } s)
      (slotChoice h.active s, false, s)
  else if h.pending then
    let s := actFail 9 (hdrPut { h with pending := false } s)
    (slotChoice h.active s, false, s)
  else (slotChoice h.active s, false, s)

/-- R542: a cold activation boots: its trial runs, and ACTIVE_SLOT's bundle is the previous one. -/
def coldTrial (s : State) : State :=
  let h := bootHdr s
  let old := bundleWords (manifest h.active s)
  setF Reg.FW_STAT_ACTIVE_SLOT h.active (setF Reg.FW_STAT_ACT_STATE 3 (setF Reg.FW_TRIAL_BUNDLE (old.getD 0 0)
    (trialSettings h.active h.trial
      { s with mgmt := { s.mgmt with act := some ⟨h.trial, true, s.tb, old, h.active, 0, 0, false, 3⟩ } })))

/-! ### Step 4: configuration and licence -/

/-- R487, R488: the configuration block, from its first valid copy. -/
def cfgCopyOk (l : List Byte) : Bool :=
  let sz (i : Nat) : Nat := dField l (10 + i) 1
  let chip := dField l 8 2
  let w := dField l 20 2
  dField l 0 2 = 1 && dField l 4 4 = crc32 (l.take 4 ++ l.drop 8) && dZero l 2 2 && dZero l 13 1 && dZero l 22 10 &&
  dZero l 96 160 && (List.range 3).all (fun i => 1 ≤ sz i && sz i ≤ 32) && chip < 32768 &&
  chip / 1024 < sz 0 && chip / 32 % 32 < sz 1 && chip % 32 < sz 2 &&
  (List.range 6).all (fun i => dField l (14 + i) 1 < 3) && (w = 0 || (100 ≤ w && w ≤ 60000)) &&
  (List.range 8).all fun n => (dField l (32 + 8 * n) 8 / 64 % 4 = 0) && dField l (32 + 8 * n) 8 < 32768

/-- R485: the block in force, if any. -/
def cfgBlock (s : State) : Option (List Byte) :=
  [0xC010000, 0xC018000].findSome? fun o => if cfgCopyOk (flashBytes o 256 s) then some (flashBytes o 256 s) else none

/-- R490, R512: what is wrong with a copy of the licence: 0 nothing, 1 ABSENT (erased), 2 FORMAT, 3 SERIAL, 4 KEY,
5 SIGNATURE. -/
def licFail (l : List Byte) (s : State) : Nat :=
  let key := sliceB l 64 1952
  if l.all (· == 0xFF) then 1
  else if dField l 0 2 ≠ 1 ∨ !dZero l 2 6 ∨ !dZero l 17 7 ∨ !dZero l 48 16 then 2
  else if dField l 8 8 ≠ s.fuse.serial then 3
  else if Config.shake256 key 32 ≠ s.fuse.licKey then 4
  else if !Config.signatureOk key (l.take 2016) (sliceB l 2016 3309) then 5
  else 0

/-- The two copies of the licence. -/
def licCopies (s : State) : List (List Byte) := [flashBytes 0xC020000 5325 s, flashBytes 0xC028000 5325 s]

/-- Set fields from a register value. -/
def loadF (fs : List Fld) (v : Nat) (s : State) : State := fs.foldl (fun s f => setF f (v / 2 ^ f.lo) s) s

/-- R491: a valid licence: VARIANT and the capability registers. -/
def licLoad (l : List Byte) (s : State) : State :=
  let cap0 := (dField l 24 8).land (s.fuse.units + 0x1F * 2 ^ 32)
  let s := loadF [Reg.LIC_CAP0_WALKERS, Reg.LIC_CAP0_SIFT, Reg.LIC_CAP0_ESCALATE, Reg.LIC_CAP0_Z_AXIS, Reg.LIC_CAP0_LINKS,
    Reg.LIC_CAP0_PORTS, Reg.LIC_CAP0_STACKS, Reg.LIC_CAP0_MAX_SEQ_LOG2] cap0 s
  let s := loadF [Reg.LIC_CAP1_TDP_W, Reg.LIC_CAP1_MIN_TILES] (dField l 32 8) s
  setB Reg.LIC_STAT_VALID true (setF Reg.LIC_STAT_FAIL 0 (setF Reg.SYS_ID_VARIANT (dField l 16 1) s))

/-- R491, R496: the licence; without one bring-up is in FAILED. -/
def licStep (s : State) : State :=
  match (licCopies s).find? fun l => licFail l s = 0 with
  | some l => licLoad l s
  | none =>
    let s := setF Reg.LIC_STAT_FAIL (licFail ((licCopies s).getD 1 []) s) s
    setF Reg.BOOT_STAT_CAUSE 1 (setBoot 4 (logEv .licenceInvalid none none 0 (arg16 [1]) s))

/-- R330: the default entry for a chip. -/
def defaultRoute (own sx sy sz chip : Nat) : Nat :=
  let step (w size link : Nat) : Option Nat :=
    let c := own / w % 32
    let d := chip / w % 32
    if c = d then none
    else some (if (d + size - c) % size ≤ (c + size - d) % size then link else link + 1)
  if sx ≤ chip / 1024 ∨ sy ≤ chip / 32 % 32 ∨ sz ≤ chip % 32 then 0x3F
  else
    let port := match step 1024 sx 0 with
      | some l => l
      | none => match step 32 sy 2 with
        | some l => l
        | none => (step 1 sz 4).getD 6
    port + port * 8

/-- R493: version 0 of the route table holds the default. -/
def loadRoutes (own sx sy sz : Nat) (s : State) : State :=
  { s with routes := (List.range 32768).filterMap fun c =>
      let e := defaultRoute own sx sy sz c
      if e = 0x3F then none else some (c, e) }

/-- R323: FAB_TOPO's sizes from a configuration block. -/
def loadTopo (b : List Byte) (s : State) : State :=
  setF Reg.FAB_TOPO_SX (dField b 10 1) (setF Reg.FAB_TOPO_SY (dField b 11 1) (setF Reg.FAB_TOPO_SZ (dField b 12 1) s))

/-- R324: which of the module's links cross a dateline. -/
def datelines (own sx sy sz : Nat) : Nat :=
  let c (i : Nat) : Nat := if i = 0 then own / 1024 else if i = 1 then own / 32 % 32 else own % 32
  let size (i : Nat) : Nat := if i = 0 then sx else if i = 1 then sy else sz
  (List.range 3).foldl (fun n i =>
    if size i = 1 then n
    else n + bit (c i + 1 = size i) * 2 ^ (2 * i) + bit (c i = 0) * 2 ^ (2 * i + 1)) 0

/-- R40, R323, R330: the block places the module in the torus. -/
def loadChip (b : List Byte) (s : State) : State :=
  let own := dField b 8 2
  let sx := dField b 10 1
  let sy := dField b 11 1
  let sz := dField b 12 1
  let s := setF Reg.SYS_CHIP_X (own / 1024) (setF Reg.SYS_CHIP_Y (own / 32) (setF Reg.SYS_CHIP_Z own
    (setB Reg.SYS_CHIP_VALID true (loadTopo b s))))
  loadRoutes own sx sy sz (setF Reg.FAB_TOPO_DATELINE (datelines own sx sy sz) s)

/-- R486 to R489: the configuration block. -/
def cfgStep (s : State) : State :=
  match cfgBlock s with
  | none => logEv .configInvalid none none 0 (arg16 [4]) { s with bootHold := 4, cfgBlk := [] }
  | some b =>
    let s := { s with cfgBlk := b }
    if getB Reg.LIC_STAT_VALID s && !getB Reg.LIC_CAP0_Z_AXIS s && (dField b 12 1 ≠ 1 || dField b 8 2 % 32 ≠ 0) then
      logEv .configInvalid none none 0 (arg16 [8]) (loadTopo b { s with bootHold := 8 })
    else loadChip b s

/-! ### Step 5: memory -/

/-- R487: region `n` of a configuration block. -/
def cfgRegion (b : List Byte) (n : Nat) : Option (Nat × Nat × Nat) :=
  let v := dField b (32 + 8 * n) 8
  if v % 2 = 1 then some (v / 2 % 8, v / 16 % 4, v / 256 % 128) else none

/-- R206: the layout of a block: its regions, or none when it breaks the rule. -/
def cfgLayout (b : List Byte) (pres : Nat) : Option (List (Nat × Nat × Nat)) :=
  let all := (List.range 8).map (cfgRegion b)
  let rs := (all.takeWhile (·.isSome)).filterMap fun x => x
  let gaps := (all.drop rs.length).any (·.isSome)
  let raw (k : Nat) : Nat := rs.foldl (fun a r => if (setStacks pres r.2.1).contains k then a + r.2.2 else a) 0
  if gaps ∨ rs.isEmpty ∨ !(rs.all fun r => 1 ≤ r.1 && r.1 ≤ 4 && r.2.1 ≤ 2 && 1 ≤ r.2.2 && r.2.2 ≤ 64) ∨
      !((List.range 8).all fun k => raw k ≤ 64) then none
  else some rs

/-- R207, R237: show a layout in the MEM_REGION registers, from region `n` and base `base` on. -/
def showLayout (pres : Nat) : Nat → Nat → List (Nat × Nat × Nat) → State → State
  | _, base, [], s => setF Reg.MEM_USABLE base s
  | n, base, r :: rs, s =>
    let f (x : Fld) : Fld := fldNth x n
    let s := setF (f Reg.MEM_REGION_VALID) 1 (setF (f Reg.MEM_REGION_LEVEL) r.1 (setF (f Reg.MEM_REGION_SET) r.2.1
      (setF (f Reg.MEM_REGION_RAW_GIB) r.2.2 (setF (f Reg.MEM_REGION_BASE) (base / 4096) s))))
    showLayout pres (n + 1) (base + regionSize pres ⟨r.1, r.2.1, r.2.2, base⟩) rs s

/-- R209, R222: the layout in force; the page counts start afresh under another layout. -/
def layoutStep (s : State) : State :=
  let pres := stacksPresent s
  let std := [(2, 0, 64)]
  let l := if s.cfgBlk.isEmpty then none else cfgLayout s.cfgBlk pres
  let s := match l with
    | some _ => setB Reg.MEM_STATUS_LAYOUT_DEFAULT false s
    | none =>
      let s := setB Reg.MEM_STATUS_LAYOUT_DEFAULT true s
      if s.cfgBlk.isEmpty then s else logEv .hbmLayoutRejected none none 0 [] s
  let rs := l.getD std
  let s := forN 8 (fun n s => setF (fldNth Reg.MEM_REGION_VALID n) 0 s) s
  let s := showLayout pres 0 0 rs s
  let s := if s.layout = rs ∨ s.layout = [] then s else { s with pageCount := [], pageLogged := [] }
  { s with layout := rs }

/-- R226: the repair record, when it is valid. One whose header bytes 8 to 15 are not zero, or whose COUNT is above 4,096, is
invalid too (DESIGN CHOICE, log entry 60). -/
def repairParse (s : State) : Option (List Nat) :=
  let h := flashBytes 0xC030000 16 s
  let n := dField h 2 2
  let body := flashBytes 0xC030010 (8 * n) s
  if dField h 0 2 = 1 ∧ n ≤ 4096 ∧ dField h 4 4 = crc32 (h.take 4 ++ body) ∧ dZero h 8 8 then
    some ((List.range n).map fun i => dField body (8 * i) 8)
  else none

/-- R223: does a block lie in what an entry replaces? -/
def repairCovers (e o : Nat) (s : State) : Bool :=
  let loc := dramOf o s
  if e / 2 ^ 42 % 4 = 1 then rowKey loc = rowKey e else colKey loc = colKey e

/-- R223: the cells that an entry replaces are good again. -/
def repairSwitch (e : Nat) (s : State) : State :=
  { s with
    blkHard := s.blkHard.filter fun (b : Nat × Nat) => !repairCovers e (b.1 * 512) s
    rowSuspects := if e / 2 ^ 42 % 4 = 1 then smDel s.rowSuspects (rowKey e) else s.rowSuspects }

/-- R223: switch in the spare for an entry: true when it is applied, with what has been applied before. -/
def repairApply (done : List Nat) (e : Nat) (s : State) : Bool × State :=
  let k := e % 8
  let kind := e / 2 ^ 42 % 4
  let spares := if kind = 1 then smLook 0 s.spareRows k else smLook 0 s.spareCols k
  if (kind ≠ 1 ∧ kind ≠ 2) ∨ done.contains (repairKey e) ∨ spares = 0 then (false, s)
  else
    (true, repairSwitch e (if kind = 1 then { s with spareRows := smPut 0 s.spareRows k (spares - 1) }
      else { s with spareCols := smPut 0 s.spareCols k (spares - 1) }))

/-- R223: apply a list of entries in order: how many were applied and skipped. -/
def repairRun : List Nat → List Nat → Nat → State → Nat × State
  | [], _, n, s => (n, s)
  | e :: es, done, n, s =>
    match repairApply done e s with
    | (true, s) => repairRun es (repairKey e :: done) (n + 1) s
    | (false, s) => repairRun es done n s

/-- R223: the entries that the stack tests find: a column group of a bank in which cells of four rows or more stay bad, and
otherwise each row in which they do. The spec gives no rule for which of the two a test adds; the model takes that of R225 (DESIGN
CHOICE, log entry 59). -/
def testEntries (s : State) : List Nat :=
  let locs := s.blkHard.map fun (b : Nat × Nat) => dramOf (b.1 * 512) s
  let cols := (locs.map colKey).eraseDups.filter fun c =>
    4 ≤ ((locs.filter fun l => colKey l = c).map rowKey).eraseDups.length
  (cols.map (· + 2 * 2 ^ 42 + 2 * 2 ^ 48)) ++
    ((locs.filter fun l => !cols.contains (colKey l)).map rowKey).eraseDups.map (· + 2 ^ 42 + 2 * 2 ^ 48)

/-- R223: the stack tests of the cold path add an entry for each failing row or column group and apply it at once, after the
repairs `done`. One for which no spare is left is logged (R496). -/
def stackTests (done : List Nat) (s : State) : State :=
  (testEntries s).foldl (fun (s : State) e =>
    if 4096 ≤ s.repairRec.length then logEv .hbmRepairRecordFull none none (e % 8) (leBytes 8 e) s
    else match repairApply (done ++ s.repairRec.map repairKey) e s with
      | (true, s) => bump Reg.MEM_REPAIR_STAT_APPLIED 1 { s with repairRec := s.repairRec ++ [e] }
      | (false, s) => logEv .hbmRepairExhausted none none (e % 8) (leBytes 8 e) s) s

/-- R223, R226: repairs: the factory's from the eFuse array, which leave 256 spare rows and 32 spare column groups in each stack
(R224; log entry 1); then the record; then, on the cold path, the tests. -/
def repairStep (warm : Bool) (s : State) : State :=
  let ks := (List.range 8).filter fun k => (stacksPresent s).testBit k
  let factory := s.fuse.repairs.map repairKey
  let s := s.fuse.repairs.foldl (fun s e => repairSwitch e s)
    { s with spareRows := ks.map fun k => (k, 256), spareCols := ks.map fun k => (k, 32) }
  let s := match repairParse s with
    | some es =>
      let r := repairRun es factory 0 { s with repairRec := es }
      setF Reg.MEM_REPAIR_STAT_APPLIED r.1 (setF Reg.MEM_REPAIR_STAT_SKIPPED (es.length - r.1) r.2)
    | none =>
      cfgPush ⟨2, [(0xC030000, repairBytes [])], .none⟩
        (logEv .hbmRepairRecordInvalid none none 0 [] { s with repairRec := [] })
  let n := s.repairRec.length
  let s := setF Reg.MEM_REPAIR_STAT_QUEUED 0 (if warm then s else stackTests factory s)
  let s := if s.repairRec.length = n then s else cfgPush ⟨2, [(0xC030000, repairBytes s.repairRec)], .none⟩ s
  ks.foldl (fun s k => setF (stkF k Reg.MEM_STK_STATE_SPARE_ROWS) (smLook 0 s.spareRows k)
    (setF (stkF k Reg.MEM_STK_STATE_SPARE_COLS) (smLook 0 s.spareCols k) s)) s

/-- R498: training: on the cold path in full, and saved; on the warm path from the saved record, or in full. -/
def trainStep (warm : Bool) (s : State) : State :=
  let ver := getF (fldNth Reg.FW_VER 8) s
  ((List.range 8).filter fun k => (stacksPresent s).testBit k).foldl (fun s k =>
    let s := setB (stkF k Reg.MEM_STK_STATE_PRESENT) true (setB (stkF k Reg.MEM_STK_STATE_TRAINED)
      (!s.hw.stackFail.testBit k) s)
    if !warm then cfgPush ⟨4, [], .train k ver⟩ s
    else if smLook 0 s.kept.train k ≠ ver + 1 ∨ s.hw.trainBad.testBit k then logBoot .hbmTrainingFallback k s
    else s) s

/-- R455, R496: bring-up fails: FAILED with a cause, and the compute rails go off with NOT_YET_ON. -/
def bootFail (cause : Nat) (s : State) : State :=
  railsOff 8 (setF Reg.BOOT_STAT_CAUSE cause (setBoot 4 s))

/-- R478: a context after the rails have come on again. -/
def ctxRailsUp (x : Ctx) : Ctx := { x with st := .free, resetProd := [] }
/-- R478: a ring after the rails have come on again. -/
def ringRailsUp (x : Ring) : Ring := { x with enable := false, halted := false, blocked := false, cmds := [], late := [] }

/-- R555: when the rails come on during a trial, the compute dies load the images of the bundle on trial. -/
def trialImages (s : State) : State :=
  match s.mgmt.act with
  | some a =>
    if getF Reg.FW_STAT_ACT_STATE s = 3 && !a.cold then
      setF (fldNth Reg.FW_VER 8) ((bundleWords (manifest a.slot s)).getD 9 0)
        { s with mgmt := { s.mgmt with unitNew := s.mgmt.unitNew.lor (2 ^ 8), tileNew := 2 ^ 272 - 1 } }
    else s
  | none => s

/-- R454, R430, R456: the compute rails come on, at 0.6 GHz (log entry 42); contexts are FREE and rings DISABLED
(R478). -/
def railsUp (s : State) : State :=
  let on (c : Clk) : Clk := { c with f := 600, want := 600, duty := 16, vmax := 600, moving := false, waiting := false }
  let s := setB Reg.THM_STAT_TRIPPED false (setB Reg.PWR_RAILS_ON true s)
  let s := if getF Reg.PWR_RAILS_LAST_OFF_CAUSE s = 8 then setF Reg.PWR_RAILS_LAST_OFF_CAUSE 0 s else s
  trialImages <| timerSet .refresh 0 <| modP (fun x => { x with refreshDue := true, orphanDue := false })
    (modClk 1 on (modClk 0 on { s with
      ctxs := (s.ctxs.map fun (e : Nat × Ctx) => (e.1, ctxRailsUp e.2)).filter fun e => e.2 ≠ {}
      rings := (s.rings.map fun (e : Nat × Ring) => (e.1, ringRailsUp e.2)).filter fun e => e.2 ≠ {} }))

/-- Step 5 (R493): rails, ageing calibration, training, layout, repairs; the maps are clear and the Gleaners start. -/
def bootMem (warm : Bool) (s : State) : State :=
  let s := railsUp s
  let s := if warm then s else ageRun s
  let s := setF Reg.MEM_STATUS_STACKS_PRESENT (getF Reg.LIC_CAP0_STACKS s) s
  let s := layoutStep (trainStep warm s)
  let s := repairStep warm { s with glnPos := [] }
  let bad := (stacksPresent s).land s.hw.stackFail
  if bad ≠ 0 then bootFail 2 (setF Reg.MEM_STATUS_STACKS_FAILED bad s) else s

/-! ### Steps 6 and 7: the floor plan and the tiles' firmware -/

/-- R503: add a tile; a tile that the record lists is not repeated. -/
def defectAdd (t src : Nat) (l : List (Nat × Nat)) : List (Nat × Nat) :=
  if l.any (·.1 = t) then l else l ++ [(t, src)]

/-- R503: the defect record, when it is valid: tiles with SOURCE. An entry that repeats a tile is ignored. -/
def defectParse (s : State) : Option (List (Nat × Nat)) :=
  let h := flashBytes 0xC040000 16 s
  let n := dField h 2 2
  let body := flashBytes 0xC040010 (4 * n) s
  if dField h 0 2 = 1 ∧ n ≤ 272 ∧ dField h 4 4 = crc32 (h.take 4 ++ body) ∧ dZero h 8 8 then
    some ((List.range n).foldl (fun l i => defectAdd (dField body (4 * i) 4 % 512) (dField body (4 * i) 4 / 512 % 8) l) [])
  else none

/-- R503: the bytes of a defect record. -/
def defectBytes (l : List (Nat × Nat)) : List Byte :=
  let hdr := leBytes 2 1 ++ leBytes 2 l.length
  let body := (l.map fun e => leBytes 4 (e.1 + e.2 * 512)).flatten
  hdr ++ leBytes 4 (crc32 (hdr ++ body)) ++ List.replicate 8 0 ++ body

/-- Put a record in force, show it, and write it. -/
def defectSet (l : List (Nat × Nat)) (s : State) : State :=
  setF Reg.FP_DEFECT_STAT_COUNT l.length (cfgPush ⟨2, [(0xC040000, defectBytes l)], .none⟩ { s with defects := l })

/-- R501, R502: why a tile is not enabled: 0 = ENABLED, 1 = FUSED, 2 = DEFECT_RECORD, 3 = BOOT_TEST, 4 = LOAD. -/
def tileCause (warm : Bool) (defects : List (Nat × Nat)) (s : State) (t : Nat) : Nat :=
  if !s.fuse.tiles.testBit t then 1
  else if defects.any (·.1 = t) then 2
  else if !warm && s.hw.tileTest.testBit t then 3
  else if s.hw.tileLoad.testBit t then 4
  else 0

/-- R502: the floor-plan record for the tiles' causes, without its hash. -/
def planBytes (causes : List Nat) (s : State) : List Byte :=
  let on (lo n : Nat) : Nat := ((causes.drop lo).take n).foldl (fun a c => a + bit (c = 0)) 0
  let mask := (List.range 272).foldl (fun a t => a + bit (causes.getD t 1 = 0) * 2 ^ t) 0
  leBytes 2 1 ++ leBytes 2 (on 0 272) ++ leBytes 2 (on 0 136) ++ leBytes 2 (on 136 136) ++ leBytes 34 mask ++
  List.replicate 6 0 ++ leBytes 2 (getF Reg.FP_COUNT_WALKERS s) ++
  leBytes 1 ((stacksPresent s) - getF Reg.MEM_STATUS_STACKS_FAILED s) ++
  leBytes 1 (getF Reg.MEM_STATUS_STACKS_FAILED s) ++ leBytes 1 (getF Reg.LIC_CAP0_LINKS s) ++
  leBytes 1 (getF Reg.LIC_CAP0_PORTS s) ++ List.replicate 10 0 ++
  ((List.range 136).map fun i => leBytes 1 (causes.getD (2 * i) 1 + causes.getD (2 * i + 1) 1 * 16)).flatten ++
  List.replicate 24 0

/-- R502, R513: show the floor plan. -/
def showPlan (causes : List Nat) (s : State) : State :=
  let b := planBytes causes s
  let r := b ++ Config.shake256 b 32
  let s := forN 32 (fun i s => setF (fldNth Reg.FP_REC i) (dField r (8 * i) 8) s) s
  let s := forN 5 (fun k s => setF (fldNth Reg.FP_TILES k) (dField r (8 + 8 * k) (if k = 4 then 2 else 8)) s) s
  setF Reg.FP_COUNT_TOTAL (dField b 2 2) (setF Reg.FP_COUNT_D0 (dField b 4 2) (setF Reg.FP_COUNT_D1 (dField b 6 2) s))

/-- Step 6 (R501, R503): the defect record with what ladder step 3 named, and the tests. -/
def defectStep (s : State) : State :=
  let s := match defectParse s with
    | some l => setF Reg.FP_DEFECT_STAT_COUNT l.length { s with defects := l }
    | none => defectSet [] (logBoot .defectRecordInvalid 0 s)
  let s := if s.ladderTiles.isEmpty then s
    else { defectSet (s.ladderTiles.foldl (fun l t => defectAdd t 2 l) s.defects) s with ladderTiles := [] }
  setF Reg.FP_DEFECT_STAT_PENDING 0 s

/-- R501: the tiles that fail their self-test enter the record. -/
def testStep (causes : List Nat) (s : State) : State :=
  let bad := (List.range 272).filter fun t => causes.getD t 0 = 3
  if bad.isEmpty then s
  else defectSet (bad.foldl (fun l t => defectAdd t 1 l) s.defects)
    (bad.foldl (fun s t => logBoot .tileTestFailed t s) s)

/-- The tiles that are enabled, each IDLE. -/
def enabledTiles (causes : List Nat) : SMap Tile :=
  ((List.range 272).filter fun t => causes.getD t 1 = 0).map fun t => (t, { mode := .idle })

/-- Steps 6 and 7 (R500 to R502, R496): the floor plan, the walkers, the tiles' firmware, and MIN_TILES. -/
def bootTiles (warm : Bool) (s : State) : State :=
  if getF Reg.BOOT_STAT_STATE s = 4 then s
  else
    let s := defectStep (stepBegin 6 s)
    let causes := (List.range 272).map (tileCause warm s.defects s)
    let s := testStep causes s
    let s := setF Reg.FP_COUNT_WALKERS (if getB Reg.LIC_CAP0_WALKERS s then s.fuse.walkers else 0) s
    let s := stepBegin 7 (stepDone 6 s)
    let s := (List.range 272).foldl (fun s t =>
      if causes.getD t 0 = 4 then logBoot .tileLoadFailed t s else s) s
    let s := showPlan causes s
    let s := { s with tiles := enabledTiles causes }
    let s := stepDone 7 s
    if getF Reg.FP_COUNT_TOTAL s < getF Reg.LIC_CAP1_MIN_TILES s then bootFail 3 s else s

/-! ### Step 8: links -/

/-- R499: the links to enable. -/
def linksToEnable (s : State) : List Nat :=
  (List.range 6).filter fun l => s.bootHold = 0 && !s.cfgBlk.isEmpty && dField s.cfgBlk (14 + l) 1 ≠ 0 &&
    linkPresent l s && 1 < dimSize l s

/-- R499: enable a link. -/
def linkStart (warm : Bool) (s : State) (l : Nat) : State :=
  let s := setLF l Reg.LNK_CFG_PARTNER (dField s.cfgBlk (14 + l) 1) (setLF l Reg.LNK_CFG_FAST (bit warm) s)
  linkEnable l (setTopo l 1 s)

/-- Step 8 (R499); with no link to train, discovery decides at once. -/
def bootLinks (warm : Bool) (s : State) : State :=
  let s := stepBegin 8 s
  let s := forN 6 (fun l s => setLF l Reg.LNK_STATE_SETTINGS_VALID (bit (linkRecOk l s)) s) s
  match linksToEnable s with
  | [] => topoDecide (stepBegin 9 (stepDone 8 s))
  | l :: ls => ls.foldl (linkStart warm) (linkStart warm s l)

/-! ### The sequence -/

/-- Is this bring-up on the warm path? -/
def bootWarm (s : State) : Bool := getB Reg.BOOT_STAT_WARM s

/-- R494: bring-up waits for the rails at a step. -/
def waitRails (step : Nat) (s : State) : State :=
  setBoot 1 { setF Reg.BOOT_STAT_STEP step s with bootAt := s.tb }

/-- Steps 5 to 8, once the rails may come on. -/
def bootFrom5 (s : State) : State :=
  let s := stepBegin 5 (setBoot 0 s)
  let s := stepDone 5 (bootMem (bootWarm s) s)
  bootLinks (bootWarm s) (bootTiles (bootWarm s) s)

/-- R494: may step 5 begin? -/
def step5May (s : State) : Bool := railsMay s && junctionsCool s

/-- Step 5, or its wait; FAILED goes on with step 8. -/
def bootTry5 (s : State) : State :=
  if getF Reg.BOOT_STAT_STATE s = 4 then bootLinks (bootWarm s) s
  else if step5May s then bootFrom5 s
  else waitRails 5 s

/-- Steps 3 and 4. -/
def bootFrom3 (s : State) : State :=
  let r := romChoice (stepBegin 3 s)
  match r.1 with
  | none => bootRecovery (stepDone 3 r.2.2)
  | some c =>
    let s := bootSlot c.1 c.2 r.2.2
    let s := if r.2.1 then coldTrial s else s
    let s := stepBegin 4 (stepDone 3 s)
    bootTry5 (stepDone 4 (cfgStep (licStep s)))

/-- R524, R546: what step 2 loads: the settings, BOOT_COUNT, which rises by 1, and FSEQ from 1. -/
def bootLoad (s : State) : State :=
  let n := s.kept.bootCount + 1
  let s := { s with kept := { s.kept with bootCount := n }, outbox := [], fseq := 1, outboxFull := false }
  setF Reg.MGT_SB_STAT_BOOT_COUNT n (setF Reg.MGT_SB_STAT_OUTBOX_PENDING 0
    (setF Reg.FW_CFG_CONFIRM_MODE s.kept.confirmMode (setF Reg.FW_CFG_SERVICE_ACTIVATE s.kept.serviceActivate
      (setF Reg.FW_CFG_SERVICE_WRITE_EN s.kept.serviceWriteEn (setF Reg.MGT_EJECT_CFG_DRAIN_S s.kept.drainS s)))))

/-- R494, R563, R567: may step 2 begin? -/
def step2May (s : State) : Bool :=
  s.powered && s.pins.hotswap && !s.pins.resetN && s.pins.coolantOk && junctionsCool s

/-- Step 2, or its wait. -/
def bootTry2 (s : State) : State :=
  if step2May s then bootFrom3 (stepDone 2 (bootLoad (stepBegin 2 (setBoot 0 s)))) else waitRails 2 s

/-- R493: bring-up starts at step 2, on the cold or the warm path. -/
def bootStart (warm : Bool) (s : State) : State :=
  bootTry2 (logBoot .bootStarted 0 (setB Reg.BOOT_STAT_WARM warm s))

/-- R564: what the always-on domain shows of its pins, of the fuses and of the kept records. -/
def showAlways (s : State) : State :=
  let s := setF Reg.LIC_SERIAL s.fuse.serial (setF Reg.FW_SVN_COUNTER s.fuse.svn
    (setF Reg.SYS_ID_STEPPING s.fuse.stepping s))
  let s := showLoop (showCoolant (setB Reg.PWR_RAILS_BRAKE s.pins.brake s))
  let s := modP (fun x => { x with lowV := s.pins.sag }) s
  setLimits (if loopState s.pins.ohms = 1 then leakBegin s else s)

/-- POWER_ON (R493, R568): step 1, the always-on domain; then step 2 when it may. -/
def execPowerOn (s : State) : Ans :=
  .next (if s.powered then s
  else
    let s := { s with powered := true, bootAt := s.tb }
    let s := setF Reg.PWR_AGEING_TRIM_D0 s.kept.trim0 (setF Reg.PWR_AGEING_TRIM_D1 s.kept.trim1
      (setF Reg.PWR_AGEING_FMAX_D0 s.kept.fmax0 (setF Reg.PWR_AGEING_FMAX_D1 s.kept.fmax1 s)))
    bootStart false (stepDone 1 (showAlways (stepBegin 1 s))))

/-- R494, R497: the wait for the rails ends, when what it waits for holds: step 2, step 5, or the rerun of steps 5 to 7
on the warm path, after which the module is as it was. -/
def railsResume (s : State) : State :=
  if getF Reg.BOOT_STAT_STATE s ≠ 1 ∨ s.pwr.hubDown then s
  else match s.rerun with
    | some r =>
      if step5May s then
        let s := stepBegin 5 (setB Reg.BOOT_STAT_WARM true (setBoot 0 { s with rerun := none }))
        let s := bootTiles true (stepDone 5 (bootMem true s))
        let s := setF Reg.BOOT_STAT_TOTAL_MS (totalMs s) (setF Reg.BOOT_STAT_STEP 10 s)
        if getF Reg.BOOT_STAT_STATE s = 4 then
          logEv .bootFailed none none 0 (arg16 [getF Reg.BOOT_STAT_CAUSE s]) s
        else
          let s := setF Reg.BOOT_STAT_CAUSE r.2 (setBoot r.1 s)
          if r.1 = 2 then logEv .bootReady none none 0 (arg16 [totalMs s]) s
          else logEv .topologyHold none none 0 (arg16 [r.2]) s
      else s
    | none =>
      if getF Reg.BOOT_STAT_STEP s = 5 then (if step5May s then bootFrom5 s else s)
      else if step2May s then bootTry2 s
      else s

/-- RAILS_WAIT_END (R494): what bring-up waits for has come. -/
def execRailsWaitEnd (s : State) : Ans := .next (heldOr .railsWaitEnd railsResume s)

/-- RAILS_ON (R454, R497): the rails come on again, and the compute dies follow the warm path. -/
def execRailsOn (s : State) : Ans :=
  .next (heldOr .railsOn (fun s => if 5 ≤ getF Reg.BOOT_STAT_STEP s then railsResume s else s) s)

/-- PRECHARGE_SETTLED (R567): the hot-swap switch turns on; step 2 begins when nothing else holds it. -/
def execPrechargeSettled (s : State) : Ans :=
  .next (
    let s := modPins (fun p => { p with hotswap := true }) s
    if s.powered then railsResume s else s)

/-! ### Resets of the module -/

/-- R462, R222, R285, R459: the registers that keep their values. Of THM_SENSOR the failures stay (R445), and so do the readings of
the junction sensors, which read through a reset (R436). -/
def regKept (key : Nat) : Bool :=
  let off := key / 64
  let lo := key % 64
  let stk := 0x71000 ≤ off && off < 0x71800 && 8 ≤ off % 0x100 && off % 0x100 < 0x48
  let eth := 0x30000 ≤ off && off < 0x34000 && 0x10 ≤ off % 0x1000 && off % 0x1000 < 0x38
  off = 0x18 || off = 0x30 || off = 0x40 || stk || off = 0x70210 || eth ||
  (0x11100 ≤ off && off < 0x11300 && lo = 25) || (0x11100 ≤ off && off < 0x11240 && lo = 0) || (off = 0x11008 && (lo = 43 || lo = 44)) || off = 0x100A8 ||
  (off = 0x1800 && lo = 32) || (off = 0x2018 && lo = 32) || off = 0x3000 || off = 0x3008 || (off = 0x3018 && lo = 32)

/-- R462, R474, R477: contexts that were RESETTING are reset by the larger reset; the others are as at reset. -/
def ctxAbsorbed (e : Nat × Ctx) : Option (Nat × Ctx) :=
  if e.2.st = .resetting then some (e.1, { lastLevel := 4 }) else none

/-- R445, R453, R461: what of the power controller a reset leaves: failed coolant sensors, the Tamp, the histories of the
sensors, and a power-cycle request. -/
def pwrKept (p : Pwr) : Pwr :=
  { cSensor := p.cSensor, clampTdp := p.clampTdp, clampI := p.clampI, offMs := p.offMs, okMs := p.okMs
    estHist := p.estHist, cycle := p.cycle }

/-- The cables stay plugged in whatever is reset. -/
def plugs (s : State) : SMap EthPort :=
  s.ports.map fun (e : Nat × EthPort) => (e.1, { e.2 with split := false, maxFrame := 9216 })

/-- The links as a reset leaves them: they are not ACTIVE from now on (R346). -/
def linksDown (now : Nat) : SMap Link :=
  (List.range 6).foldl (fun m l => smPut {} m l { downAt := now }) []

/-- R461, R462: the module domain as a module reset or a warm reset leaves it, before bring-up; the always-on domain
goes on. -/
def moduleClear (s : State) : State :=
  let s := cfgFlush s
  { State.reset with
    pending := s.pending, powered := s.powered, tb := s.tb, tbFrac := s.tbFrac, freeCtr := s.freeCtr, stamps := s.stamps
    regs := s.regs.filter fun (e : Nat × Nat) => regKept e.1
    log := s.log, logLast := s.logLast, timers := s.timers, blkHard := s.blkHard, flash := s.flash
    rowSuspects := s.rowSuspects, colSuspects := s.colSuspects, glnPasses := s.glnPasses
    pageCount := s.pageCount, pageLogged := s.pageLogged, sent := s.sent, links := linksDown s.tb
    ctxs := s.ctxs.filterMap ctxAbsorbed
    fuse := s.fuse, hw := s.hw, pins := s.pins, ports := plugs s, ladderTiles := s.ladderTiles, layout := s.layout, kept := s.kept
    ptp := s.ptp
    pwr := pwrKept s.pwr }

/-- R462, R477: start a module reset (`warm` false) or a warm reset with its cause. One that starts while TRIPPED is 1 is
recorded as a trip, and one that ends a ladder as MODULE. Bring-up follows unless RESET_N holds the module. -/
def moduleReset (warm : Bool) (cause : Nat) (s : State) : State :=
  let c := if !warm && getB Reg.THM_STAT_TRIPPED s then 5 else if cause ≠ 4 && !s.jobs.isEmpty then 2 else cause
  let cnt := if warm then Reg.SYS_RESET_STAT_WARM_RESETS else Reg.SYS_RESET_STAT_MODULE_RESETS
  let s := showAlways (moduleClear s)
  let s := logEv .moduleReset none none 0 [] (bump cnt 1 (setF Reg.SYS_RESET_STAT_LAST_CAUSE c s))
  let s := timerSet .step4 0 { s with step4 := warm }
  if s.pins.resetN then s else bootStart warm s

/-- RESET_N_ASSERT (R462, R563): a module reset, which holds while RESET_N stays asserted. -/
def execResetNAssert (s : State) : Ans :=
  .next (heldOr .resetNAssert (fun s =>
    let s := modPins (fun p => { p with resetN := true }) s
    if s.powered then moduleReset false 1 s else s) s)

/-- RESET_N_RELEASE (R462): bring-up starts at step 2 on the cold path. -/
def execResetNRelease (s : State) : Ans :=
  .next (heldOr .resetNRelease (fun s =>
    if s.pins.resetN then
      let s := modPins (fun p => { p with resetN := false }) s
      if !s.powered then s
      else if getF Reg.BOOT_STAT_STATE s = 1 then railsResume s
      else bootStart false s
    else s) s)

/-- SYS_RESET_MODULE (R462, R553). -/
def execSysResetModule (s : State) : Ans :=
  .next (heldOr .sysResetModule (fun s =>
    if s.powered && !s.pwr.hubDown && !getB Reg.PWR_RAILS_RACK_OFF s then moduleReset false 2 s else s) s)

/-- SYS_RESET_WARM (R462, R553): step 4 of the ladder, when it is asked for. -/
def execSysResetWarm (s : State) : Ans :=
  .next (heldOr .sysResetWarm (fun s =>
    if s.powered && !s.pwr.hubDown && !getB Reg.PWR_RAILS_RACK_OFF s then moduleReset true 3 s else s) s)

/-- R476: a power cycle is requested: ALERT_N is asserted and HEARTBEAT_OUT is driven low. -/
def cycleRequest (s : State) : State :=
  timerSet .cycleReport 0 <| logEv .powerCycleRequested none none 0 []
    { modP (fun x => { x with cycle := true }) s with mgmt := { s.mgmt with beat := false } }

/-- SYS_RESET_POWER_CYCLE (R476, R553). -/
def execSysResetPowerCycle (s : State) : Ans :=
  .next (heldOr .sysResetPowerCycle (fun s => if s.powered && !s.pwr.hubDown && !s.pwr.cycle then cycleRequest s else s) s)

/-- The newest POWER_CYCLE_REQUESTED record. -/
def cycleRecord (s : State) : Option LogRec :=
  (s.log.map fun (e : Nat × LogRec) => e.2).reverse.find? fun r => r.code = evCode .powerCycleRequested

/-- POWER_CYCLE_REPORT_TIMER (R476), every 30 s: Felmos reports the request again. -/
def execPowerCycleReportTimer (s : State) : Ans :=
  match cycleRecord s with
  | some r => .next (if s.pwr.cycle && s.mgmt.up then every .cycleReport 0 30000000000 (outboxPush (.record r)) s else s)
  | none => .next s

/-- POWER_LOSS (R568, R480): the always-on domain loses power; what configuration memory, the fuses and the surroundings
hold stays. -/
def execPowerLoss (s : State) : Ans :=
  .next { State.reset with
    pending := s.pending, freeCtr := s.freeCtr, flash := s.flash, blkHard := s.blkHard, sent := s.sent
    fuse := s.fuse, hw := s.hw, kept := s.kept, ports := plugs s
    pins := { s.pins with hotswap := false, sag := false, under := false, overV := false } }

end Sys2Proof.Machine
end

