-- ==== Sys2Proof/Machine/Clears.lean ====
section
/-! DEFINITION. Machine/Clears.lean: the registers that clear counters (R84, R124, R198, R235, R237, R238, R321, R349,
R419, R443, R460), and the Gleaner (R218 to R222). -/

namespace Sys2Proof.Machine

/-- TILE_PREC_CLEAR written 1 (R84). -/
def execTilePrecClear (t : TileId) (s : State) : Ans := .next (clearRegs (blkBase .tile t.val) 0x610 0x640 s)
/-- R125: the work of an operation that executes is counted when it completes; a free part of it lies before a clear. -/
def cutWork (s : State) (x : Tile) : Tile :=
  let part (i n : Nat) : Nat := (Config.freeValue (s.freeCtr + i)).toNat % (n + 1)
  { x with
    matQ := x.matQ.mapIdx fun i o =>
      if i = 0 && o.drill = .none then { o with cut := (max o.cut.1 (part 0 o.cycles), max o.cut.2.1 (part 1 o.macs), max o.cut.2.2 (part 2 o.stall)) }
      else o
    vecQ := x.vecQ.mapIdx fun i o => if i = 0 then { o with cycles := o.cycles - part 3 o.cycles } else o
    crema := x.crema.map fun c =>
      let k := (c.ref.headD []).length
      if c.excursion then { c with cut := (max c.cut.1 (part 4 (2 * (k / 256 * max c.m 85))), max c.cut.2 (part 5 (c.m * 160 * k))) }
      else c }

/-- TILE_CTR_CLEAR written 1 (R124, R125). -/
def execTileCtrClear (t : TileId) (s : State) : Ans :=
  .next (clearRegs (blkBase .tile t.val) 0x010 0x060 { modT t.val (cutWork s) s with freeCtr := s.freeCtr + 6 })
/-- TILE_SP_CLEAR written 1 (R235). -/
def execTileSpClear (t : TileId) (s : State) : Ans := .next (clearRegs (blkBase .tile t.val) 0x700 0x718 s)
/-- KVW_CTR_CLEAR written 1 (R198). -/
def execKvwCtrClear (w : WalkerId) (s : State) : Ans := .next (clearRegs (blkBase .kvw w.val) 0x08 0x30 s)
/-- MEM_GLN_PAGE_CLEAR written 1 (R221, R237). -/
def execMemGlnPageClear (s : State) : Ans := .next { s with pageCount := [], pageLogged := [] }
/-- MEM_STK_CLEAR written 1 (R238). -/
def execMemStkClear (stack : StackId) (s : State) : Ans := .next (clearRegs (blkBase .stk stack.val) 0x08 0x40 s)
/-- LNK_CTR_CLEAR written 1 (R321). -/
def execLnkCtrClear (l : LinkId) (s : State) : Ans := .next (clearRegs (blkBase .lnk l.val) 0x100 0x158 s)
/-- FAB_CTR_CLEAR written 1 (R349). -/
def execFabCtrClear (s : State) : Ans := .next (clearRegs 0 0x50100 0x50138 s)
/-- COL_CTR_CLEAR written 1 (R419). -/
def execColCtrClear (s : State) : Ans := .next (clearRegs 0 0x60300 0x60340 s)
/-- PWR_CTR_CLEAR written 1 (R443): whole microseconds that have been sampled count before the clear. -/
def execPwrCtrClear (s : State) : Ans :=
  .next (clearRegs 0 0x10040 0x10090 { s with pwr := { s.pwr with
    samples := (s.pwr.samples.map fun (e : Nat × Nat) => (e.1, e.2 % 100)).filter fun e => e.2 ≠ 0 } })
/-- CLN_CTR_CLEAR written 1 (R460). -/
def execClnCtrClear (s : State) : Ans := .next (clearRegs 0 0x12010 0x12010 s)

/-! ### The Gleaner -/

/-- R201, R218: the places of a pass over the 64 GiB of a stack's raw memory, 512 bytes each. -/
def gleanPlaces : Nat := 2 ^ 27

/-- R204, R218: the module offset of the data block at place `i` of stack `k`; none where the raw memory holds check fields, unused
bytes or nothing. -/
def gleanOffset (k i : Nat) (s : State) : Option Nat :=
  match rawAt k (i * 512) s with
  | .data o => some o
  | _ => none

/-- R221: count a correction in its page, and log the page once when it reaches the threshold. -/
def pageNote (o : Nat) (s : State) : State :=
  let p := o / 2 ^ 21
  let n := min (smLook 0 s.pageCount p + 1) 0xFFFF
  let s := { s with pageCount := smPut 0 s.pageCount p n }
  if getF Reg.MEM_GLN_CTL_PAGE_THRESH s ≤ n && !smLook false s.pageLogged p then
    logEv .hbmCePageThreshold none none (p * 2 ^ 21) (arg16 [n]) { s with pageLogged := smPut false s.pageLogged p true }
  else s

/-- R219: a correctable block is rewritten and read again. -/
def gleanCorrect (k o n : Nat) (s : State) : State :=
  let s := noteCe o n s
  let hard := smLook 0 s.blkHard (o / 512)
  let s := pageNote o (bump Reg.MEM_GLN_REWRITES 1 (blockEncode o s))
  if hard = 0 then bump (stkF k Reg.MEM_STK_CE_SCRUB) 1 s
  else
    let s := bump (stkF k Reg.MEM_STK_HARD_SUSPECT) 1 s
    repairOnSuspect o (logEv .hbmHardFaultSuspect none none o (leBytes 8 (dramOf o s)) s)

/-- R218 to R220: read, check and repair one block. An error beyond the strength is reported or miscorrected (log entry 9). -/
def gleanBlock (k o : Nat) (s : State) : State :=
  let n := smLook 0 s.blkErr (o / 512)
  if !granuleWritten o s || n = 0 then s
  else if n ≤ codeT o s then gleanCorrect k o n s
  else
    match blockFate o s with
    | (1, s) =>
      let s := noteUe o true (bump (stkF k Reg.MEM_STK_UE_SCRUB) 1 s)
      repairOnUe o (logEv .hbmUeScrub none none o (leBytes 8 (dramOf o s)) s)
    | (f, s) => gleanCorrect k o (misCount f o s) (hbmPut o (misBlock f) s)

/-- R205: errors appear in a block: `sym` symbols go bad, and `hard` symbols stay bad whatever is written. -/
def upset (o sym hard : Nat) (s : State) : State :=
  let s := blockDecay o sym s
  if hard = 0 then s else { s with blkHard := smPut 0 s.blkHard (o / 512) hard }

/-- MEM_GLN_STAT.PASSES: the smallest count over the present stacks (R237). -/
def glnPassesMin (s : State) : Nat :=
  match (List.range 8).filter fun k => (stacksPresent s).testBit k with
  | [] => 0
  | k :: l => l.foldl (fun n k => min n (smLook 0 s.glnPasses k)) (smLook 0 s.glnPasses k)

/-- GLEANER_BLOCK_VISIT (R218 to R222): the Gleaner of a stack comes to the next 512 bytes of its raw memory. Where they are a data
block, `sym` of its symbols have gone bad and `hard` of them would stay so; where they are not, it makes no access. -/
def execGleanerBlockVisit (stack : StackId) (sym hard : Nat) (s : State) : Ans :=
  let k := stack.val
  if !(stacksPresent s).testBit k then .next s
  else
    let i := smLook 0 s.glnPos k
    let s1 := match gleanOffset k i s with
      | some o => gleanBlock k o (if granuleWritten o s then upset o sym hard s else s)
      | none => s
    if gleanPlaces ≤ i + 1 then
      .next { s1 with glnPos := smPut 0 s1.glnPos k 0, glnPasses := smMod 0 s1.glnPasses k fun n => min (n + 1) (2 ^ 32 - 1) }
    else .next { s1 with glnPos := smPut 0 s1.glnPos k (i + 1) }

end Sys2Proof.Machine
end

