-- ==== Sys2Proof/Machine/Resets.lean ====
section
/-! DEFINITION. Machine/Resets.lean: context, engine and partition resets and the escalation ladder (R469 to R477), the
selection of a log record (R482), and the defect record's register (R513). -/

namespace Sys2Proof.Machine

/-! ### Removing a context's work (R470) -/

/-- Is the context one of a list? -/
def ringOf (cs : List Nat) (r : Nat) (s : State) : Bool := cs.contains (getR r s).ctx

/-- The kernels of some contexts. -/
def kernelsOf (cs : List Nat) (s : State) : List Nat := (s.kernels.filter fun e => cs.contains e.2.ctx).map (·.1)

/-- A tile number from a key. -/
def tileId (t : Nat) : TileId := ⟨t % 272, Nat.mod_lt _ (by decide)⟩
/-- A walker number. -/
def walkerId (w : Nat) : WalkerId := ⟨w % 16, Nat.mod_lt _ (by decide)⟩
/-- A die number. -/
def dieId (d : Nat) : DieId := ⟨d % 2, Nat.mod_lt _ (by decide)⟩

/-- The tiles that hold work of some contexts: those that run or clear for their kernels, and those halted under them. -/
def tilesWith (cs : List Nat) (s : State) : List Engine :=
  (s.tiles.filter fun e => cs.contains e.2.ctx && (e.2.mode = .halted || e.2.mode = .running || e.2.mode = .clearing) &&
    (match e.2.kern with | some k => (kernelsOf cs s).contains k | none => true)).map fun e => .tile (tileId e.1)

/-- The engines that hold work of some contexts. -/
def enginesWith (cs : List Nat) (s : State) : List Engine :=
  let ks := kernelsOf cs s
  let ws := (s.bindings.filter fun e => ks.contains (e.1 / 1024)).map fun e => e.2.walker
  let ds := (s.chans.filter fun e => ringOf cs ((e.2 - 1) / 2 ^ 32) s).map fun e => e.1 / 8
  let ps := (s.rings.filter fun e => e.2.enable && cs.contains e.2.ctx && !e.2.cmds.isEmpty).map fun e => e.2.die
  tilesWith cs s ++ ((List.range 16).filter ws.contains).map (fun w => .walker (walkerId w)) ++
  ((List.range 2).filter ds.contains).map (fun d => .channels (dieId d)) ++
  (if s.colls.any fun e => cs.contains e.2.ctx && collLive e.2 then [.collective] else []) ++
  ((List.range 2).filter ps.contains).map (fun d => .processor (dieId d))

/-- R470: a tile leaves a removed kernel, and loses a reservation for it. -/
def tileLeave (ks : List Nat) (x : Tile) : Tile :=
  let x := match x.reserved with | some k => if ks.contains k then { x with reserved := none } else x | none => x
  match x.kern with | some k => if ks.contains k then { x with kern := none } else x | none => x

/-- R470: a ring halts, and every command from CONSUMED to PRODUCER is removed. -/
def ringRemove (x : Ring) : Ring :=
  { x with
    halted := true, haltNote := false, late := x.late.filter fun k => k.kind ≠ 2
    cmds := x.cmds.map fun c => { c with st := .done 0x0207 0 0 false false, work := .nothing } }

/-- R463, R470: a request held for its fence has not been sent, and is not sent for removed work. -/
def fencesLeave (cs : List Nat) (ks : List Nat) (s : State) : State :=
  let gone (id : Nat) : Bool := match lookO s.reqs id with
    | none => true
    | some r => match reqCmd r.unit s with
      | some k => ks.contains k || ringOf cs (k / 2 ^ 32) s
      | none => false
  { s with fenced := s.fenced.filter fun id => !gone id
           reqs := s.reqs.filter fun (e : Nat × Req) => !(s.fenced.contains e.1 && gone e.1) }

/-- R470: every unit removes the work of some contexts; their rings halt. -/
def removeWork (cs : List Nat) (s : State) : State :=
  let ks := kernelsOf cs s
  let s := fencesLeave cs ks s
  let s := mapTiles (fun _ x => tileLeave ks x) (ks.foldl (fun s k => stopKernel k false s) s)
  let s := { s with
    bindings := s.bindings.filter fun (e : Nat × Binding) => !ks.contains (e.1 / 1024)
    kernels := s.kernels.filter fun (e : Nat × Kernel) => !ks.contains e.1
    chans := s.chans.filter fun (e : Nat × Nat) => !ringOf cs ((e.2 - 1) / 2 ^ 32) s
    colls := s.colls.filter fun (e : Nat × Coll) => !cs.contains e.2.ctx
    snapQ := s.snapQ.take 1 ++ (s.snapQ.drop 1).filter fun (q : SnapReq) =>
      match q.cmd with | some k => !ringOf cs k.1 s | none => true }
  (s.rings.filter fun (e : Nat × Ring) => e.2.enable && cs.contains e.2.ctx).foldl
    (fun s (e : Nat × Ring) => modR e.1 ringRemove s) s

/-- R470: a context enters RESETTING: the PRODUCER of each of its rings is noted. -/
def ctxResetting (s : State) (c : Nat) : State :=
  let prods := (ctxRings c s).foldl (fun (m : SMap Nat) r => smIns m r (getR r s).producer) []
  modC c (fun x => { x with st := .resetting, resetProd := prods }) s

/-! ### Completion (R472) -/

/-- R472: write requests of a context's units that no acknowledgement has covered. -/
def unackedWrites (c : Nat) (s : State) : Nat :=
  (s.reqs.filter fun (e : Nat × Req) =>
    (match e.2.kind with | .write _ => reqOpen e.2 | _ => false) &&
    (match e.2.unit with
      | .dma t _ _ => (getT t s).ctx = c
      | .command r _ _ _ => (getR r s).ctx = c
      | _ => false)).length

/-- R472: the descriptor of a ring's oldest removed command; free bytes when it cannot be read. -/
def oldestDesc (r : Nat) (s : State) : List Byte × State :=
  match (getR r s).cmds with
  | c :: _ => (c.desc, s)
  | [] =>
    let x := getR r s
    match hbmRead (x.base + x.consumed % 2 ^ x.log2 * 64) 64 (0x280 + x.die) s with
    | (.ok d, s) => (d, s)
    | (.error _, s) => ((List.range 64).map (Config.misread s.freeCtr), tick1 s)

/-- R472: a ring of the context at the end of its reset. -/
def ringReset (s : State) (e : Nat × Nat) : State :=
  let x := getR e.1 s
  let n := (e.2 + 2 ^ 32 - x.consumed) % 2 ^ 32
  let done (s : State) : State :=
    modR e.1 (fun y => { y with cmds := [], next := e.2, consumed := e.2, halted := false, cqFailed := false }) s
  if !x.enable then s
  else if n = 0 then done s
  else
    let d := oldestDesc e.1 s
    lateAdd e.1 ⟨x.consumed, 0x0207, (d.1.headD 0).toNat, 0, false, leNat (sliceB d.1 4 4), n, 0, x.cmds.any (·.started)⟩
      (modR e.1 (fun y => { y with lastStatus := 0x0207 }) (done d.2))

/-- R472: a context's reset completes at a level of the ladder. -/
def ctxResetDone (level : Nat) (s : State) (c : Nat) : State :=
  if (getC c s).st ≠ .resetting then s else
  let un := unackedWrites c s
  let s := (getC c s).resetProd.foldl ringReset s
  let s := modC c (fun x => { x with
    st := .active, faultStatus := 0, lastLevel := level, resets := x.resets + 1, unacked := un, resetProd := [] }) s
  logEv .contextResetDone (some (getC c s).part) (some c) 0 [] (bump Reg.RST_COUNTS_CONTEXT 1 s)

/-- The reset runs that are under way. -/
def setJob (n : Nat) (j : RJob) (s : State) : State := { s with jobs := putO s.jobs n j }
/-- R474: a run starts a step. -/
def setStep (n : Nat) (j : RJob) (s : State) : State := timerSet .ladder n (setJob n j s)

/-- R472, R473: a run whose engines have all reported completes. -/
def jobTry (n : Nat) (s : State) : State :=
  match lookO s.jobs n with
  | none => s
  | some j =>
    if !j.wait.isEmpty || j.stopped then s
    else
      let s := j.ctxs.foldl (ctxResetDone j.step) { s with jobs := smDel s.jobs n }
      if j.isPart || j.step = 3 then
        logEv .partitionReset (some j.part) none 0 [] (bump Reg.RST_COUNTS_PARTITION 1 s)
      else s

/-- A new run of the ladder. -/
def jobStart (j : RJob) (s : State) : State :=
  let n := s.jobSeq
  jobTry n (setStep n j { s with jobSeq := n + 1 })

/-! ### Requests -/

/-- R469, R553: a context reset is requested. -/
def ctxReset (c : Nat) (s : State) : State :=
  if !railsOn s then s
  else match (getC c s).st with
    | .free => bump Reg.RST_REJECTS 1 s
    | .resetting => s
    | _ =>
      let w := enginesWith [c] s
      jobStart ⟨1, (getC c s).part, [c], w, false, false⟩ (removeWork [c] (ctxResetting s c))

/-- CTX_RESET_REQUEST (R469): a write of CTX_RST_CTL.GO, for the context that CTX_SEL named. -/
def execCtxResetRequest (c : CtxId) (s : State) : Ans := .next (heldOr (.ctxResetRequest c) (ctxReset c.val) s)

/-- AUTO_RESET_TIMER (R469, R553): AUTO_MS after the context entered FAULTED. -/
def execAutoResetTimer (c : CtxId) (s : State) : Ans :=
  .next (heldOr (.autoResetTimer c) (fun s =>
    let x := getC c.val s
    if x.st = .faulted ∧ x.autoMs ≠ 0 ∧ timerDue .autoReset c.val (x.autoMs * 1000000) s then ctxReset c.val s else s) s)

/-- R473: the enabled tiles of a partition's tile set. -/
def setTiles (p : Nat) (s : State) : List Engine :=
  ((List.range 272).filter fun t => tileOn t s && tilePart t s = p).map fun t => .tile (tileId t)

/-- R473, R477, R553: a partition reset is requested. It absorbs the runs of the partition's contexts. -/
def partReset (p : Nat) (s : State) : State :=
  if !railsOn s then s
  else
    let old := (s.jobs.filter fun (e : Nat × RJob) => e.2.part = p).map (·.2)
    let live := (s.ctxs.filter fun (e : Nat × Ctx) => e.2.part = p && e.2.st ≠ .free).map (·.1)
    let new := live.filter fun c => (getC c s).st ≠ .resetting
    let w := (enginesWith new s ++ old.flatMap (·.wait) ++ setTiles p s).eraseDups
    let s := removeWork new (new.foldl ctxResetting s)
    let s := { s with
      jobs := s.jobs.filter fun (e : Nat × RJob) => e.2.part ≠ p
      colls := s.colls.filter fun (e : Nat × Coll) => e.2.part ≠ p }
    jobStart ⟨3, p, live, w, true, false⟩ s

/-- PARTITION_RESET_REQUEST (R473): bit `p` of a write of RST_PART_CTL.GO. -/
def execPartitionResetRequest (p : PartId) (s : State) : Ans :=
  .next (heldOr (.partitionResetRequest p) (partReset p.val) s)

/-! ### Engines report -/

/-- R116, R470: a tile clears itself, counted, and returns to IDLE. -/
def tileWipe (t : Nat) (s : State) : State :=
  tileIdle t (bump (tileF t Reg.TILE_CLEAR_COUNT) 1 (modT t (fun x => { tileCleared x with
    mode := .idle, kern := none, prec := 0, waitKind := 0, xfers := [] }) s))

/-- R166, R470: may the engine report? A tile must have halted, or serve another kernel by now. -/
def mayReport (e : Engine) (s : State) : Bool :=
  match e with
  | .tile t => (getT t.val s).mode ≠ .running || (getT t.val s).kern.isSome
  | _ => true

/-- R116, R470, R473: what a tile does before it reports. -/
def reportWork (j : RJob) (e : Engine) (s : State) : State :=
  match e with
  | .tile t =>
    let x := getT t.val s
    if x.kern.isSome then s
    else match x.mode with
      | .halted | .clearing => tileWipe t.val s
      | .idle => if j.step = 3 then tileWipe t.val s else s
      | _ => s
  | _ => s

/-- The run that resets a context. -/
def jobOf (c : Nat) (s : State) : Option (Nat × RJob) := s.jobs.find? fun e => e.2.ctxs.contains c

/-- ENGINE_WORK_REMOVED (R470, R472): engine `e` reports that the work of the resetting context `c` is removed. -/
def execEngineWorkRemoved (c : CtxId) (e : Engine) (s : State) : Ans :=
  .next (heldOr (.engineWorkRemoved c e) (fun s =>
    match jobOf c.val s with
    | none => s
    | some (n, j) =>
      if j.wait.contains e && mayReport e s then
        jobTry n (reportWork j e (setJob n { j with wait := j.wait.filter (· ≠ e) } s))
      else s) s)

/-! ### The ladder (R474 to R476) -/

/-- R475: a command that an engine reset removes fails with CONTEXT_RESET and AUX = 0, and faults its context. -/
def cmdLost (key : Nat) (s : State) : State :=
  finishCmd (key / 2 ^ 32) (key % 2 ^ 32) 0x0207 0 0 true false s

/-- R475: a kernel that an engine reset ends: its tiles stop, and it fails once they have halted. -/
def kernelLost (s : State) (key : Nat) : State :=
  kernelEnd key (stopKernel key false (dropBindings key (modK key (fun k =>
    if k.fault.isNone && k.kvFault.isNone && !k.timedOut then { k with wiped := true } else k) s)))

/-- R474, R475: an engine is returned to its reset state, and the work of every context on it is removed. -/
def engineReset (s : State) (e : Engine) : State :=
  let s := logEv .engineReset none none 0 [] (bump Reg.RST_COUNTS_ENGINE 1 s)
  match e with
  | .tile t =>
    if (getT t.val s).kern.isSome then s
    else modT t.val (fun x => { mode := .halted, ctx := x.ctx, part := x.part }) s
  | .walker w =>
    let ks := ((s.bindings.filter fun (b : Nat × Binding) => b.2.walker = w.val).map fun b => b.1 / 1024).eraseDups
    ks.foldl kernelLost s
  | .channels d => ((s.chans.filter fun (b : Nat × Nat) => b.1 / 8 = d.val).map fun b => b.2 - 1).foldl (fun s k => cmdLost k s) s
  | .collective =>
    let cs := s.colls.filter fun (b : Nat × Coll) => collLive b.2
    cs.foldl (fun s (b : Nat × Coll) => cmdLost (cmdKey b.2.ring b.2.idx) s)
      { s with colls := s.colls.filter fun (b : Nat × Coll) => !collLive b.2 }
  | .processor d =>
    (s.rings.filter fun (b : Nat × Ring) => b.2.enable && b.2.die = d.val).foldl (fun s (b : Nat × Ring) =>
      b.2.cmds.foldl (fun s (k : RCmd) => match k.work with
        | .gather .. | .writes .. | .poll .. => cmdLost (cmdKey b.1 k.idx) s
        | _ => s) s) s

/-- Is the engine a tile of the partition's tile set? -/
def isSetTile (p : Nat) (s : State) : Engine → Bool
  | .tile t => tilePart t.val s = p
  | _ => false

/-- R474, step 3: a tile that has not reported is powered off and on again, and reloads its tile firmware. -/
def tileCycle (s : State) : Engine → State
  | .tile t =>
    if (getT t.val s).kern.isSome then s else modT t.val (fun x => { mode := .halted, ctx := x.ctx, part := x.part }) s
  | _ => s

/-- R474, step 3: the partition reset of a ladder: every other context of the partition is reset too. -/
def ladderPart (n : Nat) (j : RJob) (s : State) : State :=
  let s := j.wait.foldl tileCycle s
  let more := (s.ctxs.filter fun (e : Nat × Ctx) => e.2.part = j.part && (e.2.st = .active || e.2.st = .faulted)).map (·.1)
  let also := (s.jobs.filter fun (e : Nat × RJob) => e.2.part = j.part && e.1 ≠ n).map (·.2)
  let w := (j.wait ++ enginesWith more s ++ also.flatMap (·.wait) ++ setTiles j.part s).eraseDups
  let s := removeWork more (more.foldl ctxResetting s)
  let s := { s with
    jobs := s.jobs.filter fun (e : Nat × RJob) => e.2.part ≠ j.part
    colls := s.colls.filter fun (e : Nat × Coll) => e.2.part ≠ j.part }
  jobTry n (setStep n { j with step := 3, wait := w, ctxs := j.ctxs ++ also.flatMap (·.ctxs) ++ more } s)

/-- R474: the tiles that a step 3 leaves unreported. -/
def lostTiles (j : RJob) : List Nat := j.wait.filterMap fun e => match e with | .tile t => some t.val | _ => none

/-- R474: the next step of a run whose step has exceeded its timeout. -/
def ladderNext (n : Nat) (j : RJob) (s : State) : State :=
  if j.step = 1 then setStep n { j with step := 2 } (j.wait.foldl engineReset s)
  else if j.step = 2 ∧ j.wait.all (isSetTile j.part s) then ladderPart n j s
  else
    let s := if j.step = 3 then { s with ladderTiles := (s.ladderTiles ++ lostTiles j).eraseDups } else s
    moduleReset true 4 s

/-- R474: the timeout of a step of the ladder, in ns. -/
def stepLimit (step : Nat) : Nat :=
  if step = 1 then 10000000 else if step = 2 then 20000000 else if step = 3 then 50000000 else 10000000000

/-- R476: a step exceeds its timeout, and the ladder goes on or stops. -/
def stepTimeout (step : Nat) (part : Option Nat) (go stop : State → State) (s : State) : State :=
  let s := bump Reg.RST_STEP_TIMEOUTS 1 s
  if getB Reg.RST_CFG_AUTO_ESCALATE s then go s
  else stop (logEv .resetStepTimeout part none 0 (arg16 [step]) s)

/-- LADDER_STEP_TIMEOUT (R474, R476, R553): a step of run `job` of the ladder exceeds its timeout; none is step 4. -/
def execLadderStepTimeout (job : Option Nat) (s : State) : Ans :=
  .next (heldOr (.ladderStepTimeout job) (fun s =>
    match job with
    | none =>
      if s.step4 ∧ getF Reg.BOOT_STAT_STATE s ≠ 1 ∧ getF Reg.BOOT_STAT_STATE s ≠ 2 ∧ getF Reg.BOOT_STAT_STATE s ≠ 3 ∧ s.powered ∧
          timerDue .step4 0 (stepLimit 4) s then
        stepTimeout 4 none cycleRequest id { s with step4 := false }
      else s
    | some n =>
      match lookO s.jobs n with
      | none => s
      | some j =>
        if j.stopped || !railsOn s || !timerDue .ladder n (stepLimit j.step) s then s
        else stepTimeout j.step (some j.part) (ladderNext n j) (setJob n { j with stopped := true }) s) s)

/-! ### The log and the defect record -/

/-- LOG_SEL_WRITE (R482): the record is copied in one step. -/
def execLogSelWrite (v : B64) (s : State) : Ans :=
  let s := setF Reg.LOG_SEL v.toNat s
  match lookO s.log v.toNat with
  | some r =>
    if getF Reg.LOG_HEAD s ≤ v.toNat then .next (setF Reg.LOG_STAT_SEL_VALID 1 { s with logSel := recBytes r })
    else .next (setF Reg.LOG_STAT_SEL_VALID 0 { s with logSel := [] })
  | none => .next (setF Reg.LOG_STAT_SEL_VALID 0 { s with logSel := [] })

/-- R503, R513: a change of the defect record by partition 0; a tile above 271 is rejected. -/
def defectCtl (t : Nat) (l : List (Nat × Nat)) (s : State) : State :=
  if 271 < t then setF Reg.FP_DEFECT_STAT_LAST_REJECTED 1 s
  else setF Reg.FP_DEFECT_STAT_LAST_REJECTED 0 (setF Reg.FP_DEFECT_STAT_PENDING 1 (defectSet l s))

/-- FP_DEFECT_ADD (R503, R513): with SOURCE = MANAGEMENT. -/
def execFpDefectAdd (t : Fin 512) (s : State) : Ans := .next (defectCtl t.val (defectAdd t.val 3 s.defects) s)

/-- FP_DEFECT_REMOVE (R513). -/
def execFpDefectRemove (t : Fin 512) (s : State) : Ans :=
  .next (defectCtl t.val (s.defects.filter fun e => e.1 ≠ t.val) s)

end Sys2Proof.Machine
end

