-- ==== Sys2Proof/Machine/Eject.lean ====
section
/-! DEFINITION. Machine/Eject.lean: the eject handshake (R544, R554). -/

namespace Sys2Proof.Machine

/-- Set MGT_EJECT_STAT.STATE, which state sensor 0x0211 shows (R521). -/
def setEject (v : Nat) (s : State) : State :=
  sensorNote 0x0211 v (getF Reg.MGT_EJECT_STAT_STATE s) (setF Reg.MGT_EJECT_STAT_STATE v (timerSet .ejecting 0 s))

/-- R544: has the state in progress lasted DRAIN_S? -/
def drainOver (s : State) : Bool := timerDue .ejecting 0 (getF Reg.MGT_EJECT_CFG_DRAIN_S s * 1000000000) s

/-- R530, R537, R544: does an activation, a staging session or an eject stand in the way of an eject? -/
def ejectRefused (s : State) : Bool :=
  getF Reg.FW_STAT_ACT_STATE s ≠ 0 || s.mgmt.stage.isSome || getF Reg.MGT_EJECT_STAT_STATE s ≠ 0

/-- R544, R554: an eject is requested, by the side-band (1) or by partition 0 (2). -/
def ejectStart (source : Nat) (s : State) : State :=
  if !s.powered || ejectRefused s then s
  else
    logEv .ejectRequested none none 0 (arg16 [0]) (setF Reg.MGT_EJECT_STAT_SOURCE source
      (setEject (if getF Reg.BOOT_STAT_STATE s = 2 then 1 else 2) s))

/-- EJECT_REQUEST (R544): MGT_EJECT_CTL.REQUEST is written 1. -/
def execEjectRequest (s : State) : Ans := .next (heldOr .ejectRequest (ejectStart 2) s)

/-- R544: a link that an eject darkened trains again, on the fast path when its record allows. -/
def ejectTrain (s : State) (l : Nat) : State :=
  if getLF l Reg.LNK_CFG_ENABLE s = 1 ∧ s.mgmt.dark.testBit l then trainOn l true (linkDiscard l s) else s

/-- R544, R554: an eject is cancelled by a source; the side-band's own only by the side-band. -/
def ejectCancel (source : Nat) (s : State) : State :=
  if getF Reg.MGT_EJECT_STAT_STATE s = 0 ∨ (source = 2 ∧ getF Reg.MGT_EJECT_STAT_SOURCE s = 1) then s
  else
    let s := (List.range 6).foldl ejectTrain s
    logEv .ejectCancelled none none 0 (arg16 [0]) (setF Reg.MGT_EJECT_STAT_SOURCE 0
      (setEject 0 { s with mgmt := { s.mgmt with dark := 0 } }))

/-- EJECT_CANCEL (R554): MGT_EJECT_CTL.CANCEL is written 1. -/
def execEjectCancel (s : State) : Ans := .next (heldOr .ejectCancel (ejectCancel 2) s)

/-- Does a ring have a command that runs? -/
def ringBusy (x : Ring) : Bool := x.cmds.any fun c => match c.st with | .running => true | .done .. => false

/-- R544: the contexts that still have work. -/
def busyCtxs (s : State) : List Nat :=
  ((s.rings.filter fun (e : Nat × Ring) => e.2.enable && ringBusy e.2).map fun e => e.2.ctx).eraseDups

/-- EJECT_DRAIN_END (R544): no command runs any more, or DRAIN_S has passed (`expired`) and every context that still has
work is reset. -/
def execEjectDrainEnd (expired : Bool) (s : State) : Ans :=
  .next (heldOr (.ejectDrainEnd expired) (fun s =>
    if getF Reg.MGT_EJECT_STAT_STATE s ≠ 1 ∨ !s.mgmt.up then s
    else if (busyCtxs s).isEmpty then setEject 2 s
    else if expired && drainOver s then setEject 2 ((busyCtxs s).foldl (fun s c => ctxReset c s) s)
    else s) s)

/-- R544: a link's transmit direction is put to sleep, or into LEGACY_IDLE, and its lasers are turned off. -/
def ejectDark (s : State) (l : Nat) : State :=
  if !linkPresent l s then s
  else
    let s :=
      if (getL l s).st ≠ .active ∨ getLF l Reg.LNK_STATE_FALLOW_TX s = 1 then s
      else if getLF l Reg.LNK_STATE_LX7 s = 1 then setLSt l .legacyIdle s
      else backToSleep l (sendGroup l { nullGroup (getL l s) with fallow := true } s)
    { s with mgmt := { s.mgmt with dark := s.mgmt.dark.lor (2 ^ l) } }

/-- EJECT_ROUTES_CLEAR (R544): FAB_EPOCH_STAT reads zero for both versions, and FAB_PASS_BYTES has not changed for 1 ms. -/
def execEjectRoutesClear (s : State) : Ans :=
  .next (heldOr .ejectRoutesClear (fun s =>
    if getF Reg.MGT_EJECT_STAT_STATE s = 2 ∧ s.mgmt.up ∧ inflight 0 s = 0 ∧ inflight 1 s = 0 ∧
        timerDue .passBytes 0 1000000 s then
      (List.range 6).foldl ejectDark s
    else s) s)

/-- R544: is every link dark? -/
def allDark (s : State) : Bool :=
  (List.range 6).all fun l => !linkPresent l s || s.mgmt.dark.testBit l || (getL l s).st = .disabled

/-- EJECT_QUIESCE_END (R544): every link is dark, or a further DRAIN_S has passed. -/
def execEjectQuiesceEnd (expired : Bool) (s : State) : Ans :=
  .next (heldOr (.ejectQuiesceEnd expired) (fun s =>
    if getF Reg.MGT_EJECT_STAT_STATE s = 2 ∧ s.mgmt.up ∧ (allDark s ∨ (expired ∧ drainOver s)) then
      logEv .ejectReady none none 0 (arg16 [0]) (setEject 3 s)
    else s) s)

end Sys2Proof.Machine
end

