-- ==== Sys2Proof/Machine/Eth.lean ====
section
/-! DEFINITION. Machine/Eth.lean: the Ethernet ports (R239 to R241, R285, R497) and the PTP clock (R248 to R250). -/

namespace Sys2Proof.Machine

/-! ### Ports -/

/-- Ethernet port `p`. -/
def getEth (p : Nat) (s : State) : EthPort := smLook {} s.ports p
/-- Change Ethernet port `p`. -/
def modEth (p : Nat) (f : EthPort → EthPort) (s : State) : State := { s with ports := smPut {} s.ports p (f (getEth p s)) }

/-- R6: is the port part of the module? -/
def ethPresent (p : Nat) (s : State) : Bool := (getF Reg.LIC_CAP0_PORTS s).testBit p

/-- The hub die runs: it is powered and has not tripped. -/
def hubOn (s : State) : Bool := s.powered && !s.pwr.hubDown

/-- R493, R495, R497: ports train from step 4 of bring-up on, and not in RECOVERY. -/
def ethMay (s : State) : Bool := hubOn s && 4 ≤ getF Reg.BOOT_STAT_STEP s && getF Reg.BOOT_STAT_STATE s ≠ 5

/-- The UP field of a half. -/
def upF (p : Nat) (b : Bool) : Fld := ethF p (if b then Reg.ETH_STAT_UP_B else Reg.ETH_STAT_UP_A)

/-- Take both of a port's links down. -/
def portDown (p : Nat) (s : State) : State := setB (upF p false) false (setB (upF p true) false s)

/-- ETH_CABLE_INSERTED (R241): a cable is plugged into port `p`; `managed` says that its memory reports retimers, whose
module state code reads `code`. -/
def execEthCableInserted (p : PortId) (managed : Bool) (code : Byte) (s : State) : Ans :=
  .next (setF (ethF p.val Reg.ETH_STAT_CMIS_FAULT) 0 (portDown p.val
    (modEth p.val (fun x => { x with plugged := true, managed := managed, code := if managed then code.toNat else 0 }) s)))

/-- CMIS_ACTIVATION_TIMEOUT (R241): the cable reports a fault, or has not reached the activated data-path state; its state
code reads `code`. -/
def execCmisActivationTimeout (p : PortId) (code : Byte) (s : State) : Ans :=
  let x := getEth p.val s
  .next (if !ethMay s || !ethPresent p.val s || !x.plugged || !x.managed then s
    else
      let s := modEth p.val (fun x => { x with code := code.toNat }) s
      logEv .ethCableFault none none p.val [] (setF (ethF p.val Reg.ETH_STAT_CMIS_FAULT) 1 (portDown p.val s)))

/-- R240: the first link of a port that comes up puts SPLIT and MAX_FRAME into effect. -/
def portLatch (p : Nat) (s : State) : State :=
  if halfUp (2 * p) s || halfUp (2 * p + 1) s then s
  else modEth p (fun x => { x with
    split := getB (ethF p Reg.ETH_CFG_SPLIT) s, maxFrame := getF (ethF p Reg.ETH_CFG_MAX_FRAME) s }) s

/-- ETH_LINK_UP (R240, R241, R497): a port, or half `b` of a split one, has trained. -/
def execEthLinkUp (p : PortId) (b : Bool) (s : State) : Ans :=
  let ok := ethMay s && ethPresent p.val s && (getEth p.val s).plugged && !getB (ethF p.val Reg.ETH_STAT_CMIS_FAULT) s &&
    (!b || getB (ethF p.val Reg.ETH_CFG_SPLIT) s)
  .next (if ok then setB (upF p.val b) true (portLatch p.val s) else s)

/-- ETH_LINK_DOWN (R247): its queue pairs enter the error state as their retries run out. -/
def execEthLinkDown (p : PortId) (b : Bool) (s : State) : Ans := .next (setB (upF p.val b) false s)

/-- R239, R285: in 10 ns a half port that is up receives one codeword at most: it is good, corrected, or not correctable, a
free choice (log entry 17). -/
def fecHalf (s : State) (h : Nat) : State :=
  if halfUp h s then
    match freeNat s % 3 with
    | 1 => tick1 (bump (ethF (h / 2) Reg.ETH_FEC_CORR) 1 s)
    | 2 => tick1 (bump (ethF (h / 2) Reg.ETH_FEC_UNCORR) 1 s)
    | _ => tick1 s
  else s

/-- The codewords that the ports receive in 10 ns. -/
def tickFec (s : State) : State := if hubOn s then (List.range 8).foldl fecHalf s else s

/-- R240, R285: ETH_CFG is written. A change of SPLIT takes the port's links down. -/
def ethCfg (p v : Nat) (s : State) : State :=
  let old := getB (ethF p Reg.ETH_CFG_SPLIT) s
  let put (f : Fld) (s : State) : State := setF (ethF p f) (v / 2 ^ f.lo) s
  let s := put Reg.ETH_CFG_SPLIT (put Reg.ETH_CFG_PFC_EN (put Reg.ETH_CFG_PFC_PRIO (put Reg.ETH_CFG_ECN_EN s)))
  let m := v / 2 ^ 8 % 2 ^ 14
  let s := if 1518 ≤ m ∧ m ≤ 9216 then put Reg.ETH_CFG_MAX_FRAME s else s
  if getB (ethF p Reg.ETH_CFG_SPLIT) s ≠ old then portDown p s else s

/-- ETH_SPLIT_WRITE (R240): ETH_CFG of port `p` is written with `v`. -/
def execEthSplitWrite (p : PortId) (v : B64) (s : State) : Ans :=
  .next (if ethPresent p.val s && hubOn s then ethCfg p.val v.toNat s else s)

/-! ### PTP (R249, R250) -/

/-- Change the PTP clock. -/
def modPtp (f : Ptp → Ptp) (s : State) : State := { s with ptp := f s.ptp }

/-- R249: does a PTP message of transport `tr` and domain `dom` reach the clock? -/
def ptpTaken (tr : Nat) (dom : Byte) (s : State) : Bool :=
  hubOn s && halfUp 0 s && getB (ethF 0 Reg.ETH_PTP_CFG_EN) s && getF (ethF 0 Reg.ETH_PTP_CFG_TRANSPORT) s = tr &&
  getF (ethF 0 Reg.ETH_PTP_CFG_DOMAIN) s = dom.toNat

/-- R249: the timestamp of an event message, within 8 ns of the time base: a free value. -/
def ptpStamp (s : State) : Nat := s.tb + freeNat s % 17 - 8

/-- Both times of a Sync are known: Delay_Req is sent and stamped. -/
def ptpAsk (s : State) : State :=
  emit (.delayReq (portMac 0 false s)) (tick1 (modPtp (fun x => { x with t3 := some (ptpStamp s) }) s))

/-- PTP_ANNOUNCE_RECEIVED (R249): `iv` is its Announce interval in ns. -/
def execPtpAnnounceReceived (tr : Fin 3) (dom : Byte) (iv : Nat) (s : State) : Ans :=
  .next (if ptpTaken tr.val dom s then modPtp (fun x => { x with annAt := some s.tb, annIv := iv }) s else s)

/-- PTP_SYNC_RECEIVED (R249): of a one-step time transmitter it carries the origin time; a two-step one sends it later. -/
def execPtpSyncReceived (tr : Fin 3) (dom : Byte) (origin : Option Nat) (s : State) : Ans :=
  .next (if ptpTaken tr.val dom s then
    let s := tick1 (modPtp (fun x => { x with
      t1 := origin, t2 := some (ptpStamp s), wantFollow := origin.isNone, t3 := none }) s)
    if origin.isSome then ptpAsk s else s
  else s)

/-- PTP_FOLLOW_UP_RECEIVED (R249). -/
def execPtpFollowUpReceived (tr : Fin 3) (dom : Byte) (origin : Nat) (s : State) : Ans :=
  .next (if ptpTaken tr.val dom s && s.ptp.wantFollow then
    ptpAsk (modPtp (fun x => { x with t1 := some origin, wantFollow := false }) s)
  else s)

/-- R250: an offset of PTP time from the time base of `o` ns has been measured: a step forward, or a removal by rate. The
rate that the measurement leaves is a free value within 100 ppm. -/
def ptpCorrect (o : Int) (s : State) : State :=
  let first := !getB Reg.SYS_TIME_STAT_EVER_LOCKED s
  let s := setB Reg.SYS_TIME_STAT_LOCKED true (setB Reg.SYS_TIME_STAT_EVER_LOCKED true s)
  let s := tick1 (modPtp (fun x => { x with rate := (freeNat s % 200001 : Nat) - 100000, slew := 0 }) s)
  if o < 0 then setB Reg.SYS_TIME_STAT_BACKWARD_SLEW true (modPtp (fun x => { x with slew := o * 100000000 }) s)
  else
    let s := setB Reg.SYS_TIME_STAT_BACKWARD_SLEW false s
    if first then { s with tb := s.tb + o.toNat }
    else if 1000000 < o then logEv .timeStep none none 0 [] { s with tb := s.tb + o.toNat }
    else modPtp (fun x => { x with slew := o * 100000000 }) s

/-- PTP_DELAY_RESP_RECEIVED (R250): `t4` is when the time transmitter received Delay_Req. An offset counts while
Announces are valid. -/
def execPtpDelayRespReceived (tr : Fin 3) (dom : Byte) (t4 : Nat) (s : State) : Ans :=
  .next (if ptpTaken tr.val dom s then
    match s.ptp.t1, s.ptp.t2, s.ptp.t3 with
    | some t1, some t2, some t3 =>
      let o : Int := ((t1 : Int) - t2 + (t4 - t3)) / 2
      let s := setF (ethF 0 Reg.ETH_PTP_OFFSET) (o % 2 ^ 64).toNat
        (modPtp (fun x => { x with t1 := none, t2 := none, t3 := none }) s)
      if s.ptp.annAt.isSome then ptpCorrect o s else s
    | _, _, _ => s
  else s)

/-- R249: have three Announce intervals passed without a valid Announce? -/
def ptpSilent (s : State) : Bool :=
  match s.ptp.annAt with
  | some t => t + 3 * s.ptp.annIv ≤ s.tb
  | none => true

/-- PTP_LOCK_LOST (R249): the time base goes on at its last corrected rate. -/
def execPtpLockLost (s : State) : Ans :=
  .next (if s.powered && ptpSilent s then
    setB Reg.SYS_TIME_STAT_LOCKED false (setB Reg.SYS_TIME_STAT_BACKWARD_SLEW false
      (modPtp (fun x => { x with slew := 0, annAt := none, t1 := none, t2 := none, wantFollow := false, t3 := none }) s))
  else s)

end Sys2Proof.Machine
end

