-- ==== Sys2Proof/Machine/Update.lean ====
section
/-! DEFINITION. Machine/Update.lean: the management cores' states (R514, R515) and the activation of a bundle (R537 to
R542). -/

namespace Sys2Proof.Machine

/-! ### The cores -/

/-- Change the management state. -/
def modM (f : Mgmt → Mgmt) (s : State) : State := { s with mgmt := f s.mgmt }

/-- MGT_CORE_STAT.ACTIVE_CORE. -/
def activeCore (s : State) : Nat := getF Reg.MGT_CORE_STAT_ACTIVE_CORE s
/-- The other core. -/
def otherCore (s : State) : Nat := 1 - activeCore s
/-- The field of a core's state. -/
def coreF (c : Nat) : Fld := if c = 0 then Reg.MGT_CORE_STAT_STATE_0 else Reg.MGT_CORE_STAT_STATE_1
/-- The state of a core: 0 = ACTIVE, 1 = STANDBY, 2 = LOADING, 3 = FAILED. -/
def coreState (c : Nat) (s : State) : Nat := getF (coreF c) s
/-- Set it. -/
def setCore (c v : Nat) (s : State) : State := setF (coreF c) v s
/-- The image in a core's bank. -/
def bankOf (c : Nat) (s : State) : Option (Nat × Nat × Nat) := if c = 0 then s.mgmt.bank0 else s.mgmt.bank1
/-- Write it. -/
def setBank (c : Nat) (v : Option (Nat × Nat × Nat)) (s : State) : State :=
  modM (fun m => if c = 0 then { m with bank0 := v } else { m with bank1 := v }) s

/-- R515: write a checkpoint into the alternate buffer. -/
def checkpoint (s : State) : State :=
  let n := (getF Reg.MGT_CKPT_SEQ s + 1) % 2 ^ 32
  let k : Ckpt := ⟨n, s.mgmt.ckFmt, true⟩
  setF Reg.MGT_CKPT_SEQ n (modM (fun m =>
    if m.ckNext then { m with ck1 := k, ckNext := false } else { m with ck0 := k, ckNext := true }) s)

/-- R516: the valid checkpoint with the higher SEQ. -/
def newestCkpt (s : State) : Option Ckpt :=
  let a := s.mgmt.ck0
  let b := s.mgmt.ck1
  if a.valid && b.valid then some (if a.seq < b.seq then b else a)
  else if a.valid then some a
  else if b.valid then some b
  else none

/-! ### Requests -/

/-- Set FW_STAT.ACT_STATE. -/
def setAct (v : Nat) (s : State) : State := setF Reg.FW_STAT_ACT_STATE v s

/-- R537, R542: why an activation is refused: FAIL_CAUSE, or none. The boot ROM serves it in RECOVERY. -/
def actRefusal (cold : Bool) (s : State) : Option Nat :=
  let st := getF Reg.BOOT_STAT_STATE s
  if st ≠ 2 && !(cold && st = 5) then some 1
  else if getF Reg.FW_STAT_ACT_STATE s ≠ 0 || getF Reg.MGT_EJECT_STAT_STATE s ≠ 0 || s.mgmt.stage.isSome then some 2
  else if !cold && coreState (otherCore s) s ≠ 1 then some 3
  else none

/-- R537, R542: an activation is requested. True when it is accepted. -/
def activate (cold : Bool) (s : State) : Bool × State :=
  let s := bump Reg.FW_STAT_ACTIVATIONS 1 s
  match actRefusal cold s with
  | some c => (false, actFail c s)
  | none =>
    let slot := 1 - getF Reg.FW_STAT_ACTIVE_SLOT s
    let s := logEv .firmwareActivationStarted none none 0 (arg16 [0]) s
    if cold then
      (true, setAct 5 (hdrQueue ⟨1 - slot, true, true, slot⟩ .coldReset s))
    else
      (true, setAct 1 (modM (fun m => { m with act := some { slot := slot, cold := false } }) s))

/-- FW_ACTIVATE (R537): FW_ACT_CTL.ACTIVATE is written 1. -/
def execFwActivate (s : State) : Ans := .next (heldOr .fwActivate (fun s => (activate false s).2) s)

/-- FW_ACTIVATE_COLD (R542): ACTIVATE and COLD are written 1. -/
def execFwActivateCold (s : State) : Ans := .next (heldOr .fwActivateCold (fun s => (activate true s).2) s)

/-! ### A live activation, up to COMMIT -/

/-- R537: a failure before COMMIT: every unit keeps its old image, and the standby core's bank is reloaded. -/
def actAbandon (cause : Nat) (s : State) : State :=
  let s := if coreState (otherCore s) s = 3 then s else setCore (otherCore s) 2 s
  actFail cause (setAct 0 (modM (fun m => { m with act := none }) s))

/-- An activation at a phase before COMMIT, with a core to run it. -/
def actAt (phase : Nat) (s : State) : Option Act :=
  match s.mgmt.act with
  | some a => if !a.cold && a.phase = phase && s.mgmt.up && (getF Reg.FW_STAT_ACT_STATE s = 1 || getF Reg.FW_STAT_ACT_STATE s = 2)
      then some a else none
  | none => none

/-- ACTIVATION_VERIFY_DONE (R533, R537): the inactive slot is verified, and its Felmos image lies in the standby core's
bank. -/
def execActivationVerifyDone (s : State) : Ans :=
  .next (heldOr .activationVerifyDone (fun s =>
    match actAt 0 s with
    | none => s
    | some a =>
      let e := bundleCheck a.slot s
      if e ≠ 0 then actAbandon e s
      else setAct 2 (setCore (otherCore s) 2 (setBank (otherCore s) (some (bankImage a.slot s))
        (modM (fun m => { m with act := some { a with phase := 1 } }) s)))) s)

/-- R537: does the image of a slot read a checkpoint format? -/
def ckptReads (slot fmt : Nat) (s : State) : Bool := (bankImage slot s).2.1 ≤ fmt && fmt ≤ (bankImage slot s).2.2

/-- ACTIVATION_BOOT_DONE (R537): the new image has read the newest checkpoint. -/
def execActivationBootDone (s : State) : Ans :=
  .next (heldOr .activationBootDone (fun s =>
    match actAt 1 s with
    | none => s
    | some a =>
      match newestCkpt s with
      | some k =>
        if ckptReads a.slot k.fmt s then modM (fun m => { m with act := some { a with phase := 2 } }) s
        else actAbandon 6 s
      | none => modM (fun m => { m with act := some { a with phase := 2 } }) s) s)

/-- SHADOW_LOAD_DONE (R537): every unit's image is loaded, or a unit failed twice. -/
def execShadowLoadDone (ok : Bool) (s : State) : Ans :=
  .next (heldOr (.shadowLoadDone ok) (fun s =>
    match actAt 2 s with
    | none => s
    | some a => if ok then modM (fun m => { m with act := some { a with phase := 3 } }) s else actAbandon 7 s) s)

/-! ### COMMIT and the trial -/

/-- The register values of the bundle in force. -/
def shownBundle (s : State) : List Nat := getF Reg.FW_BUNDLE s :: (List.range 10).map fun i => getF (fldNth Reg.FW_VER i) s

/-- Show component `i` of a bundle. -/
def showWord (ws : List Nat) (s : State) (i : Nat) : State := setF (fldNth Reg.FW_VER i) (ws.getD (i + 1) 0) s

/-- Mask of the links that are ACTIVE. -/
def activeLinks (s : State) : Nat := (List.range 6).foldl (fun n l => n + bit (lnkActive l s) * 2 ^ l) 0

/-- R537, R538: the new core takes the final checkpoint and becomes ACTIVE; the trial starts. -/
def commitRun (a : Act) (s : State) : State :=
  let s := checkpoint s
  let n := otherCore s
  let old := shownBundle s
  let new := bundleWords (manifest a.slot s)
  let cur := getF Reg.FW_STAT_ACTIVE_SLOT s
  let a := { a with commitAt := s.tb, old := old, oldSlot := cur, links := activeLinks s, resets := getF Reg.RST_COUNTS_ENGINE s }
  let s := setF Reg.MGT_CORE_STAT_ACTIVE_CORE n (setCore n 0 (setCore (1 - n) 1 s))
  let s := setF Reg.FW_TRIAL_BUNDLE (old.getD 0 0) (setF Reg.FW_BUNDLE (new.getD 0 0) ([0, 1].foldl (showWord new) s))
  let s := trialSettings cur a.slot (modM (fun m => { m with act := some a, unitNew := 0, tileNew := 0, linkFail := 0 }) s)
  hdrQueue ⟨cur, false, true, a.slot⟩ .none (setAct 3 s)

/-- ACTIVATION_COMMIT (R537, R538). -/
def execActivationCommit (s : State) : Ans :=
  .next (heldOr .activationCommit (fun s =>
    match actAt 3 s with
    | none => s
    | some a => logEv .firmwareHandoverDone none none 0 (arg16 [0]) (commitRun a s)) s)

/-- R532: the place of a unit's component in the order of the table. -/
def unitWord : FwUnit → Nat
  | .dsp l => 2 + l.val | .hbm => 8 | .power => 9

/-- The bits of every unit other than the tiles. -/
abbrev allUnits : Nat := 0x3FC

/-- R312, R538, R540: the power controller holds the limiter's outputs for one evaluation when it switches, and an optical
engine looks at its settings record. -/
def unitHolds (u : FwUnit) (s : State) : State :=
  match u with
  | .power => modP (fun x => { x with skip := true }) s
  | .dsp l => linkSwapped l.val s
  | .hbm => s

/-- R540: the fallback is complete when every unit is back on its old image. -/
def fallbackTry (s : State) : State :=
  if getF Reg.FW_STAT_ACT_STATE s = 4 ∧ s.mgmt.unitNew = 0 then setAct 0 (modM (fun m => { m with act := none }) s) else s

/-- R555: may a unit report its new version? The HBM controllers cannot while the compute rails are off. -/
def unitRuns (u : FwUnit) (s : State) : Bool := match u with | .hbm => railsOn s | _ => true

/-- UNIT_BANK_SWITCH (R538, R540): a unit switches to its new image in the trial, or back in a fallback. -/
def execUnitBankSwitch (u : FwUnit) (s : State) : Ans :=
  .next (heldOr (.unitBankSwitch u) (fun s =>
    match s.mgmt.act with
    | none => s
    | some a =>
      let i := unitWord u
      let new := s.mgmt.unitNew.testBit i
      let st := getF Reg.FW_STAT_ACT_STATE s
      if a.cold then s
      else if st = 3 ∧ !new ∧ unitRuns u s then
        showWord (bundleWords (manifest a.slot s)) (unitHolds u (modM (fun m => { m with unitNew := m.unitNew.lor (2 ^ i) }) s)) i
      else if st = 4 ∧ new then
        fallbackTry (showWord a.old (unitHolds u (modM (fun m => { m with unitNew := m.unitNew.xor (2 ^ i) }) s)) i)
      else s) s)

/-- TILE_BANK_SWITCH (R538, R540): an IDLE tile switches, before its next kernel's first instruction. -/
def execTileBankSwitch (t : TileId) (s : State) : Ans :=
  .next (heldOr (.tileBankSwitch t) (fun s =>
    let new := s.mgmt.tileNew.testBit t.val
    let trial := getF Reg.FW_STAT_ACT_STATE s = 3
    if (getT t.val s).mode = .idle ∧ new ≠ trial then
      modM (fun m => { m with tileNew := m.tileNew.xor (2 ^ t.val) }) s
    else s) s)

/-! ### Confirmation -/

/-- R541: the components whose settings format differs between two slots. -/
def formatsDiffer (old new : Nat) (s : State) : List Nat :=
  ([0, 2, 3, 4, 5, 6, 7, 8] : List Nat).filter fun c => settingsFormat old c s ≠ settingsFormat new c s

/-- R541: the settings of a component whose format has changed return to their defaults; Felmos's own did at COMMIT. -/
def settingsReset (s : State) (c : Nat) : State :=
  let s :=
    if c = 8 then { s with kept := { s.kept with train := [] } }
    else if 2 ≤ c then linkForget (c - 2) s
    else s
  logEv .settingsReset none none c (arg16 [0]) s

/-- R539, R555: may the new image post HEALTH_CONFIRM? -/
def healthy (a : Act) (s : State) : Bool :=
  getF Reg.FW_STAT_ACT_STATE s = 3 && railsOn s && a.commitAt + 30000000000 ≤ s.tb && s.tb ≤ a.commitAt + 600000000000 &&
  (a.cold || s.mgmt.unitNew = allUnits) && s.mgmt.up && !s.mgmt.missBox && !s.mgmt.missWire &&
  a.links.land s.mgmt.linkFail = 0 && getF Reg.RST_COUNTS_ENGINE s = a.resets &&
  (!getB Reg.FW_CFG_CONFIRM_MODE s || a.confirmed)

/-- R534: raise the security-version counter. -/
def raiseSvn (v : Nat) (s : State) : State :=
  let n := max s.fuse.svn v
  setF Reg.FW_SVN_COUNTER n { s with fuse := { s.fuse with svn := n } }

/-- R539: settings, boot header, SVN, the banks, and the standby core, in this order. -/
def confirmRun (a : Act) (s : State) : State :=
  let s := settingsKeep ((formatsDiffer a.oldSlot a.slot s).foldl settingsReset s)
  let s := hdrQueue ⟨a.slot, false, false, 0⟩ .none s
  let s := raiseSvn (dField (manifest a.slot s) 4 4) s
  let s := modM (fun m => { m with
    act := none, unitNew := 0, tileNew := 0, ckFmt := (bankImage a.slot s).2.2 }) s
  let s := if coreState (otherCore s) s = 3 then s else setCore (otherCore s) 2 s
  setF Reg.FW_STAT_ACTIVE_SLOT a.slot (setF Reg.FW_TRIAL_BUNDLE 0 (setAct 0 s))

/-- HEALTH_CONFIRM (R539). -/
def execHealthConfirm (s : State) : Ans :=
  .next (heldOr .healthConfirm (fun s =>
    match s.mgmt.act with
    | none => s
    | some a => if healthy a s then logEv .firmwareConfirmed none none 0 (arg16 [0]) (confirmRun a s) else s) s)

/-- R539: partition 0 confirms during the trial. -/
def confirmAct (s : State) (a : Act) : Act := { a with confirmed := a.confirmed || getF Reg.FW_STAT_ACT_STATE s = 3 }

/-- FW_CONFIRM (R539): FW_ACT_CTL.CONFIRM is written 1. -/
def execFwConfirm (s : State) : Ans :=
  .next (heldOr .fwConfirm (fun s => modM (fun m => { m with act := m.act.map (confirmAct s) }) s) s)

/-! ### Fallback -/

/-- R540: fall back with a cause. `swap` says that the trial core is still ACTIVE and gives up its role. A cold trial has
no previous image in a bank: the module boots the previous bundle with a warm reset (log entry 43). -/
def fallback (cause : Nat) (swap : Bool) (s : State) : State :=
  match s.mgmt.act with
  | none => s
  | some a =>
    let s := logEv .firmwareFallback none none 0 (arg16 [cause])
      (setF Reg.FW_STAT_FAIL_CAUSE cause (setF Reg.FW_TRIAL_BUNDLE 0 s))
    if a.cold then setAct 4 (hdrQueue ⟨a.oldSlot, false, false, 0⟩ .coldReset s)
    else
      let n := otherCore s
      let s := if swap then setF Reg.MGT_CORE_STAT_ACTIVE_CORE n (setCore n 0 (setCore (1 - n) 2 s)) else s
      let s := setF Reg.FW_CFG_CONFIRM_MODE s.kept.confirmMode (setF Reg.FW_CFG_SERVICE_ACTIVATE s.kept.serviceActivate
        (setF Reg.FW_CFG_SERVICE_WRITE_EN s.kept.serviceWriteEn (setF Reg.MGT_EJECT_CFG_DRAIN_S s.kept.drainS s)))
      let s := setF Reg.FW_BUNDLE (a.old.getD 0 0) ([0, 1].foldl (showWord a.old) s)
      fallbackTry (setAct 4 (hdrQueue ⟨a.oldSlot, false, false, 0⟩ .none s))

/-- FW_ABORT (R540): FW_ACT_CTL.ABORT is written 1 during the trial. -/
def execFwAbort (s : State) : Ans :=
  .next (heldOr .fwAbort (fun s =>
    if getF Reg.FW_STAT_ACT_STATE s = 3 ∧ s.mgmt.up then fallback 11 true s else s) s)

/-- TRIAL_TIMEOUT (R540): 600 s have passed since COMMIT without HEALTH_CONFIRM. -/
def execTrialTimeout (s : State) : Ans :=
  .next (heldOr .trialTimeout (fun s =>
    match s.mgmt.act with
    | some a =>
      if getF Reg.FW_STAT_ACT_STATE s = 3 ∧ s.mgmt.up ∧ a.commitAt + 600000000000 ≤ s.tb then fallback 10 true s else s
    | none => s) s)

end Sys2Proof.Machine
end

