-- ==== Sys2Proof/Machine/Sideband.lean ====
section
/-! DEFINITION. Machine/Sideband.lean: the side-band target (R520 to R525): MCTP, PLDM base, monitoring and control, and
FRU. An answer is a PLDM completion code and the fields that follow it; the numbers of the codes and the order of the
fields are those of DSP0240, DSP0248 and DSP0257, which R520 names (PRESUMED, log entry 44). -/

namespace Sys2Proof.Machine

/-- R523: a request is processed while a core is active, and held otherwise, up to 16 KiB in packets of 64 B. -/
def sbReq (i : Instr) (f : State → State) (s : State) : State :=
  if !s.powered || s.pwr.hubDown then s
  else if s.mgmt.up then heldOr i f s
  else if s.mgmt.sbHeld.length < 256 then modM (fun m => { m with sbHeld := m.sbHeld ++ [i] }) s
  else modM (fun m => { m with sbOver := true }) s

/-- Answer a side-band request. -/
def sbAnswer (rq : Nat) (data : List Byte) (s : State) : State := emit (.pldm rq data) s

/-- A completion code alone. -/
def sbCode (rq code : Nat) (s : State) : State := sbAnswer rq [BitVec.ofNat 8 code] s

/-- A list of byte values. -/
def bytes8 (l : List Nat) : List Byte := l.map (BitVec.ofNat 8)

/-! ### Addresses and PLDM base -/

/-- I3C_ADDRESS_ASSIGN (R520): by SETDASA or ENTDAA; the target itself takes it. -/
def execI3cAddressAssign (addr : BitVec 7) (s : State) : Ans :=
  .next (if !s.powered || s.pwr.hubDown then s
    else setF Reg.MGT_SB_STAT_DYN_ADDR addr.toNat (setF Reg.MGT_SB_STAT_ADDR_VALID 1 s))

/-- MCTP_SET_ENDPOINT_ID (R520). The null and broadcast IDs are invalid data. -/
def execMctpSetEndpointId (rq : Nat) (eid : Byte) (s : State) : Ans :=
  .next (sbReq (.mctpSetEndpointId rq eid) (fun s =>
    if eid = 0 ∨ eid = 255 then sbCode rq 2 s
    else sbAnswer rq [0, 0, eid, 0] (setF Reg.MGT_SB_STAT_EID eid.toNat s)) s)

/-- PLDM_GET_TID (R520). -/
def execPldmGetTid (rq : Nat) (s : State) : Ans :=
  .next (sbReq (.pldmGetTid rq) (fun s => sbAnswer rq (bytes8 [0, s.mgmt.tid]) s) s)

/-- PLDM_SET_TID (R520). The unassigned and reserved IDs are invalid data. -/
def execPldmSetTid (rq : Nat) (tid : Byte) (s : State) : Ans :=
  .next (sbReq (.pldmSetTid rq tid) (fun s =>
    if tid = 0 ∨ tid = 255 then sbCode rq 2 s else sbCode rq 0 (modM (fun m => { m with tid := tid.toNat }) s)) s)

/-- PLDM_GET_PLDM_TYPES (R520): types 0, 2 and 4. -/
def execPldmGetPldmTypes (rq : Nat) (s : State) : Ans :=
  .next (sbReq (.pldmGetPldmTypes rq) (sbAnswer rq (bytes8 [0, 0x15, 0, 0, 0, 0, 0, 0, 0])) s)

/-- PLDM_GET_PLDM_VERSION (R520): DSP0248 v1.2; the spec gives no version of the base and FRU types, whose words are free
values. -/
def execPldmGetPldmVersion (rq : Nat) (typ : Byte) (s : State) : Ans :=
  .next (sbReq (.pldmGetPldmVersion rq typ) (fun s =>
    let go (v : List Byte) (s : State) : State := sbAnswer rq (bytes8 [0, 0, 0, 0, 0, 5] ++ v ++ leBytes 4 (crc32 v)) s
    if typ = 2 then go (bytes8 [0x00, 0xF0, 0xF2, 0xF1]) s
    else if typ = 0 ∨ typ = 4 then go (leBytes 4 (freeNat s)) (tick1 s)
    else sbCode rq 0x83 s) s)

/-- The commands of a PLDM type that the module answers. -/
def pldmCommands (typ : Nat) : List Nat :=
  match typ with
  | 0 => [1, 2, 3, 4, 5]
  | 2 => [0x04, 0x11, 0x21, 0x31, 0x32, 0x39, 0x51]
  | 4 => [2]
  | _ => []

/-- PLDM_GET_PLDM_COMMANDS (R520): a bit for each command. -/
def execPldmGetPldmCommands (rq : Nat) (typ : Byte) (s : State) : Ans :=
  .next (sbReq (.pldmGetPldmCommands rq typ) (fun s =>
    match pldmCommands typ.toNat with
    | [] => sbCode rq 0x83 s
    | l => sbAnswer rq (bytes8 [0] ++ leBytes 32 (l.foldl (fun n c => n + 2 ^ c) 0)) s) s)

/-! ### Objects (R521) -/

/-- The value of a numeric sensor: bytes of its size code and reading. -/
def numericSensor (id : Nat) (s : State) : Option (Nat × List Byte) :=
  if id = 1 then some (2, leBytes 2 (getF Reg.PWR_EST_INPUT_W s))
  else if id = 2 then some (2, leBytes 2 (getF Reg.PWR_EST_INPUT_V s))
  else if id = 3 then some (2, leBytes 2 (getF Reg.PWR_EST_INPUT_A s))
  else if 0x100 ≤ id ∧ id < 0x140 ∧ sensorPresent (id - 0x100) s then some (3, leBytes 2 (effTemp (id - 0x100) s))
  else none

/-- The value of a state sensor. -/
def stateSensor (id : Nat) (s : State) : Option Nat :=
  if 0x200 ≤ id ∧ id < 0x206 then some (lstClass (getL (id - 0x200) s).st)
  else if id = 0x210 then some (getF Reg.BOOT_STAT_STATE s)
  else if id = 0x211 then some (getF Reg.MGT_EJECT_STAT_STATE s)
  else if id = 0x212 then some (getF Reg.CLN_STAT_LEAK_STATE s)
  else none

/-- The value of a numeric effecter. -/
def numericEffecter (id : Nat) (s : State) : Option Nat :=
  if id = 0x300 then some (getF Reg.PWR_CAP_RACK_WATTS s)
  else if id = 0x301 then some (getF Reg.PWR_ORPHAN_ORPHAN_W s)
  else none

/-- R521: the objects, in the order of their descriptor records: PDR type and ID. -/
def sbObjects (s : State) : List (Nat × Nat) :=
  [(2, 1), (2, 2), (2, 3)] ++ ((List.range 60).filter fun n => sensorPresent n s).map (fun n => (2, 0x100 + n)) ++
  (List.range 6).map (fun i => (4, 0x200 + i)) ++ [(4, 0x210), (4, 0x211), (4, 0x212)] ++
  [(9, 0x300), (9, 0x301), (11, 0x310), (11, 0x311), (11, 0x312)]

/-- PLDM_GET_PDR (R520): record `handle` (0 for the first): the common header, the terminus and the object's ID. What
else DSP0248 puts into a record the spec does not give: free bytes. -/
def execPldmGetPdr (rq handle : Nat) (s : State) : Ans :=
  .next (sbReq (.pldmGetPdr rq handle) (fun s =>
    let l := sbObjects s
    let h := max handle 1
    match l[h - 1]? with
    | none => sbCode rq 0x82 s
    | some o =>
      let body := leBytes 2 0 ++ leBytes 2 o.2 ++ (List.range (freeNat s % 256)).map (Config.misread s.freeCtr)
      let pdr := leBytes 4 h ++ bytes8 [1, o.1] ++ leBytes 2 0 ++ leBytes 2 body.length ++ body
      sbAnswer rq (bytes8 [0] ++ leBytes 4 (if h < l.length then h + 1 else 0) ++ leBytes 4 0 ++ bytes8 [5] ++
        leBytes 2 pdr.length ++ pdr) (tick1 s)) s)

/-- PLDM_GET_SENSOR_READING (R521). The threshold states are unknown (0). -/
def execPldmGetSensorReading (rq id : Nat) (s : State) : Ans :=
  .next (sbReq (.pldmGetSensorReading rq id) (fun s =>
    match numericSensor id s with
    | some v => sbAnswer rq (bytes8 [0, v.1, 0, 0, 0, 0, 0] ++ v.2) s
    | none => sbCode rq 0x80 s) s)

/-- PLDM_GET_STATE_SENSOR_READINGS (R521). -/
def execPldmGetStateSensorReadings (rq id : Nat) (s : State) : Ans :=
  .next (sbReq (.pldmGetStateSensorReadings rq id) (fun s =>
    match stateSensor id s with
    | some v => sbAnswer rq (bytes8 [0, 1, 0, v, 0, v]) s
    | none => sbCode rq 0x80 s) s)

/-- PLDM_GET_NUMERIC_EFFECTER_VALUE (R521): pending and present value are the value in the register. -/
def execPldmGetNumericEffecterValue (rq id : Nat) (s : State) : Ans :=
  .next (sbReq (.pldmGetNumericEffecterValue rq id) (fun s =>
    match numericEffecter id s with
    | some v => sbAnswer rq (bytes8 [0, 2, 0] ++ leBytes 2 v ++ leBytes 2 v) s
    | none => sbCode rq 0x80 s) s)

/-- PLDM_SET_EVENT_RECEIVER (R520): the receiver's endpoint, or none. -/
def execPldmSetEventReceiver (rq : Nat) (eid : Option Byte) (s : State) : Ans :=
  .next (sbReq (.pldmSetEventReceiver rq eid) (fun s =>
    sbCode rq 0 (modM (fun m => { m with receiver := eid.map (·.toNat) }) s)) s)

/-- PLDM_GET_FRU_RECORD_TABLE (R520): the serial, the variant and the versions of R532. -/
def execPldmGetFruRecordTable (rq : Nat) (s : State) : Ans :=
  .next (sbReq (.pldmGetFruRecordTable rq) (fun s =>
    let t := leBytes 8 (getF Reg.LIC_SERIAL s) ++ bytes8 [getF Reg.SYS_ID_VARIANT s] ++
      ((shownBundle s).drop 1).flatMap (leBytes 8)
    sbAnswer rq (bytes8 [0] ++ leBytes 4 0 ++ bytes8 [5] ++ t ++ leBytes 4 (crc32 t)) s) s)

/-! ### Effecters (R521, R522) -/

/-- SET_RACK_CAP (R521, R456): effecter 0x0300. Every write is a refresh; 0 removes the cap. -/
def execSetRackCap (rq : Nat) (w : B16) (s : State) : Ans :=
  .next (sbReq (.setRackCap rq w) (fun s =>
    let s := timerSet .refresh 0 (modP (fun x => { x with refreshDue := true, orphanDue := false }) s)
    let s := setF Reg.PWR_CAP_RACK_LOST 0 (setF Reg.PWR_CAP_RACK_ORPHAN 0 s)
    sbCode rq 0 (capWrite .rack (capOfWrite w.toNat true) s)) s)

/-- SET_ORPHAN_CAP (R521): effecter 0x0301; a value outside 900 W to the fused TDP is invalid data. -/
def execSetOrphanCap (rq : Nat) (w : B16) (s : State) : Ans :=
  .next (sbReq (.setOrphanCap rq w) (fun s =>
    if 900 ≤ w.toNat ∧ w.toNat ≤ tdp s then sbCode rq 0 (setF Reg.PWR_ORPHAN_ORPHAN_W w.toNat s) else sbCode rq 2 s) s)

/-- SET_RACK_OFF (R454, R521): effecter 0x0310: 1 turns the rails off (RACK_OFF = 1), 2 clears RACK_OFF. -/
def execSetRackOff (rq : Nat) (v : Byte) (s : State) : Ans :=
  .next (sbReq (.setRackOff rq v) (fun s =>
    if v = 1 then sbCode rq 0 (railsOff 1 (setB Reg.PWR_RAILS_RACK_OFF true s))
    else if v = 2 then sbCode rq 0 (setB Reg.PWR_RAILS_RACK_OFF false s)
    else sbCode rq 0x81 s) s)

/-- SET_LOCATE_LED (R521, R527): effecter 0x0311: off, on or blink. -/
def execSetLocateLed (rq : Nat) (v : Byte) (s : State) : Ans :=
  .next (sbReq (.setLocateLed rq v) (fun s =>
    if 1 ≤ v.toNat ∧ v.toNat ≤ 3 then sbCode rq 0 (modM (fun m => { m with locate := some (v.toNat - 1) }) s)
    else sbCode rq 0x81 s) s)

/-- SIDEBAND_EJECT_REQUEST (R521, R544): effecter 0x0312 with 1. A refused request is answered with the general error
code. -/
def execSidebandEjectRequest (rq : Nat) (s : State) : Ans :=
  .next (sbReq (.sidebandEjectRequest rq) (fun s =>
    if getF Reg.FW_STAT_ACT_STATE s ≠ 0 || s.mgmt.stage.isSome then sbCode rq 1 s else sbCode rq 0 (ejectStart 1 s)) s)

/-- SIDEBAND_EJECT_CANCEL (R521, R554): effecter 0x0312 with 2. -/
def execSidebandEjectCancel (rq : Nat) (s : State) : Ans :=
  .next (sbReq (.sidebandEjectCancel rq) (fun s => sbCode rq 0 (ejectCancel 1 s)) s)

/-! ### The outbox -/

/-- R524: a message is acknowledged and leaves the outbox. -/
def outboxAck (boot fseq : Nat) (s : State) : State :=
  if s.outbox.any fun m => m.boot = boot && m.fseq = fseq then
    let l := s.outbox.filter fun m => !(m.boot = boot && m.fseq = fseq)
    setF Reg.MGT_SB_SEQ_LAST_ACKED (max fseq (getF Reg.MGT_SB_SEQ_LAST_ACKED s))
      (setF Reg.MGT_SB_STAT_OUTBOX_PENDING (min 255 l.length) { s with outbox := l, outboxFull := false })
  else s

/-- PLATFORM_EVENT_ACK (R524): the tray controller's response to a PlatformEventMessage. -/
def execPlatformEventAck (boot fseq : B32) (s : State) : Ans :=
  .next (sbReq (.platformEventAck boot fseq) (outboxAck boot.toNat fseq.toNat) s)

/-- The next state of an answer. -/
def nextOr (s : State) (a : Ans) : State := match a with | .next t => t | _ => s

/-- R523: process a request that was held while no core was active. -/
def sbRun (s : State) (i : Instr) : State :=
  match i with
  | .mctpSetEndpointId rq e => nextOr s (execMctpSetEndpointId rq e s)
  | .pldmGetTid rq => nextOr s (execPldmGetTid rq s)
  | .pldmSetTid rq t => nextOr s (execPldmSetTid rq t s)
  | .pldmGetPldmTypes rq => nextOr s (execPldmGetPldmTypes rq s)
  | .pldmGetPldmVersion rq t => nextOr s (execPldmGetPldmVersion rq t s)
  | .pldmGetPldmCommands rq t => nextOr s (execPldmGetPldmCommands rq t s)
  | .pldmGetPdr rq h => nextOr s (execPldmGetPdr rq h s)
  | .pldmGetSensorReading rq n => nextOr s (execPldmGetSensorReading rq n s)
  | .pldmGetStateSensorReadings rq n => nextOr s (execPldmGetStateSensorReadings rq n s)
  | .pldmGetNumericEffecterValue rq n => nextOr s (execPldmGetNumericEffecterValue rq n s)
  | .pldmSetEventReceiver rq e => nextOr s (execPldmSetEventReceiver rq e s)
  | .pldmGetFruRecordTable rq => nextOr s (execPldmGetFruRecordTable rq s)
  | .setRackCap rq w => nextOr s (execSetRackCap rq w s)
  | .setOrphanCap rq w => nextOr s (execSetOrphanCap rq w s)
  | .setRackOff rq v => nextOr s (execSetRackOff rq v s)
  | .setLocateLed rq v => nextOr s (execSetLocateLed rq v s)
  | .sidebandEjectRequest rq => nextOr s (execSidebandEjectRequest rq s)
  | .sidebandEjectCancel rq => nextOr s (execSidebandEjectCancel rq s)
  | .platformEventAck b f => nextOr s (execPlatformEventAck b f s)
  | _ => s

end Sys2Proof.Machine
end

