-- ==== Sys2Proof/Machine/Felmos.lean ====
section
/-! DEFINITION. Machine/Felmos.lean: heartbeats, checkpoints and switchover (R515 to R519, R526). -/

namespace Sys2Proof.Machine

/-- R516: why a switchover began, in the first ARG field of FELMOS_SWITCHOVER (log entry 45): both paths missed, a fatal
error, no checkpoint (R540). -/
inductive SwCause where
  | paths | fatal | noCheckpoint
  deriving DecidableEq, Repr

/-- Its number. -/
def swCode : SwCause → Nat
  | .paths => 1 | .fatal => 2 | .noCheckpoint => 3

/-- R516, R517, R526: the active core's heartbeat arrives on the paths named. -/
def heartbeat (box wire : Bool) (s : State) : State :=
  let back := (box && s.mgmt.missBox) || (wire && s.mgmt.missWire)
  let s := if box then setF Reg.MGT_HEARTBEAT_COUNT (getF Reg.MGT_HEARTBEAT_COUNT s + 1) (timerSet .boxBeat 0 s) else s
  let s := if wire then timerSet .wireBeat 0 s else s
  let s := modM (fun m => { m with
    missBox := m.missBox && !box, missWire := m.missWire && !wire
    beat := if (box || wire) && !s.pwr.cycle then !m.beat else m.beat }) s
  let s := setB Reg.MGT_CORE_STAT_HB_MAILBOX_OK (!s.mgmt.missBox) (setB Reg.MGT_CORE_STAT_HB_WIRE_OK (!s.mgmt.missWire) s)
  if back then logEv .felmosHbPathRestored none none 0 (arg16 [0]) s else s

/-- FELMOS_HEARTBEAT (R516), every 1 ms ± 50 µs: `box` and `wire` say on which paths it arrives. -/
def execFelmosHeartbeat (box wire : Bool) (s : State) : Ans :=
  .next (heldOr (.felmosHeartbeat box wire) (fun s =>
    if s.mgmt.up then every .heartbeat 0 950000 (heartbeat box wire) s else s) s)

/-- FELMOS_CHECKPOINT (R515), every 10 ms ± 1 ms. -/
def execFelmosCheckpoint (s : State) : Ans :=
  .next (heldOr .felmosCheckpoint (fun s => if s.mgmt.up then every .checkpoint 0 9000000 checkpoint s else s) s)

/-- R516, R519, R537: the watchdog holds the failed core in reset and releases the standby core. The service-port session
drops, and an activation before its COMMIT fails. With no core STANDBY a power cycle is requested. -/
def switchover (c : SwCause) (s : State) : State :=
  let s := if getF Reg.FW_STAT_ACT_STATE s = 1 ∨ getF Reg.FW_STAT_ACT_STATE s = 2 then
      let st := getF Reg.FW_STAT_ACT_STATE s
      let s := actFail 8 (setAct 0 (modM (fun m => { m with act := none }) s))
      if st = 1 then s else setCore (otherCore s) 2 s
    else s
  let s := modM (fun m => { m with
    up := false, gapAt := some s.tb, gapCause := swCode c, missBox := false, missWire := false
    svcLast := none, svcBusy := none, stage := none, licBuf := [] }) s
  let s := setCore (activeCore s) 2 (setF Reg.MGT_CORE_STAT_HB_MAILBOX_OK 0 (setF Reg.MGT_CORE_STAT_HB_WIRE_OK 0 s))
  if coreState (otherCore s) s = 1 then bump Reg.MGT_CORE_STAT_SWITCHOVERS 1 s
  else if s.pwr.cycle then s
  else cycleRequest s

/-- WATCHDOG_PATH_MISS (R516, R517): of the paths named, those that have made no change for 3 ms ± 0.1 ms miss. -/
def execWatchdogPathMiss (box wire : Bool) (s : State) : Ans :=
  .next (heldOr (.watchdogPathMiss box wire) (fun s =>
    let b := s.mgmt.missBox || (box && timerDue .boxBeat 0 2900000 s)
    let w := s.mgmt.missWire || (wire && timerDue .wireBeat 0 2900000 s)
    if !s.mgmt.up ∨ (b = s.mgmt.missBox ∧ w = s.mgmt.missWire) then s
    else if b && w then switchover .paths s
    else
      let s := modM (fun m => { m with missBox := b, missWire := w }) s
      logEv .felmosHbPathLost none none 0 (arg16 [0])
        (setB Reg.MGT_CORE_STAT_HB_MAILBOX_OK (!b) (setB Reg.MGT_CORE_STAT_HB_WIRE_OK (!w) s))) s)

/-- FATAL_ERROR_SIGNAL (R516). -/
def execFatalErrorSignal (s : State) : Ans :=
  .next (heldOr .fatalErrorSignal (fun s => if s.mgmt.up then switchover .fatal s else s) s)

/-- R524: send every message of the outbox again, in FSEQ order. -/
def outboxReplay (s : State) : State :=
  s.outbox.foldl (fun s m => emit (.pldmEvent (outBytes m))
    (setF Reg.MGT_SB_SEQ_LAST_SENT (max m.fseq (getF Reg.MGT_SB_SEQ_LAST_SENT s)) s)) s

/-- R516, R523, R524, R540: the new core is ACTIVE: the outbox is replayed, the switchover is logged, and what was held is
processed. -/
def takeover (found : Bool) (s : State) : State :=
  let n := otherCore s
  let gap := s.tb - s.mgmt.gapAt.getD s.tb
  let cause := if found then s.mgmt.gapCause else swCode .noCheckpoint
  let s := setF Reg.MGT_CORE_STAT_ACTIVE_CORE n (setCore n 0 (setCore (1 - n) 2 s))
  let s := setF Reg.MGT_CORE_STAT_HB_MAILBOX_OK 1 (setF Reg.MGT_CORE_STAT_HB_WIRE_OK 1 s)
  let reqs := s.mgmt.sbHeld
  let overV := s.mgmt.sbOver
  let s := outboxReplay (beatStart (modM (fun m => { m with up := true, gapAt := none, sbHeld := [], sbOver := false }) s))
  let s := logEv .felmosSwitchover none none 0 (arg16 [cause, min 65535 (gap / 1000)]) s
  let s := if overV then logEv .sidebandRxOverflow none none 0 (arg16 [0]) s else s
  let s := if getF Reg.FW_STAT_ACT_STATE s = 3 then fallback 12 false s else s
  let s := if s.pwr.ageHold then ageRun (modP (fun x => { x with ageHold := false }) s) else s
  reqs.foldl sbRun s

/-- STANDBY_TAKEOVER_DONE (R516): the released standby core has loaded the newest checkpoint; `crc0` and `crc1` say which
buffers pass their CRC. -/
def execStandbyTakeoverDone (crc0 crc1 : Bool) (s : State) : Ans :=
  .next (heldOr (.standbyTakeoverDone crc0 crc1) (fun s =>
    if s.mgmt.up ∨ s.mgmt.gapAt.isNone ∨ coreState (otherCore s) s ≠ 1 then s
    else
      let s := modM (fun m => { m with
        ck0 := { m.ck0 with valid := m.ck0.valid && crc0 }, ck1 := { m.ck1 with valid := m.ck1.valid && crc1 } }) s
      takeover (newestCkpt s).isSome s) s)

/-- CORE_SELFTEST_DONE (R518): a core that is LOADING ends its self-test, well or not. Its bank is copied from the active
core's. -/
def execCoreSelftestDone (core : Fin 2) (ok : Bool) (s : State) : Ans :=
  .next (heldOr (.coreSelftestDone core ok) (fun s =>
    let c := core.val
    if !s.mgmt.up ∨ c = activeCore s ∨ coreState c s ≠ 2 ∨ getF Reg.FW_STAT_ACT_STATE s = 2 then s
    else if ok then
      let s := setCore c 1 (setBank c (bankOf (activeCore s) s) s)
      logEv .felmosStandbyReady none none 0 (arg16 [0])
        (modM (fun m => if c = 0 then { m with fails0 := 0 } else { m with fails1 := 0 }) s)
    else
      let n := (if c = 0 then s.mgmt.fails0 else s.mgmt.fails1) + 1
      let s := modM (fun m => if c = 0 then { m with fails0 := n } else { m with fails1 := n }) s
      if n < 2 then s else logEv .felmosCoreFailed none none 0 (arg16 [0]) (setCore c 3 s)) s)

/-- RECOVERY_HEARTBEAT (R526): every 4 ms in RECOVERY. -/
def execRecoveryHeartbeat (s : State) : Ans :=
  .next (if getF Reg.BOOT_STAT_STATE s = 5 ∧ !s.pwr.cycle then every .recovery 0 4000000 (modM (fun m => { m with beat := !m.beat })) s
    else s)

end Sys2Proof.Machine
end

