-- ==== Sys2Proof/Machine/Parts.lean ====
section
/-! DEFINITION. Machine/Parts.lean: enabling and disabling partitions, contexts and rings (R254 to R256, R259, R283,
R284, R356). -/

namespace Sys2Proof.Machine

/-! ### Partitions -/

/-- A rejected configuration write (R254, R259). -/
def cfgReject (s : State) : State := bump Reg.CMD_CFG_REJECTS 1 s

/-- The P_Key of a partition. -/
def pkeyOf (p : Nat) (s : State) : Nat := getF (partF p Reg.PART_CFG_PKEY) s

/-- R254: does another enabled partition among 1 to 7 hold a tile of the set of `p`? -/
def tilesClash (p : Nat) (s : State) : Bool :=
  (List.range 8).any fun q => q ≠ 0 && q ≠ p && partOn q s &&
    (List.range 5).any fun k => (getF (partF p (fldNth Reg.PART_TILES k)) s).land (getF (partF q (fldNth Reg.PART_TILES k)) s) ≠ 0

/-- R254: does another enabled partition have the P_Key? -/
def pkeyClash (p pkey : Nat) (s : State) : Bool := (List.range 8).any fun q => q ≠ p && partOn q s && pkeyOf q s = pkey

/-- Store PKEY and RKEY. -/
def setKeys (p pkey rkey : Nat) (s : State) : State :=
  setF (partF p Reg.PART_CFG_PKEY) pkey (setF (partF p Reg.PART_CFG_RKEY) rkey s)

/-- R254: partition 0's keys: RKEY at any time, PKEY unless an enabled partition has it. -/
def adminKeys (pkey rkey : Nat) (s : State) : State :=
  let s := setF (partF 0 Reg.PART_CFG_RKEY) rkey s
  if pkeyClash 0 pkey s then cfgReject s else setF (partF 0 Reg.PART_CFG_PKEY) pkey s

/-- R356: both dies lose the partition's entries, and its fills in flight are not installed. -/
def rrcPartOff (p : Nat) (s : State) : State := rrcDrop 1 (fun _ q => q = p) (rrcDrop 0 (fun _ q => q = p) s)

/-- R254, R255: PART_CFG is written with ENABLE = 1. What kernels that went on after a disable have brought into the caches is
dropped first (R356). -/
def partEnable (p pkey rkey : Nat) (s : State) : State :=
  if p = 0 then adminKeys pkey rkey s
  else if partOn p s then s
  else
    let s := setKeys p pkey rkey s
    if tilesClash p s || pkeyClash p pkey s then cfgReject s
    else realloc (setB (partF p Reg.PART_CFG_ENABLE) true (rrcPartOff p s))

/-- PART_ENABLE (R254). -/
def execPartEnable (p : PartId) (pkey : B16) (rkey : B32) (s : State) : Ans :=
  .next (heldOr (.partEnable p pkey rkey) (partEnable p.val pkey.toNat rkey.toNat) s)

/-- R254, R255, R356: PART_CFG is written with ENABLE = 0. -/
def partDisable (p pkey rkey : Nat) (s : State) : State :=
  if p = 0 then adminKeys pkey rkey s
  else if partOn p s then realloc (rrcPartOff p (setB (partF p Reg.PART_CFG_ENABLE) false s))
  else setKeys p pkey rkey s

/-- PART_DISABLE (R356). -/
def execPartDisable (p : PartId) (pkey : B16) (rkey : B32) (s : State) : Ans :=
  .next (heldOr (.partDisable p pkey rkey) (partDisable p.val pkey.toNat rkey.toNat) s)

/-! ### Contexts -/

/-- R256, R283: CTX_CFG is written with ENABLE = 1; PARTITION changes only while the context is FREE. -/
def ctxEnable (c part : Nat) (s : State) : State :=
  if (getC c s).st = .free then modC c (fun x => { x with part := part, st := .active, faultStatus := 0 }) s else s

/-- CTX_ENABLE (R283), for the context that CTX_SEL named. -/
def execCtxEnable (c : CtxId) (part : PartId) (s : State) : Ans :=
  .next (heldOr (.ctxEnable c part) (ctxEnable c.val part.val) s)

/-- R256, R283: CTX_CFG is written with ENABLE = 0: accepted when no ring of the context is enabled. -/
def ctxDisable (c part : Nat) (s : State) : State :=
  if (getC c s).st = .free then modC c (fun x => { x with part := part }) s
  else if (ctxRings c s).isEmpty then modC c (fun x => { x with st := .free, faultStatus := 0, resetProd := [] }) s
  else s

/-- CTX_DISABLE (R283). -/
def execCtxDisable (c : CtxId) (part : PartId) (s : State) : Ans :=
  .next (heldOr (.ctxDisable c part) (ctxDisable c.val part.val) s)

/-! ### Rings -/

/-- R283: the fields of CMD_RING_CFG0 but ENABLE: BASE, LOG2_SIZE, ORDER, DIE and CTX. -/
def cfg0Put (v : Nat) (x : Ring) : Ring :=
  { x with
    base := v % 2 ^ 40 / 4096 * 4096, log2 := v / 2 ^ 40 % 32, unordered := v.testBit 45, die := v / 2 ^ 46 % 2
    ctx := v / 2 ^ 48 % 2 ^ 14 }

/-- R259: may the ring be enabled? -/
def ringOk (x : Ring) (s : State) : Bool :=
  6 ≤ x.log2 && x.log2 ≤ 16 && 6 ≤ x.cqLog2 && x.cqLog2 ≤ 16 && hbmBacked x.base (64 * 2 ^ x.log2) s && x.cqAddr % 4096 = 0 &&
  (x.cqHost || (x.cqAddr < hbmEnd && hbmBacked x.cqAddr (32 * 2 ^ x.cqLog2) s)) && (getC x.ctx s).st = .active

/-- R259: a ring as it is enabled: every count is 0. -/
def ringFresh (x : Ring) : Ring :=
  { x with
    enable := true, producer := 0, consumed := 0, cqProduced := 0, cqConsumed := 0, next := 0, cmds := [], late := []
    cqFailed := false, halted := false, haltNote := false, blocked := false, timer := none }

/-- R259: CMD_RING_CFG0 is written with ENABLE = 1. -/
def ringEnable (r v : Nat) (s : State) : State :=
  let x := getR r s
  let y := cfg0Put v x
  if x.enable then (if y = x then s else cfgReject s)
  else if ringOk y s then setR r (ringFresh y) s
  else cfgReject (setR r y s)

/-- RING_ENABLE (R259), for the ring that CMD_RING_SEL named. -/
def execRingEnable (ring : RingId) (v : B64) (s : State) : Ans :=
  .next (heldOr (.ringEnable ring v) (ringEnable ring.val v.toNat) s)

/-- R259: what a HALTED ring still had at work ends without a completion when the ring is disabled. -/
def ringDrop (r : Nat) (s : State) : State :=
  let ks := (s.kernels.filter fun (e : Nat × Kernel) => e.2.ring = r).map (·.1)
  let s := mapTiles (fun _ x => tileLeave ks x) (ks.foldl (fun s k => stopKernel k false s) s)
  { s with
    bindings := s.bindings.filter fun (e : Nat × Binding) => !ks.contains (e.1 / 1024)
    kernels := s.kernels.filter fun (e : Nat × Kernel) => !ks.contains e.1
    chans := s.chans.filter fun (e : Nat × Nat) => (e.2 - 1) / 2 ^ 32 ≠ r
    colls := s.colls.filter fun (e : Nat × Coll) => e.2.ring ≠ r }

/-- A disabled ring. -/
def ringOff (x : Ring) : Ring := { x with enable := false, halted := false, blocked := false, cmds := [], late := [] }

/-- R259: CMD_RING_CFG0 is written with ENABLE = 0: the ring must be IDLE or HALTED, and nothing else may change. -/
def ringDisable (r v : Nat) (s : State) : State :=
  let x := getR r s
  let y := cfg0Put v x
  if !x.enable then setR r y s
  else if y ≠ x then cfgReject s
  else if ringState r s = .idle ∨ ringState r s = .halted then modR r ringOff (ringDrop r s)
  else s

/-- RING_DISABLE (R259). -/
def execRingDisable (ring : RingId) (v : B64) (s : State) : Ans :=
  .next (heldOr (.ringDisable ring v) (ringDisable ring.val v.toNat) s)

end Sys2Proof.Machine
end

