-- ==== Sys2Proof/Machine/Service.lean ====
section
/-! DEFINITION. Machine/Service.lean: the service port (R528 to R530) and the end of configuration-memory operations
(R486, R558). -/

namespace Sys2Proof.Machine

/-- STATUS of an answer (R529). -/
inductive SvcStatus where
  | ok | busy | refused | invalid
  deriving DecidableEq, Repr

/-- Its number. -/
def svcCode : SvcStatus → Nat
  | .ok => 0 | .busy => 1 | .refused => 2 | .invalid => 3

/-- R528: the bytes of an answer: header, payload and CRC-32. -/
def svcBytes (typ req off : Nat) (st : SvcStatus) (payload : List Byte) : List Byte :=
  let m := leBytes 1 typ ++ [0, 0, 0] ++ leBytes 4 req ++ leBytes 4 off ++ leBytes 2 payload.length ++ leBytes 2 (svcCode st) ++
    payload
  m ++ leBytes 4 (crc32 m)

/-- R528: send an answer, and keep it for a repeated request. -/
def svcAnswer (typ req off : Nat) (st : SvcStatus) (payload : List Byte) (s : State) : State :=
  let b := svcBytes typ req off st payload
  emit (.service (serviceMac s) req b) (modM (fun m => { m with svcLast := some (req, b), svcBusy := none }) s)

/-- Is the module in RECOVERY? -/
def inRecovery (s : State) : Bool := getF Reg.BOOT_STAT_STATE s = 5

/-- R528, R530: a request of a type arrives; `crc` says that its CRC is good. In RECOVERY the boot ROM serves requests
0x01 to 0x06, and otherwise Felmos serves. While another request is in progress there is no answer. -/
def svcReq (i : Instr) (typ : Nat) (req : B32) (crc : Bool) (f : State → State) (s : State) : State :=
  if !s.powered || s.pwr.hubDown || !crc || !(s.mgmt.up || inRecovery s) then s
  else heldOr i (fun s =>
    if s.mgmt.svcBusy.isSome then s
    else match s.mgmt.svcLast with
      | some l => if l.1 = req.toNat then emit (.service (serviceMac s) req.toNat l.2) s
        else if inRecovery s ∧ 6 < typ then svcAnswer typ req.toNat 0 .refused [] s else f s
      | none => if inRecovery s ∧ 6 < typ then svcAnswer typ req.toNat 0 .refused [] s else f s) s

/-- R530: are writes refused? -/
def svcReadOnly (s : State) : Bool := !getB Reg.FW_CFG_SERVICE_WRITE_EN s && !inRecovery s

/-- A request that writes: refused while SERVICE_WRITE_EN is 0. -/
def svcWrite (typ req : Nat) (f : State → State) (s : State) : State :=
  if svcReadOnly s then svcAnswer typ req 0 .refused [] s else f s

/-! ### What the port returns -/

/-- The value of some fields of one register. -/
def pack (fs : List Fld) (s : State) : Nat := fs.foldl (fun n f => n + getF f s * 2 ^ f.lo) 0

/-- R546: the seconds left of the trial. -/
def trialLeft (s : State) : Nat :=
  match s.mgmt.act with
  | some a => if getF Reg.FW_STAT_ACT_STATE s = 3 then 600 - (s.tb - a.commitAt) / 1000000000 else 0
  | none => 0

/-- FW_STAT. -/
def fwStat (s : State) : Nat :=
  pack [Reg.FW_STAT_ACTIVE_SLOT, Reg.FW_STAT_ACT_STATE, Reg.FW_STAT_FAIL_CAUSE, Reg.FW_STAT_ACTIVATIONS] s +
  trialLeft s * 2 ^ 16

/-- SYS_ID. -/
def sysId (s : State) : Nat := pack [Reg.SYS_ID_VENDOR, Reg.SYS_ID_PART, Reg.SYS_ID_VARIANT, Reg.SYS_ID_STEPPING] s

/-- BOOT_STAT. -/
def bootStat (s : State) : Nat :=
  pack [Reg.BOOT_STAT_STEP, Reg.BOOT_STAT_STATE, Reg.BOOT_STAT_WARM, Reg.BOOT_STAT_CAUSE, Reg.BOOT_STAT_SLOT,
    Reg.BOOT_STAT_SLOT_FALLBACK, Reg.BOOT_STAT_TOTAL_MS] s

/-- MGT_CORE_STAT. -/
def coreStat (s : State) : Nat :=
  pack [Reg.MGT_CORE_STAT_ACTIVE_CORE, Reg.MGT_CORE_STAT_STATE_0, Reg.MGT_CORE_STAT_STATE_1,
    Reg.MGT_CORE_STAT_HB_MAILBOX_OK, Reg.MGT_CORE_STAT_HB_WIRE_OK, Reg.MGT_CORE_STAT_SWITCHOVERS] s

/-- SVC_IDENTIFY (R529). -/
def execSvcIdentify (req : B32) (crc : Bool) (s : State) : Ans :=
  .next (svcReq (.svcIdentify req crc) 1 req crc (fun s =>
    svcAnswer 1 req.toNat 0 .ok (leBytes 8 (getF Reg.LIC_SERIAL s) ++ leBytes 8 (sysId s) ++ leBytes 8 (bootStat s) ++
      leBytes 8 (fwStat s) ++ ((shownBundle s).drop 1).flatMap (leBytes 8)) s) s)

/-- SVC_STATUS (R529): FW_STAT, MGT_CORE_STAT and the bytes staged. -/
def execSvcStatus (req : B32) (crc : Bool) (s : State) : Ans :=
  .next (svcReq (.svcStatus req crc) 6 req crc (fun s =>
    let n := match s.mgmt.stage with | some g => g.written | none => 0
    svcAnswer 6 req.toNat 0 .ok (leBytes 8 (fwStat s) ++ leBytes 8 (coreStat s) ++ leBytes 4 n) s) s)

/-- SVC_LOG_READ (R529): the record whose SEQ is in OFFSET. -/
def execSvcLogRead (req : B32) (crc : Bool) (off : B32) (s : State) : Ans :=
  .next (svcReq (.svcLogRead req crc off) 7 req crc (fun s =>
    match lookO s.log off.toNat with
    | some r => svcAnswer 7 req.toNat off.toNat .ok (recBytes r) s
    | none => svcAnswer 7 req.toNat off.toNat .invalid [] s) s)

/-! ### Staging -/

/-- R530: is a STAGE_OPEN refused? -/
def stageRefused (slot : Nat) (s : State) : Bool :=
  !inRecovery s && (slot = getF Reg.FW_STAT_ACTIVE_SLOT s || getF Reg.FW_STAT_ACT_STATE s ≠ 0 ||
    getF Reg.MGT_EJECT_STAT_STATE s ≠ 0)

/-- R529: STAGE_OPEN answers BUSY until the erase that it has started is done. -/
def stageOpen (req slot : Nat) (s : State) : State :=
  match s.mgmt.stage with
  | some g =>
    if g.erasing then svcAnswer 2 req 0 .busy [] s
    else if g.slot = slot ∧ g.written = 0 then svcAnswer 2 req 0 .ok [] s
    else svcAnswer 2 req 0 .busy [] (modM (fun m => { m with stage := some ⟨slot, true, 0⟩ })
      (logEv .firmwareStageOpened none none 0 (arg16 [0]) s))
  | none => svcAnswer 2 req 0 .busy [] (modM (fun m => { m with stage := some ⟨slot, true, 0⟩ })
      (logEv .firmwareStageOpened none none 0 (arg16 [0]) s))

/-- SVC_STAGE_OPEN (R529, R530). -/
def execSvcStageOpen (req : B32) (crc : Bool) (slot : Byte) (s : State) : Ans :=
  .next (svcReq (.svcStageOpen req crc slot) 2 req crc (svcWrite 2 req.toNat (fun s =>
    if 2 ≤ slot.toNat then svcAnswer 2 req.toNat 0 .invalid [] s
    else if stageRefused slot.toNat s then svcAnswer 2 req.toNat 0 .refused [] s
    else stageOpen req.toNat slot.toNat s)) s)

/-- STAGE_ERASE_DONE (R529): every byte of the slot reads as erased. -/
def execStageEraseDone (s : State) : Ans :=
  .next (match s.mgmt.stage with
    | some g =>
      if g.erasing then
        timerSet .staging 0 <| modM (fun m => { m with stage := some { g with erasing := false } })
          { s with flash := smClear s.flash (fwSlotBase g.slot) slotSize }
      else s
    | none => s)

/-- Start an operation of the service port, which is answered when it ends. -/
def svcOp (typ req : Nat) (ws : List (Nat × List Byte)) (data : List Byte) (ev : Option Ev) (s : State) : State :=
  cfgPush ⟨5, ws, .answer typ req data ev⟩ (modM (fun m => { m with svcBusy := some (typ, req) }) s)

/-- R528, R531: does a piece lie within a slot, in one message? -/
def pieceOk (off n : Nat) : Bool := n ≤ 1024 && off + n ≤ slotSize

/-- SVC_STAGE_WRITE (R529, R530): into the opened slot. -/
def execSvcStageWrite (req : B32) (crc : Bool) (off : B32) (data : List Byte) (s : State) : Ans :=
  .next (svcReq (.svcStageWrite req crc off data) 3 req crc (svcWrite 3 req.toNat (fun s =>
    match s.mgmt.stage with
    | none => svcAnswer 3 req.toNat off.toNat .refused [] s
    | some g =>
      if g.erasing then svcAnswer 3 req.toNat off.toNat .busy [] s
      else if !pieceOk off.toNat data.length then svcAnswer 3 req.toNat off.toNat .invalid [] s
      else svcOp 3 req.toNat [(fwSlotBase g.slot + off.toNat, data)] [] none
        (timerSet .staging 0 (modM (fun m => { m with stage := some { g with written := g.written + data.length } }) s)))) s)

/-- SVC_STAGE_READ (R529): `len` bytes of either slot. -/
def execSvcStageRead (req : B32) (crc : Bool) (slot : Byte) (off : B32) (len : B16) (s : State) : Ans :=
  .next (svcReq (.svcStageRead req crc slot off len) 4 req crc (fun s =>
    if 2 ≤ slot.toNat || !pieceOk off.toNat len.toNat then svcAnswer 4 req.toNat off.toNat .invalid [] s
    else svcOp 4 req.toNat [] (flashBytes (fwSlotBase slot.toNat + off.toNat) len.toNat s) none s) s)

/-- SVC_ACTIVATE (R529, R530): COLD is FLAGS[0]; cold in RECOVERY. -/
def execSvcActivate (req : B32) (crc cold : Bool) (s : State) : Ans :=
  .next (svcReq (.svcActivate req crc cold) 5 req crc (fun s =>
    if !getB Reg.FW_CFG_SERVICE_ACTIVATE s && !inRecovery s then svcAnswer 5 req.toNat 0 .refused [] s
    else
      let r := activate (cold || inRecovery s) s
      svcAnswer 5 req.toNat 0 (if r.1 then .ok else .refused) [] r.2) s)

/-- STAGING_SESSION_TIMEOUT (R530): 10 s without a STAGE_WRITE. -/
def execStagingSessionTimeout (s : State) : Ans :=
  .next (match s.mgmt.stage with
    | some g => if g.erasing || !timerDue .staging 0 10000000000 s then s else modM (fun m => { m with stage := none }) s
    | none => s)

/-! ### Records -/

/-- SVC_CONFIG_WRITE (R529, R530): copy 0, then copy 1. -/
def execSvcConfigWrite (req : B32) (crc : Bool) (data : List Byte) (s : State) : Ans :=
  .next (svcReq (.svcConfigWrite req crc data) 8 req crc (svcWrite 8 req.toNat (fun s =>
    if data.length ≠ 256 then svcAnswer 8 req.toNat 0 .invalid [] s
    else svcOp 8 req.toNat [(0xC010000, data), (0xC018000, data)] [] (some .configWritten) s)) s)

/-- SVC_LICENCE_WRITE (R529, R530): the next of six parts, to copy 0 and then copy 1. -/
def execSvcLicenceWrite (req : B32) (crc : Bool) (off : B32) (data : List Byte) (s : State) : Ans :=
  .next (svcReq (.svcLicenceWrite req crc off data) 9 req crc (svcWrite 9 req.toNat (fun s =>
    let o := off.toNat
    let have_ := if o = 0 then [] else s.mgmt.licBuf
    if o ≠ have_.length ∨ 5325 ≤ o ∨ data.length ≠ min 1024 (5325 - o) then svcAnswer 9 req.toNat o .invalid [] s
    else svcOp 9 req.toNat [(0xC020000 + o, data), (0xC028000 + o, data)] []
      (if o = 5120 then some .licenceWritten else none) (modM (fun m => { m with licBuf := have_ ++ data }) s))) s)

/-- SVC_REPAIR_ADD (R226, R529): the payload with SOURCE = 3, after the record's entries. -/
def execSvcRepairAdd (req : B32) (crc : Bool) (data : List Byte) (s : State) : Ans :=
  .next (svcReq (.svcRepairAdd req crc data) 10 req crc (svcWrite 10 req.toNat (fun s =>
    let e := leNat data % 2 ^ 48 + 3 * 2 ^ 48
    if data.length ≠ 8 then svcAnswer 10 req.toNat 0 .invalid [] s
    else if 4096 ≤ s.repairRec.length then
      svcAnswer 10 req.toNat 0 .refused [] (logEv .hbmRepairRecordFull none none (e % 8) (leBytes 8 e) s)
    else
      let rs := s.repairRec ++ [e]
      cfgPush ⟨2, [(0x0C030000, repairBytes rs)], .answer 10 req.toNat [] (some .repairRequested)⟩
        (modM (fun m => { m with svcBusy := some (10, req.toNat) })
          (bump Reg.MEM_REPAIR_STAT_QUEUED 1 { s with repairRec := rs })))) s)

/-! ### The end of an operation -/

/-- R529, R530, R542: what follows an operation: the service port's answer with its event, or the warm reset of a cold
activation. -/
def opFollows (ok : Bool) (a : CfgAfter) (s : State) : State :=
  match a with
  | .answer typ req data ev =>
    let s := match ev with
      | some e => if ok then logEv e none none 0 (arg16 [0]) s else s
      | none => s
    if s.mgmt.svcBusy = some (typ, req) then svcAnswer typ req 0 (if ok then .ok else .refused) (if ok then data else []) s
    else s
  | .coldReset => moduleReset true 3 s
  | _ => s

/-- CONFIG_MEMORY_OP_DONE (R486, R558): the operation in progress ends, well or not; the next one starts. -/
def execConfigMemoryOpDone (ok : Bool) (s : State) : Ans :=
  .next (heldOr (.configMemoryOpDone ok) (fun s =>
    match s.cfgQ with
    | [] => s
    | op :: rest =>
      let s := { s with cfgQ := rest }
      if ok then opFollows true op.after (cfgDone op s)
      else opFollows false op.after (if s.mgmt.up then logBoot .configMemoryFault 0 s else s)) s)

end Sys2Proof.Machine
end

