-- ==== Sys2Proof/Machine/Readout.lean ====
section
/-! DEFINITION. Machine/Readout.lean: what a read of a management register returns (R14 to R16, R38). Registers that
show live state are computed from it; the others are stored. -/

namespace Sys2Proof.Machine

/-! ### Stored registers -/

/-- A field's contribution to its register when its row has an element at offset `o` of the block: the row's fields
there, without write-only ones. -/
def rowRead (base o : Nat) (r : RegRow) (s : State) : Nat :=
  let d := o - r.f.off
  let here := r.f.off ≤ o && (if r.stride = 0 then d = 0 else d % r.stride = 0 && d / r.stride < r.count)
  if here && r.acc ≠ .wo then
    (List.range r.lanes).foldl (fun n j =>
      let f : Fld := { fldLane r.f r.lane j with off := base + o }
      n + getF f s * 2 ^ f.lo) 0
  else 0

/-- The stored value of register `o` of block `n` of a kind. -/
def storedRead (b : Blk) (n o : Nat) (s : State) : Nat :=
  (Reg.rows b).foldl (fun a r => a + rowRead (blkBase b n) o r s) 0

/-! ### Live registers -/

/-- R556, R557: SYS_ALERT. -/
def sysAlert (s : State) : Nat :=
  let l := getF Reg.CLN_STAT_LEAK_STATE s
  let t := getB Reg.THM_STAT_TRIPPED s
  bit (l ≠ 0 || t || s.pwr.cycle) + bit (l = 1) * 2 + bit (l = 2 || l = 3) * 4 + bit t * 8 + bit s.pwr.cycle * 16

/-- R527: the row of the status LED. -/
def ledStatus (s : State) : Nat :=
  let st := getF Reg.BOOT_STAT_STATE s
  if !s.powered || getF Reg.MGT_EJECT_STAT_STATE s = 3 then 0
  else if st = 4 || st = 5 || getB Reg.THM_STAT_TRIPPED s || getF Reg.CLN_STAT_LEAK_STATE s = 1 || s.pwr.cycle then 1
  else if st = 1 || (st = 0 && getF Reg.BOOT_STAT_STEP s < 2) then 2
  else if st = 3 then 3
  else if getF Reg.FW_STAT_ACT_STATE s ≠ 0 then 4
  else if st = 0 then 5
  else 6

/-- R527: the blue LED: off, on or blinking. -/
def locateLed (s : State) : Nat :=
  if getF Reg.MGT_EJECT_STAT_STATE s = 3 then 1 else s.mgmt.locate.getD (getF Reg.MGT_LED_LOCATE s)

/-- R283: a register of the ring that CMD_RING_SEL names. -/
def ringRead (o : Nat) (s : State) : Nat :=
  let r := getF Reg.CMD_RING_SEL s
  let x := getR r s
  match o with
  | 0x20008 => x.base + x.log2 * 2 ^ 40 + bit x.unordered * 2 ^ 45 + x.die * 2 ^ 46 + bit x.enable * 2 ^ 47 + x.ctx * 2 ^ 48
  | 0x20010 => x.timeoutMs + x.cqLog2 * 2 ^ 16 + bit x.cqHost * 2 ^ 21 + x.cqQpn * 2 ^ 24
  | 0x20018 => x.cqAddr
  | 0x20020 => x.cqRkey
  | 0x20028 => ringStCode (ringState r s) + x.lastStatus * 2 ^ 16
  | 0x20030 => x.producer + x.consumed * 2 ^ 32
  | _ => x.cqProduced + x.cqConsumed * 2 ^ 32

/-- R256: the code of a context's state. -/
def ctxStCode : CtxSt → Nat
  | .free => 0 | .active => 1 | .faulted => 2 | .resetting => 3

/-- R283, R483: a register of the context that CTX_SEL names. -/
def ctxRead (o : Nat) (s : State) : Nat :=
  let c := getF Reg.CTX_SEL s
  let x := getC c s
  match o with
  | 0x20108 => x.part + bit (x.st ≠ .free) * 8
  | 0x20110 => ctxStCode x.st + x.faultStatus * 2 ^ 16 + (ctxRings c s).length * 2 ^ 32
  | 0x20118 => x.autoMs + bit x.dumpOnFault * 2 ^ 16
  | 0x20120 => x.dumpAddr
  | 0x20130 => x.lastLevel + bit x.dumpFailed * 8 + min x.resets 65535 * 2 ^ 16 + min x.unacked (2 ^ 32 - 1) * 2 ^ 32
  | _ => 0

/-- R483: RST_STAT. -/
def rstStat (s : State) : Nat :=
  let n := (s.ctxs.filter fun (e : Nat × Ctx) => e.2.st = .resetting).length
  let st := getF Reg.BOOT_STAT_STATE s
  let step := if s.pwr.cycle then 5 else if s.step4 && st ≠ 2 && st ≠ 3 then 4
    else s.jobs.foldl (fun a (e : Nat × RJob) => max a e.2.step) 0
  min n 65535 + step * 2 ^ 16

/-- R349: FAB_EPOCH_STAT. -/
def epochStat (s : State) : Nat := min (inflight 0 s) (2 ^ 32 - 1) + min (inflight 1 s) (2 ^ 32 - 1) * 2 ^ 32

/-- R385: COL_GROUP_STAT of the selected group. -/
def groupStat (s : State) : Nat :=
  let g := getF Reg.COL_GROUP_SEL s
  let f := smLook 0 s.groupFail g
  let a := bit (f ≠ 0) * 2 + f * 2 ^ 36
  match lookO s.groups g with
  | some x => a + 1 + x.part * 4 + x.members.length * 2 ^ 8 + x.members.idxOf (ownChip s) * 2 ^ 24
  | none => a

/-- R385, R411: COL_GROUP_HASH of the selected group. -/
def groupHash (s : State) : Nat :=
  match lookO s.groups (getF Reg.COL_GROUP_SEL s) with
  | some x => x.hash + settleWindow x s * 2 ^ 32
  | none => 0

/-- R419: COL_QUOTA and COL_QUOTA_USED. -/
def quotaRead (s : State) : Nat := (List.range 8).foldl (fun n p => n + getF (quotaF p) s * 2 ^ (8 * p)) 0
/-- MiB in use, rounded up. -/
def quotaUsed (s : State) : Nat :=
  (List.range 8).foldl (fun n p => n + (gristUsed p s + 2 ^ 20 - 1) / 2 ^ 20 * 2 ^ (8 * p)) 0

/-- R419: COL_INFLIGHT. -/
def collInflightRead (s : State) : Nat :=
  let x := collInflight s
  x.1 + x.2.1 * 2 ^ 13 + x.2.2 * 2 ^ 26

/-- R458: PWR_FREQ. -/
def pwrFreq (s : State) : Nat :=
  s.clk0.f + s.clk1.f * 2 ^ 16 + s.clk0.duty % 16 * 2 ^ 32 + s.clk1.duty % 16 * 2 ^ 36 + bit (tampOn s) * 2 ^ 40

/-- R459: THM_STAT. -/
def thmStat (s : State) : Nat :=
  hottest 0 16 s + hottest 16 16 s * 2 ^ 12 + hottest 32 8 s * 2 ^ 24 + sensorsFailed s * 2 ^ 36 +
  getF Reg.THM_STAT_MODEL_DIVERGED s * 2 ^ 42 + getF Reg.THM_STAT_HALF_LIMIT s * 2 ^ 43 +
  getF Reg.THM_STAT_TRIPPED s * 2 ^ 44 + bit (loopHolds 0 s) * 2 ^ 45 + bit (loopHolds 1 s) * 2 ^ 46

/-- R459: THM_SENSOR_n. -/
def thmSensor (n : Nat) (s : State) : Nat :=
  if sensorPresent n s then
    let r := getF (thmF n Reg.THM_SENSOR_READING) s
    r + getF (thmF n Reg.THM_SENSOR_MODEL) s * 2 ^ 12 + 2 ^ 24 + getF (thmF n Reg.THM_SENSOR_FAILED) s * 2 ^ 25 +
    bit (effTemp n s ≠ r) * 2 ^ 26
  else 0

/-- R460: CLN_STAT. -/
def clnStat (s : State) : Nat :=
  let ends := [s.pwr.graceEnd, s.pwr.leakEnd].filterMap fun x => x
  let left := match ends with
    | [] => 0
    | t :: ts => (ts.foldl min t - s.tb) / 1000000
  pack [Reg.CLN_STAT_COOLANT_OK, Reg.CLN_STAT_LEAK_STATE, Reg.CLN_STAT_INLET_HIGH, Reg.CLN_STAT_INLET_SEVERE,
    Reg.CLN_STAT_INLET_LOW, Reg.CLN_STAT_EXCESS_RISE, Reg.CLN_STAT_LOOP_OHMS, Reg.CLN_STAT_EXCESS_RATE] s +
  bit (!ends.isEmpty) * 2 ^ 7 + min left 65535 * 2 ^ 8

/-- R237: MEM_GLN_STAT. -/
def glnStat (s : State) : Nat :=
  let ks := (List.range 8).filter fun k => (stacksPresent s).testBit k
  let pc (k : Nat) : Nat := smLook 0 s.glnPos k * 100 / gleanPlaces
  let prog := match ks with
    | [] => 0
    | k :: l => l.foldl (fun n k => min n (pc k)) (pc k)
  glnPassesMin s % 2 ^ 32 + prog * 2 ^ 32

/-- R221, R237: MEM_GLN_PAGE_DATA. -/
def glnPage (s : State) : Nat :=
  let n := smLook 0 s.pageCount (getF Reg.MEM_GLN_PAGE_SEL s)
  min n 65535 + bit (getF Reg.MEM_GLN_CTL_PAGE_THRESH s ≤ n) * 2 ^ 16

/-- R197, R198: has a walker requests outstanding for bindings that it has dropped? -/
def walkerStopping (w : Nat) (s : State) : Bool :=
  s.reqs.any fun e => match e.2.unit with
    | .walker v key _ _ => v = w && (getB' key s).isNone
    | _ => false

/-- R198: KVW_STATUS. A walker is STOPPING while a response for a binding that it has dropped is still to come (DEDUCED, log
entry 62). -/
def kvwStatus (w : Nat) (s : State) : Nat :=
  let bs := activeOf w s
  let st := if walkerStopping w s then 3 else if bs.isEmpty then 0 else if bs.all fun e => e.2.blocked then 2 else 1
  st + 4 + bs.length * 2 ^ 8

/-- R237: MEM_STK_STATE. -/
def stkState (k : Nat) (s : State) : Nat :=
  let on := (stacksPresent s).testBit k
  if on then
    1 + bit (!(getF Reg.MEM_STATUS_STACKS_FAILED s).testBit k) * 2 + smLook 0 s.spareRows k * 2 ^ 16 +
    smLook 0 s.spareCols k * 2 ^ 32
  else 0

/-- R321: LNK_STATE. -/
def lnkState (l : Nat) (s : State) : Nat :=
  lstCode (getL l s).st + (storedRead .lnk l 8 s) / 16 * 16

/-- R321: a lane register of the selected lane. The eye margin is measured on a lane with lock: a free value. -/
def lnkLane (l o : Nat) (s : State) : Nat :=
  let n := getLF l Reg.LNK_LANE_SEL s
  let x := getL l s
  match o with
  | 0x208 => if x.locked.testBit n then 1 + freeNat s % 256 * 2 ^ 8 else 0
  | 0x210 => smLook 0 x.laneCorr n
  | _ => smLook 0 x.prbs n % 2 ^ 32

/-- R284: PART_STAT. -/
def partStat (p : Nat) (s : State) : Nat :=
  storedRead .part p 0x80 s % 2 +
  (s.ctxs.filter fun (e : Nat × Ctx) => e.2.part = p && (e.2.st = .active || e.2.st = .faulted)).length * 2 ^ 16

/-- R285: ETH_STAT. The cable is detected, and its state code read, while the hub die runs. -/
def ethStat (p : Nat) (s : State) : Nat :=
  let x := smLook {} s.ports p
  let on := bit (x.plugged && s.powered && !s.pwr.hubDown)
  pack ([Reg.ETH_STAT_UP_A, Reg.ETH_STAT_UP_B, Reg.ETH_STAT_CMIS_FAULT].map fun f => ethF p f) s + on * 4 + on * x.code * 2 ^ 8

/-- The registers outside the repeated blocks that show live state. -/
def globLive (o : Nat) (s : State) : Option Nat :=
  if 0x20008 ≤ o ∧ o ≤ 0x20038 then some (ringRead o s)
  else if 0x20108 ≤ o ∧ o ≤ 0x20130 then some (ctxRead o s)
  else if 0x3040 ≤ o ∧ o < 0x3080 then some (dField s.logSel (o - 0x3040) 8)
  else if 0x11100 ≤ o ∧ o < 0x11300 then some (thmSensor ((o - 0x11100) / 8) s)
  else match o with
    | 0x10 => some (stampVal .mgmt s)
    | 0x48 => some (sysAlert s)
    | 0x1800 => some (fwStat s)
    | 0x2028 => some (getF Reg.MGT_LED_LOCATE s + ledStatus s * 4)
    | 0x10030 => some (reasons s)
    | 0x100A0 => some (pwrFreq s)
    | 0x11008 => some (thmStat s)
    | 0x12000 => some (clnStat s)
    | 0x20308 => some (rstStat s)
    | 0x50018 => some (epochStat s)
    | 0x50028 => some (rtRead s)
    | 0x60018 => some (groupStat s)
    | 0x60020 => some (groupHash s)
    | 0x60100 => some (quotaRead s)
    | 0x60108 => some (quotaUsed s)
    | 0x60120 => some (collInflightRead s)
    | 0x70208 => some (glnStat s)
    | 0x70220 => some (glnPage s)
    | _ => none

/-- Is the unit of a block part of the module as it stands? Registers of an absent one read zero and take no writes
(R6, R38). -/
def blkPresent (b : Blk) (n : Nat) (s : State) : Bool :=
  match b with
  | .tile => tileOn n s
  | .lnk => linkPresent n s
  | .eth => (getF Reg.LIC_CAP0_PORTS s).testBit n
  | .stk => (stacksPresent s).testBit n
  | .kvw => (getF Reg.FP_COUNT_WALKERS s).testBit n
  | _ => true

/-- The value of register `o` of block `n` of a kind. -/
def blkRead (b : Blk) (n o : Nat) (s : State) : Nat :=
  if !blkPresent b n s then 0
  else match b with
    | .tile => match tileLive n o s with | some v => v | none => storedRead b n o s
    | .kvw => if o = 0 then kvwStatus n s else storedRead b n o s
    | .stk => if o = 0 then stkState n s else storedRead b n o s
    | .lnk => if o = 8 then lnkState n s else if 0x208 ≤ o ∧ o ≤ 0x218 then lnkLane n o s else storedRead b n o s
    | .part => if o = 0x80 then partStat n s else if n = 0 ∧ o = 0 then storedRead b n o s / 2 * 2 + 1 else storedRead b n o s
    | .eth => if 0x100 ≤ o ∧ n ≠ 0 then 0 else if o = 8 then ethStat n s else storedRead b n o s
    | .glob => match globLive o s with | some v => v | none => storedRead b n o s
    | .rrc => storedRead b n o s

/-- R14 to R16: the value of the register at an 8-byte-aligned offset of the register space. -/
def readReg (off : Nat) (s : State) : Nat :=
  match locate off with
  | some (b, n, o) => blkRead b n o s
  | none => 0

/-- R20, R251: a read of SYS_TIME is a timestamp of the management domain: no later one is below it. -/
def readNote (off : Nat) (s : State) : State := if off = 0x10 then stampUse .mgmt s else s

end Sys2Proof.Machine
end

