-- ==== Sys2Proof/Machine/Snap.lean ====
section
/-! DEFINITION. Machine/Snap.lean: snapshots (R279 to R282), up to the end of the freeze, which Machine/Freeze.lean
gives. -/

namespace Sys2Proof.Machine

/-- The size of a snapshot. -/
abbrev snapSize : Nat := 16384

/-! ### The image (R281) -/

/-- Registers from `o`, `n` of them. -/
def regBytes (o n : Nat) (s : State) : List Byte := (List.range n).flatMap fun i => leBytes 8 (readReg (o + 8 * i) s)

/-- Pad to a length with zeros. -/
def padTo (n : Nat) (l : List Byte) : List Byte := l ++ List.replicate (n - l.length) 0

/-- R279: does a snapshot of a partition show what belongs to partition `q`? -/
def snapShows (part q : Nat) : Bool := part = 0 || q = part

/-- The rings that are listed, before the list is cut. -/
def snapRings (part : Nat) (s : State) : List Nat :=
  (s.rings.filter fun (e : Nat × Ring) =>
    snapShows part (ringPart e.1 s) && ringState e.1 s ≠ .disabled && ringState e.1 s ≠ .idle).map (·.1)

/-- One ring of the list. -/
def snapRing (s : State) (r : Nat) : List Byte :=
  let x := getR r s
  leBytes 8 (r + ringStCode (ringState r s) * 2 ^ 18 + x.ctx * 2 ^ 21 + x.lastStatus * 2 ^ 48) ++ leBytes 4 x.producer ++
  leBytes 4 x.consumed

/-- Two bits of a context's state. -/
def snapCtx (part c : Nat) (s : State) : Nat :=
  let x := getC c s
  if snapShows part x.part then ctxStCode x.st else 0

/-- The context states. -/
def snapCtxs (part : Nat) (s : State) : List Byte :=
  (List.range 4096).map fun i => BitVec.ofNat 8
    ((List.range 4).foldl (fun n j => n + snapCtx part (4 * i + j) s * 4 ^ j) 0)

/-- The newest log record. -/
def snapRec (part : Nat) (s : State) : List Byte :=
  match lookO s.log (getF Reg.LOG_TAIL s - 1) with
  | some r =>
    match r.part with
    | some q => if snapShows part q then recBytes r else []
    | none => recBytes r
  | none => []

/-- One partition's entry. -/
def snapPart (part : Nat) (s : State) (q : Nat) : List Byte :=
  padTo 64 (if snapShows part q then regBytes (0x2E000 + q * 0x100) 1 s ++ regBytes (0x2E080 + q * 0x100) 1 s ++
    regBytes (0x10200 + 8 * q) 1 s else [])

/-- R281: the snapshot, but for the length of its freeze in bytes 24 to 27. -/
def snapBytes (part : Nat) (s : State) : List Byte :=
  let rs := snapRings part s
  let masked := bit (part ≠ 0)
  padTo 64 (leBytes 2 1 ++ leBytes 1 part ++ leBytes 1 (masked + bit (640 < rs.length) * 2) ++ leBytes 4 (min 640 rs.length) ++
    leBytes 8 (getF Reg.SYS_SNAP_EPOCH s) ++ leBytes 8 s.tb) ++
  padTo 192 (regBytes 0 2 s ++ regBytes 0x13E0 4 s ++ regBytes 0x1828 10 s) ++
  ((List.range 8).flatMap (snapPart part s)) ++
  regBytes 0x10000 32 s ++
  padTo 256 ((List.range 6).flatMap fun l => padTo 32 (regBytes (0x40008 + l * 0x1000) 1 s ++ regBytes 0x50010 1 s)) ++
  ((List.range 4).flatMap fun p => padTo 32 (regBytes (0x30008 + p * 0x1000) 1 s ++ regBytes (0x30018 + p * 0x1000) 1 s ++
    if p = 0 then regBytes 0x18 1 s else [])) ++
  ((List.range 8).flatMap fun k => regBytes (0x71008 + k * 0x100) 1 s ++ regBytes (0x71018 + k * 0x100) 1 s) ++
  padTo 512 (regBytes 0x3000 2 s ++ snapRec part s) ++
  snapCtxs part s ++
  padTo 10240 ((rs.take 640).flatMap (snapRing s))

/-! ### Requests -/

/-- R280: a snapshot is taken: a new epoch, and the state that it records is frozen. -/
def snapServe (s : State) : State :=
  match s.snapQ with
  | [] => setF Reg.SYS_SNAP_CTL_BUSY 0 s
  | q :: _ =>
    let s := setF Reg.SYS_SNAP_EPOCH (getF Reg.SYS_SNAP_EPOCH s + 1) (setF Reg.SYS_SNAP_CTL_BUSY 1 s)
    let s := setF Reg.PWR_THROTTLE_REASONS (reasons s) s
    { s with frozen := true, snapImage := snapBytes q.part s }

/-- R279: a request joins the queue. -/
def snapAsk (q : SnapReq) (s : State) : State :=
  let idle := s.snapQ.isEmpty
  let s := { s with snapQ := s.snapQ ++ [q] }
  if idle then snapServe s else s

/-- R266: a DEST that breaks the layout: alignment, this module, backed HBM. -/
def snapDestBad (g : Nat) (s : State) : Bool :=
  g % 64 ≠ 0 || 2 ^ 55 ≤ g || gChip g ≠ ownChip s || hbmEnd ≤ gOff g || !hbmBacked (gOff g) snapSize s

/-- CMD_SYS_SNAPSHOT (R266, R279). -/
def execCmdSysSnapshot (ring : RingId) (s : State) : Ans :=
  .next (startCmd 9 ring.val (fun d s =>
      orElse (badLayout (snapDestBad (dField d 8 8) s || !dZero d 16 48))
        (noAccess (ringPart ring.val s) (dField d 8 8) snapSize true s))
    (fun i d s => snapAsk ⟨ringPart ring.val s, gOff (dField d 8 8), some (ring.val, i)⟩
      (modCmd ring.val i (fun c => { c with started := true }) (setWork ring.val i .elsewhere s))) s)

/-- R279, R282: the register path; a refused DEST sets FAILED. -/
def snapGo (s : State) : State :=
  let d := getF Reg.SYS_SNAP_DEST s
  if snapDestBad d s then setF Reg.SYS_SNAP_CTL_FAILED 1 s
  else snapAsk ⟨0, gOff d, none⟩ (setF Reg.SYS_SNAP_CTL_FAILED 0 s)

/-- SYS_SNAP_GO (R279, R282). -/
def execSysSnapGo (s : State) : Ans := .next (if s.powered && !s.pwr.hubDown then snapGo s else s)

/-- SNAPSHOT_WRITE_DONE (R279, R280): the 16 KiB are visible at DEST, once the writes of earlier commands of an ORDERED ring are (R270);
the next request is served. -/
def execSnapshotWriteDone (s : State) : Ans :=
  .next (match s.snapQ with
    | [] => s
    | q :: rest =>
      if s.frozen || (match q.cmd with | some k => orderBehind k.1 k.2 (ownChip s) s | none => false) then s
      else
        let w := hbmWrite q.dest s.snapImage (freeNat s) (tick1 s)
        let s := { w.2 with snapQ := rest, snapImage := [] }
        let s := match q.cmd with
          | some k => match w.1 with
            | none => finishCmd k.1 k.2 0 0 0 false false s
            | some b => finishCmd k.1 k.2 0x0202 0 (ownGlobal b s) true false s
          | none => s
        snapServe s)

end Sys2Proof.Machine
end

