-- ==== Sys2Proof/Machine/WriteReg.lean ====
section
/-! DEFINITION. Machine/WriteReg.lean: writes of the management registers (R14 to R16, R38) by partition 0. A register
whose write has a meaning of its own is written through that meaning. -/

namespace Sys2Proof.Machine

/-! ### Parts of a written value -/

/-- The value that a write gives a field. -/
def wGet (f : Fld) (v : Nat) : Nat := bitsOf v f.lo f.w
/-- Store a field of a written value. -/
def wPut (f : Fld) (v : Nat) (s : State) : State := setF f (wGet f v) s
/-- Store a field of a written value when it lies in its range; otherwise the field is unchanged. -/
def wPutIn (f : Fld) (lo hi v : Nat) (s : State) : State := if lo ≤ wGet f v ∧ wGet f v ≤ hi then wPut f v s else s
/-- Act when bit `n` of the written value is 1. -/
def wGo (n v : Nat) (f : State → State) (s : State) : State := if v.testBit n then f s else s
/-- A number below `k`. -/
def fin (k : Nat) [NeZero k] (n : Nat) : Fin k := Fin.ofNat k n

/-! ### Blocks -/

/-- R84, R124, R235: the tile's registers that can be written. -/
def writeTile (t o v : Nat) (s : State) : State :=
  match o with
  | 0x080 => wGo 0 v (fun s => nextOr s (execTileCtrClear (fin 272 t) s)) s
  | 0x648 => wGo 0 v (fun s => nextOr s (execTilePrecClear (fin 272 t) s)) s
  | 0x720 => wGo 0 v (fun s => nextOr s (execTileSpClear (fin 272 t) s)) s
  | _ => s

/-- R237: MEM_RRC_CTL and MEM_RRC_CLEAR of a die. -/
def writeRrc (d o v : Nat) (s : State) : State :=
  match o with
  | 0x0 =>
    let s := wGo 1 v (fun s => nextOr s (execMemRrcInvalidate (fin 2 d) s)) s
    if v.testBit 0 then nextOr s (execMemRrcBypass (fin 2 d) s) else setB (rrcF d Reg.MEM_RRC_CTL_BYPASS) false s
  | 0x30 => wGo 0 v (fun s => nextOr s (execMemRrcClear (fin 2 d) s)) s
  | _ => s

/-- R254, R284: a register of partition `p`. Of partition 0 only PKEY, RKEY and PART_NOTIFY are written; the
tile set of an enabled partition does not change. -/
def writePart (p o v : Nat) (s : State) : State :=
  if o = 0x0 then
    (if v.testBit 0 then partEnable else partDisable) p (bitsOf v 16 16) (bitsOf v 32 32) s
  else if o = 0x30 then wPut (partF p Reg.PART_NOTIFY_QPN) v s
  else if p = 0 then s
  else if o = 0x38 then wPut (partF p Reg.PART_CFG2_DSCP) v s
  else if 0x8 ≤ o ∧ o ≤ 0x28 then
    if partOn p s then s
    else setF (partF p (fldNth Reg.PART_TILES ((o - 8) / 8))) (if o = 0x28 then v % 2 ^ 16 else v) s
  else if 0x40 ≤ o ∧ o < 0x80 then
    let at_ (f : Fld) : Fld := partF p { f with off := f.off + (o - 0x40) / 16 * 16 }
    if o % 16 = 0 then
      setF (at_ Reg.PART_WIN_BASE_OFFSET) (v % 2 ^ 40 / 4096 * 4096) (wPut (at_ Reg.PART_WIN_BASE_RD) v
        (wPut (at_ Reg.PART_WIN_BASE_WR) v s))
    else wPut (at_ Reg.PART_WIN_LIMIT) v s
  else s

/-- R285: a register of Ethernet port `p`. -/
def writeEth (p o v : Nat) (s : State) : State :=
  if o = 0x0 then ethCfg p v s
  else if o = 0x100 ∧ p = 0 then
    wPutIn (ethF 0 Reg.ETH_PTP_CFG_TRANSPORT) 0 2 v (wPut (ethF 0 Reg.ETH_PTP_CFG_EN) v (wPut (ethF 0 Reg.ETH_PTP_CFG_DOMAIN) v s))
  else s

/-- R320, R321: LNK_CFG. A far loop ends when ALLOW_FAR is cleared. -/
def lnkCfg (l v : Nat) (s : State) : State :=
  let f (x : Fld) : Fld := lnkF l x
  let s := wPutIn (f Reg.LNK_CFG_PARTNER) 0 2 v (wPut (f Reg.LNK_CFG_FAST) v (wPut (f Reg.LNK_CFG_FALLOW_EN) v
    (wPut (f Reg.LNK_CFG_ALLOW_FAR) v (wPutIn (f Reg.LNK_CFG_IDLE_NS) 1000 1000000 v
      (wPutIn (f Reg.LNK_CFG_RETRAIN_THRESH) 1 255 v s)))))
  let s := if (getL l s).farLoop && (getL l s).st = .test && !v.testBit 5 then endTest l s else s
  if v.testBit 0 then nextOr s (execLinkEnable (fin 6 l) s)
  else if getLF l Reg.LNK_CFG_ENABLE s = 1 then nextOr s (execLinkDisable (fin 6 l) s) else s

/-- R321: a register of link `l`. -/
def writeLnk (l o v : Nat) (s : State) : State :=
  let n := fin 6 l
  match o with
  | 0x0 => lnkCfg l v s
  | 0x10 =>
    wGo 4 v (fun s => nextOr s (execLnkForget n s)) (wGo 3 v (fun s => nextOr s (execLnkRetry n s))
      (wGo 2 v (fun s => nextOr s (execLnkWake n s)) (wGo 1 v (fun s => nextOr s (execLnkSave n s))
        (wGo 0 v (fun s => nextOr s (execLnkRetrain n s)) s))))
  | 0x160 => wGo 0 v (fun s => nextOr s (execLnkCtrClear n s)) s
  | 0x200 => wPutIn (lnkF l Reg.LNK_LANE_SEL) 0 23 v s
  | 0x300 => nextOr s (execLnkTestCtlWrite n (BitVec.ofNat 64 v) s)
  | _ => s

/-! ### The rest of the space -/

/-- R39, R282, R483, R513, R531, R547: SYS, BOOT, FW, LIC, MGT and LOG. -/
def writeSys (o v : Nat) (s : State) : State :=
  match o with
  | 0x20 => wPut Reg.SYS_SNAP_DEST v s
  | 0x28 => wGo 0 v (fun s => nextOr s (execSysSnapGo s)) s
  | 0x38 =>
    let s := if v.testBit 0 then nextOr s (execSysResetModule s) else wGo 1 v (fun s => nextOr s (execSysResetWarm s)) s
    wGo 2 v (fun s => nextOr s (execSysResetPowerCycle s)) s
  | 0x1400 =>
    if v.testBit 9 && v.testBit 10 then setF Reg.FP_DEFECT_STAT_LAST_REJECTED 1 s
    else
      let t := fin 512 (v % 512)
      wGo 10 v (fun s => nextOr s (execFpDefectRemove t s)) (wGo 9 v (fun s => nextOr s (execFpDefectAdd t s)) s)
  | 0x1808 =>
    let s := wGo 0 v (fun s => nextOr s (if v.testBit 1 then execFwActivateCold s else execFwActivate s)) s
    wGo 3 v (fun s => nextOr s (execFwAbort s)) (wGo 2 v (fun s => nextOr s (execFwConfirm s)) s)
  | 0x1810 =>
    settingsWritten (wPut Reg.FW_CFG_CONFIRM_MODE v (wPut Reg.FW_CFG_SERVICE_ACTIVATE v (wPut Reg.FW_CFG_SERVICE_WRITE_EN v s)))
  | 0x2028 =>
    if wGet Reg.MGT_LED_LOCATE v = 3 then s
    else { wPut Reg.MGT_LED_LOCATE v s with mgmt := { s.mgmt with locate := none } }
  | 0x2030 =>
    wGo 1 v (fun s => nextOr s (execEjectCancel s)) (wGo 0 v (fun s => nextOr s (execEjectRequest s)) s)
  | 0x2040 =>
    if 1 ≤ wGet Reg.MGT_EJECT_CFG_DRAIN_S v ∧ wGet Reg.MGT_EJECT_CFG_DRAIN_S v ≤ 600 then
      settingsWritten (wPut Reg.MGT_EJECT_CFG_DRAIN_S v s)
    else s
  | 0x3010 => nextOr s (execLogSelWrite (BitVec.ofNat 64 v) s)
  | _ => s

/-- R120, R443, R458 to R460: PWR, THM and CLN. -/
def writePwr (o v : Nat) (s : State) : State :=
  if 0x10200 ≤ o ∧ o < 0x10240 then
    let p := (o - 0x10200) / 8
    wPutIn (fldNth Reg.PWR_PART_WEIGHT p) 1 255 v (wPut (fldNth Reg.PWR_PART_GUAR_W p) v s)
  else match o with
    | 0x10010 => nextOr s (execPwrCapHostWrite (BitVec.ofNat 64 v) s)
    | 0x10100 => retarget 1 (retarget 0 (wPut Reg.PWR_CFG_BOOST_EN v s))
    | 0x10108 => wGo 0 v (fun s => nextOr s (execPwrCtrClear s)) s
    | 0x10300 => if wGet Reg.PWR_RAILS_HOST_OFF v = getF Reg.PWR_RAILS_HOST_OFF s then s else nextOr s (execHostOffWrite (v.testBit 1) s)
    | 0x10800 =>
      wPutIn Reg.PWR_DRILL_CTL_WAVE_SIZE 1 16 v (wPutIn Reg.PWR_DRILL_CTL_WAVE_GAP 32 255 v (wPut Reg.PWR_DRILL_CTL_OFFSET_EN v s))
    | 0x11000 => wPutIn Reg.THM_CFG_TJ_THROTTLE 85 100 v (wPutIn Reg.THM_CFG_HBM_THROTTLE 80 95 v s)
    | 0x12008 => wPutIn Reg.CLN_CFG_GRACE_S 0 60 v (wPutIn Reg.CLN_CFG_LEAK_OFF_S 0 60 v s)
    | 0x12018 => wGo 0 v (fun s => nextOr s (execClnCtrClear s)) s
    | _ => s

/-- R259, R283: CMD_RING_CFG1 of the selected ring. While it is enabled, only TIMEOUT_MS can change, and a write that
changes another field is ignored and counted. -/
def ringCfg1 (v : Nat) (s : State) : State :=
  let r := getF Reg.CMD_RING_SEL s
  let x := getR r s
  let y : Ring := { x with cqLog2 := bitsOf v 16 5, cqHost := v.testBit 21, cqQpn := bitsOf v 24 24 }
  let t := v % 2 ^ 16
  if x.enable ∧ y ≠ x then cfgReject s
  else setR r { y with timeoutMs := if 1 ≤ t ∧ t ≤ 60000 then t else x.timeoutMs } s

/-- R259, R283: CMD_RING_CQ_ADDR and CMD_RING_CQ_RKEY of the selected ring. -/
def ringCq (f : Ring → Ring) (s : State) : State :=
  let r := getF Reg.CMD_RING_SEL s
  let x := getR r s
  if x.enable ∧ f x ≠ x then cfgReject s else setR r (f x) s

/-- R283, R483: CMD, CTX and RST. -/
def writeCmd (o v : Nat) (s : State) : State :=
  let ring := ringId (getF Reg.CMD_RING_SEL s)
  let c := getF Reg.CTX_SEL s
  match o with
  | 0x20000 => wPut Reg.CMD_RING_SEL v s
  | 0x20008 =>
    nextOr s (if v.testBit 47 then execRingEnable ring (BitVec.ofNat 64 v) s else execRingDisable ring (BitVec.ofNat 64 v) s)
  | 0x20010 => ringCfg1 v s
  | 0x20018 => ringCq (fun x => { x with cqAddr := v }) s
  | 0x20020 => ringCq (fun x => { x with cqRkey := v % 2 ^ 32 }) s
  | 0x20100 => wPut Reg.CTX_SEL v s
  | 0x20108 =>
    let p := fin 8 (v % 8)
    nextOr s (if v.testBit 3 then execCtxEnable (fin 16384 c) p s else execCtxDisable (fin 16384 c) p s)
  | 0x20118 =>
    modC c (fun x => { x with autoMs := if v % 2 ^ 16 ≤ 60000 then v % 2 ^ 16 else x.autoMs, dumpOnFault := v.testBit 16 }) s
  | 0x20120 => modC c (fun x => { x with dumpAddr := v % 2 ^ 40 / 4096 * 4096 }) s
  | 0x20128 => wGo 0 v (fun s => nextOr s (execCtxResetRequest (fin 16384 c) s)) s
  | 0x20300 => wPut Reg.RST_CFG_AUTO_ESCALATE v s
  | 0x20310 =>
    (List.range 8).foldl (fun s p => wGo p v (fun s => nextOr s (execPartitionResetRequest (fin 8 p) s)) s) s
  | _ => s

/-- R349, R385, R419: FAB and COL. -/
def writeFab (o v : Nat) (s : State) : State :=
  match o with
  | 0x50008 => wPutIn Reg.FAB_CFG_HL_WAIT_NS 100 65535 v (wPutIn Reg.FAB_CFG_DOWN_HOLD_MS 1 1000 v s)
  | 0x50010 => nextOr s (execFabEpochSwitch (v.testBit 0) s)
  | 0x50020 =>
    if v.testBit 17 && 511 < v % 2 ^ 12 then s
    else wPut Reg.FAB_RT_SEL_INDEX v (wPut Reg.FAB_RT_SEL_VERSION v (wPut Reg.FAB_RT_SEL_MCAST v s))
  | 0x50028 => nextOr s (execFabRtDataWrite (BitVec.ofNat 64 v) s)
  | 0x50030 =>
    let old := getF Reg.FAB_PART_WEIGHT s
    setF Reg.FAB_PART_WEIGHT ((List.range 8).foldl (fun n p =>
      n + (if bitsOf v (8 * p) 8 = 0 then bitsOf old (8 * p) 8 else bitsOf v (8 * p) 8) * 2 ^ (8 * p)) 0) s
  | 0x50140 => wGo 0 v (fun s => nextOr s (execFabCtrClear s)) s
  | 0x60000 => wPut Reg.COL_GROUP_SEL v s
  | 0x60008 => wPut Reg.COL_GROUP_ADDR v s
  | 0x60010 =>
    wGo 1 v (fun s => nextOr s (execColGroupUndefine s)) (wGo 0 v (fun s => nextOr s (execColGroupDefine s)) s)
  | 0x60100 => nextOr s (execColQuotaWrite (BitVec.ofNat 64 v) s)
  | 0x60110 => nextOr s (execColSlotsWrite false (BitVec.ofNat 64 v) s)
  | 0x60118 => nextOr s (execColSlotsWrite true (BitVec.ofNat 64 v) s)
  | 0x60348 => wGo 0 v (fun s => nextOr s (execColCtrClear s)) s
  | _ => s

/-- R237: the rest of MEM. -/
def writeMem (o v : Nat) (s : State) : State :=
  match o with
  | 0x70200 => wPutIn Reg.MEM_GLN_CTL_PERIOD 1 168 v (wPutIn Reg.MEM_GLN_CTL_PAGE_THRESH 1 65535 v s)
  | 0x70218 => wPut Reg.MEM_GLN_PAGE_SEL v s
  | 0x70228 => wGo 0 v (fun s => nextOr s (execMemGlnPageClear s)) s
  | _ => s

/-- A register outside the repeated blocks. -/
def writeGlob (o v : Nat) (s : State) : State :=
  if o < 0x10000 then writeSys o v s
  else if o < 0x20000 then writePwr o v s
  else if o < 0x50000 then writeCmd o v s
  else if o < 0x70000 then writeFab o v s
  else writeMem o v s

/-- A register of block `n` of a kind. -/
def writeBlk (b : Blk) (n o v : Nat) (s : State) : State :=
  if !blkPresent b n s then s
  else match b with
    | .glob => writeGlob o v s
    | .tile => writeTile n o v s
    | .kvw => if o = 0x38 then wGo 0 v (fun s => nextOr s (execKvwCtrClear (fin 16 n) s)) s else s
    | .stk => if o = 0x48 then wGo 0 v (fun s => nextOr s (execMemStkClear (fin 8 n) s)) s else s
    | .rrc => writeRrc n o v s
    | .part => writePart n o v s
    | .eth => writeEth n o v s
    | .lnk => writeLnk n o v s

/-- R14 to R16, R38: the 64-bit register at offset `off` of register space is written with `v`. -/
def writeReg (off v : Nat) (s : State) : State :=
  match locate off with
  | some (b, n, o) => writeBlk b n o v s
  | none => s

/-- R280: does a write of the register wait for the end of a snapshot freeze? -/
def regFrozen (off : Nat) : Bool :=
  match locate off with
  | some (.part, _, _) => true
  | some (.lnk, _, o) => o = 0x0 || o = 0x10 || o = 0x300
  | some (.glob, _, o) =>
    (0x10200 ≤ o && o < 0x10240) ||
    ([0x38, 0x10010, 0x10300, 0x20008, 0x20010, 0x20108, 0x20128, 0x20310, 0x50010] : List Nat).contains o
  | _ => false

/-- Is it a register write? -/
def isRegWrite : Instr → Bool
  | .registerWrite .. => true
  | _ => false

/-- REGISTER_WRITE (R15): partition 0 writes a register. Only an 8-byte-aligned offset within a block takes a write (R14,
R38). While a snapshot freeze lasts, a write that R280 holds, and those after it, wait for its end. -/
def execRegisterWrite (off : BitVec 21) (v : B64) (s : State) : Ans :=
  let o := off.toNat
  .next (if !hubOn s || o % 8 ≠ 0 || !regSpaceBacked o then s
    else if s.frozen && (regFrozen o || s.held.any isRegWrite) then { s with held := s.held ++ [.registerWrite off v] }
    else writeReg o v.toNat s)

end Sys2Proof.Machine
end

