-- ==== Sys2Proof/Machine/Rdma.lean ====
section
/-! DEFINITION. Machine/Rdma.lean: RoCEv2 operations that hosts send, connection management, and the module's own messages
(R14, R242 to R247, R253, R257, R373, R497). -/

namespace Sys2Proof.Machine

/-! ### Queue pairs -/

/-- Can operations arrive on the queue pair: connected, not in the error state, its half port up? -/
def qpLive (q : Nat) (s : State) : Bool :=
  hubOn s && (getQ q s).conn && !(getQ q s).err && halfUp (getQ q s).half s

/-- Does a held command belong to queue pair `q`? -/
def heldQp (q : B24) : Instr → Bool
  | .rdmaWriteReceived p _ _ _ _ _ => p == q
  | .rdmaReadReceived p _ _ _ _ _ => p == q
  | .rdmaAtomicCas p _ _ _ _ _ _ => p == q
  | .rdmaFetchAdd p _ _ _ _ _ => p == q
  | .rdmaSendReceived p _ _ => p == q
  | _ => false

/-- The Ethernet port of a queue pair. -/
def qpPort (q : Nat) (s : State) : Nat := (getQ q s).half / 2

/-- R239: does the queue pair's port take the frames of a message: within the maximum that is in effect, with one tag at
most? Other frames are lost before RoCEv2 sees them (log entry 64). -/
def frameOk (fr : Frame) (q : Nat) (s : State) : Bool :=
  fr.size ≤ (getEth (qpPort q s) s).maxFrame && fr.tags ≤ 1

/-- R242: is the command an RDMA READ or an atomic, which takes a responder resource? -/
def takesResource : Instr → Bool
  | .rdmaReadReceived .. => true
  | .rdmaAtomicCas .. => true
  | .rdmaFetchAdd .. => true
  | _ => false

/-- R242: the READs and atomics of queue pair `q` that wait for their answers. -/
def resourcesUsed (q : B24) (s : State) : Nat := (s.held.filter fun i => heldQp q i && takesResource i).length

/-- R239, R242, R246, R280: an operation of a queue pair, which waits behind a register write that a snapshot freeze holds;
`stop` says that it is such a write. A READ or atomic beyond the 64 responder resources, which no requester that keeps to
its limit sends, is lost (log entry 64). -/
def qpOp (i : Instr) (fr : Frame) (q : B24) (stop : Bool) (f : State → State) (s : State) : Ans :=
  .next (if !qpLive q.toNat s || !frameOk fr q.toNat s then s
    else if s.frozen && (stop || s.held.any (heldQp q)) then
      if takesResource i && 64 ≤ resourcesUsed q s then s else { s with held := s.held ++ [i] }
    else f s)

/-- R243 to R247, R285: answer with a NAK, which ETH_NAK_TX counts. -/
def qpNak (q : Nat) (o : OutEv) (s : State) : State := bump (ethF (qpPort q s) Reg.ETH_NAK_TX) 1 (emitQ q o s)

/-- Answer an operation, if the queue pair is still there: the operation may have been a reset. -/
def qpAnswer (q : Nat) (o : OutEv) (s : State) : State := if qpLive q s then emitQ q o s else s

/-- R247: an uncorrectable block at offset `off` ends the operation and the queue pair. -/
def qpFail (q psn off : Nat) (s : State) : State :=
  let p := (getQ q s).part
  modQ q (fun x => { x with err := true, unacked := [] })
    (logEv .ethRdmaUe (some p) none off [] (qpNak q (.nakOperation q psn) s))

/-! ### Targets -/

/-- R497: memory is served once step 5 of bring-up is complete. -/
def memServed (s : State) : Bool := 5 < getF Reg.BOOT_STAT_STEP s

/-- R28, R253, R455, R497: a host's access to HBM or a scratchpad. -/
def hostMem (part a n : Nat) (wr : Bool) (s : State) : Bool := memServed s && destOk a n s && localOk part a n wr s

/-- R243: the R_Key is the partition's, and the address a module offset. -/
def rkeyOk (q addr rkey : Nat) (s : State) : Bool :=
  getF (partF (getQ q s).part Reg.PART_CFG_RKEY) s = rkey && addr < 2 ^ 40

/-- Is the offset in the management register space? -/
def isReg (a : Nat) : Bool := regWin ≤ a && a < regWin + 0x1000000

/-- R14, R246: partition 0 makes a register access of the wrong size or alignment. -/
def regMisaligned (q a n : Nat) (s : State) : Bool := (getQ q s).part = 0 && (n ≠ 8 || a % 8 ≠ 0)

/-- R38, R246: may the register access be made? -/
def regOk (q a n : Nat) (s : State) : Bool := (getQ q s).part = 0 && n = 8 && a % 8 = 0 && regSpaceBacked (a - regWin)

/-- R243, R246: refuse an access; a misaligned register access is counted. -/
def refuseAccess (q psn a n : Nat) (s : State) : State :=
  qpNak q (.nakAccess q psn) (if isReg a && regMisaligned q a n s then bump Reg.CMD_REG_MISALIGNED 1 s else s)

/-- R216: the requester that a host's failed read is logged with, which the spec does not give. -/
def hostCode (s : State) : Nat := freeNat s

/-! ### Operations received -/

/-- R242 to R247, R260: an RDMA WRITE of `l` at `a`. -/
def rdmaWrite (q psn a rkey : Nat) (l : List Byte) (s : State) : State :=
  let part := (getQ q s).part
  let n := l.length
  if 2 ^ 31 < n then emitQ q (.nakInvalid q psn) s
  else if !rkeyOk q a rkey s then qpNak q (.nakAccess q psn) s
  else if isReg a then
    if regOk q a n s then qpAnswer q (.ack q psn) (writeReg (a - regWin) (leNat l) s) else refuseAccess q psn a n s
  else if dbWin ≤ a then
    if localOk part a n true s then qpAnswer q (.ack q psn) (doorbellWrite a l s) else refuseAccess q psn a n s
  else if hostMem part a n true s then
    match homeWrite a l (hostCode s) (tick1 s) with
    | (.uncorrectable g, s) => qpFail q psn (gOff g) s
    | (_, s) => qpAnswer q (.ack q psn) s
  else refuseAccess q psn a n s

/-- RDMA_WRITE_RECEIVED (R244): the last packet of an RDMA WRITE is accepted. -/
def execRdmaWriteReceived (q : B24) (fr : Frame) (psn : B24) (addr : B64) (rkey : B32) (data : List Byte) (s : State) : Ans :=
  qpOp (.rdmaWriteReceived q fr psn addr rkey data) fr q (isReg addr.toNat && regFrozen (addr.toNat - regWin))
    (rdmaWrite q.toNat psn.toNat addr.toNat rkey.toNat data) s

/-- R242 to R247, R373: an RDMA READ of `n` bytes at `a`. -/
def rdmaRead (q psn a rkey n : Nat) (s : State) : State :=
  let part := (getQ q s).part
  if 2 ^ 31 < n then emitQ q (.nakInvalid q psn) s
  else if !rkeyOk q a rkey s then qpNak q (.nakAccess q psn) s
  else if isReg a then
    if regOk q a n s then emitQ q (.readData q psn (leBytes 8 (readReg (a - regWin) s))) (readNote (a - regWin) s)
    else refuseAccess q psn a n s
  else if dbWin ≤ a then
    if localOk part a n false s then emitQ q (.readData q psn (List.replicate n 0)) s else refuseAccess q psn a n s
  else if hostMem part a n false s then
    match homeRead a n (hostCode s) (tick1 s) with
    | (.uncorrectable g, _, s) => qpFail q psn (gOff g) s
    | (_, l, s) => emitQ q (.readData q psn l) s
  else refuseAccess q psn a n s

/-- RDMA_READ_RECEIVED (R373). -/
def execRdmaReadReceived (q : B24) (fr : Frame) (psn : B24) (addr : B64) (rkey len : B32) (s : State) : Ans :=
  qpOp (.rdmaReadReceived q fr psn addr rkey len) fr q false (rdmaRead q.toNat psn.toNat addr.toNat rkey.toNat len.toNat) s

/-- R245: a received atomic: function `op` of R156 with its operands. -/
def rdmaAtomic (q psn a rkey op : Nat) (b c : B64) (s : State) : State :=
  let part := (getQ q s).part
  if !rkeyOk q a rkey s || a % 8 ≠ 0 || hbmEnd ≤ a || !hostMem part a 8 true s || !winOk part a 8 true true s then
    qpNak q (.nakAccess q psn) s
  else
    match hbmAtomic a op true false b c (hostCode s) (tick1 s) with
    | (some old, s) => emitQ q (.atomicOld q psn old) s
    | (none, s) => qpFail q psn (a / 512 * 512) s

/-- RDMA_ATOMIC_CAS (R245): CAS of R156. -/
def execRdmaAtomicCas (q : B24) (fr : Frame) (psn : B24) (addr : B64) (rkey : B32) (cmp swap : B64) (s : State) : Ans :=
  qpOp (.rdmaAtomicCas q fr psn addr rkey cmp swap) fr q false
    (rdmaAtomic q.toNat psn.toNat addr.toNat rkey.toNat 4 swap cmp) s

/-- RDMA_FETCH_ADD (R245): FETCH_ADD of R156. -/
def execRdmaFetchAdd (q : B24) (fr : Frame) (psn : B24) (addr : B64) (rkey : B32) (add : B64) (s : State) : Ans :=
  qpOp (.rdmaFetchAdd q fr psn addr rkey add) fr q false
    (rdmaAtomic q.toNat psn.toNat addr.toNat rkey.toNat 1 add 0) s

/-- RDMA_SEND_RECEIVED (R242). -/
def execRdmaSendReceived (q : B24) (fr : Frame) (psn : B24) (s : State) : Ans :=
  qpOp (.rdmaSendReceived q fr psn) fr q false (emitQ q.toNat (.nakInvalid q.toNat psn.toNat)) s

/-! ### Connections -/

/-- R243: the enabled partition with the P_Key. -/
def partOfKey (pkey : Nat) (s : State) : Option Nat := (List.range 8).find? fun p => partOn p s && pkeyOf p s = pkey

/-- Is the queue pair in use? -/
def qpInUse (x : Qp) : Bool := x.conn && !x.err

/-- CONNECT_REQUEST (R242, R243): a connection request for P_Key `pkey`, with a retry count and a path MTU of 1,024 B × 2^`mtu`, arrives
at a half port; `q` is the queue pair that the module would use. Its first sequence number is a free value. -/
def execConnectRequest (q : B24) (p : PortId) (b : Bool) (pkey : B16) (retries : Fin 8) (mtu : Fin 3)
    (s : State) : Ans :=
  let h := 2 * p.val + bit b
  .next (if !hubOn s || !halfUp h s || q.toNat < 2 || qpInUse (getQ q.toNat s) then s
    else match partOfKey pkey.toNat s with
      | none => emit .connReject s
      | some part =>
        if 65536 ≤ (s.qps.filter fun (e : Nat × Qp) => qpInUse e.2).length then emit .connReject s
        else emitQ q.toNat (.connAccept q.toNat) (tick1 (setQ q.toNat
          { conn := true, part := part, half := h, psn := freeNat s % 2 ^ 24, retryMax := retries.val, mtu := 1024 * 2 ^ mtu.val } s)))

/-! ### The module's own messages -/

/-- Send every message that is not acknowledged again, oldest first. -/
def qpResend (q : Nat) (s : State) : State := (getQ q s).unacked.foldl (qpSend q) s

/-- R242: go back N, or enter the error state once the retries are used up. -/
def qpRetry (q : Nat) (s : State) : State :=
  let x := getQ q s
  if x.unacked.isEmpty then s
  else if x.retries < x.retryMax then qpResend q (setQ q { x with retries := x.retries + 1, rnrWait := false } s)
  else setQ q { x with err := true, unacked := [], rnrWait := false } s

/-- Does sequence number `a` come before `b`, modulo 2^24? -/
def psnBefore (a b : Nat) : Bool := a ≠ b && (b + 2 ^ 24 - a) % 2 ^ 24 < 2 ^ 23

/-- Messages before `psn` are acknowledged. -/
def ackBefore (q psn : Nat) (s : State) : State :=
  modQ q (fun x =>
    let l := x.unacked.filter fun w => !psnBefore w.psn psn
    { x with unacked := l, retries := if l.length = x.unacked.length then x.retries else 0 }) s

/-- RDMA_ACK_RECEIVED (R242): an ACK or NAK with sequence number `psn` for the module's own messages. -/
def execRdmaAckReceived (q psn : B24) (k : AckKind) (s : State) : Ans :=
  let n := q.toNat
  .next (if !qpLive n s then s
    else match k with
      | .ack => ackBefore n ((psn.toNat + 1) % 2 ^ 24) s
      | .sequence => qpRetry n (ackBefore n psn.toNat s)
      | .notReady => modQ n (fun x => { x with rnrWait := !x.unacked.isEmpty }) (ackBefore n psn.toNat s)
      | .error => modQ n (fun x => { x with err := true, unacked := [], rnrWait := false }) s)

/-- QP_RETRANSMIT_TIMEOUT (R242, R247). -/
def execQpRetransmitTimeout (q : B24) (s : State) : Ans :=
  .next (if hubOn s && (getQ q.toNat s).conn && !(getQ q.toNat s).err then qpRetry q.toNat s else s)

/-- R257: the oldest message is dropped; the receiver still expects its sequence number, which the next one takes. -/
def qpDrop (x : Qp) : Qp :=
  let back (n : Nat) : Nat := (n + 2 ^ 24 - 1) % 2 ^ 24
  { x with psn := back x.psn, unacked := (x.unacked.drop 1).map fun w => { w with psn := back w.psn }, rnrWait := false }

/-- NOTIFY_RNR_RETRY (R257): the oldest message, refused for want of a receive buffer, is sent again up to 7 times, and
then dropped. -/
def execNotifyRnrRetry (q : B24) (s : State) : Ans :=
  let n := q.toNat
  let x := getQ n s
  .next (if !qpLive n s || !x.rnrWait then s
    else match x.unacked with
      | [] => s
      | w :: l =>
        if w.rnr < 7 then qpResend n (setQ n { x with unacked := { w with rnr := w.rnr + 1 } :: l, rnrWait := false } s)
        else qpResend n (bump (partF w.part Reg.PART_NOTIFY_DROPS) 1 (setQ n (qpDrop x) s)))

/-! ### Congestion (R242) -/

/-- Is congestion control on at the queue pair's port? -/
def ecnOn (q : Nat) (s : State) : Bool := getB (ethF (qpPort q s) Reg.ETH_CFG_ECN_EN) s

/-- Have 50 µs passed since a time? -/
def since50 (t : Option Nat) (s : State) : Bool :=
  match t with
  | some t => t + 50000 ≤ s.tb
  | none => true

/-- CE_MARKED_PACKET (R242): at most one CNP per queue pair every 50 µs. -/
def execCeMarkedPacket (q : B24) (s : State) : Ans :=
  let n := q.toNat
  .next (if qpLive n s && ecnOn n s && since50 (getQ n s).cnpTx s then
    bump (ethF (qpPort n s) Reg.ETH_CNP_TX) 1 (emitQ n (.cnp n) (modQ n (fun x => { x with cnpTx := some s.tb }) s))
  else s)

/-- CNP_RECEIVED (R242): the rate is halved, at most once per 50 µs. -/
def execCnpReceived (q : B24) (s : State) : Ans :=
  let n := q.toNat
  .next (if !qpLive n s then s
    else
      let s1 := bump (ethF (qpPort n s) Reg.ETH_CNP_RX) 1 s
      if !ecnOn n s then s1
      else modQ n (fun x =>
        if since50 x.cnpRx s then { x with rate := x.rate / 2, cnpRx := some s.tb, rateAt := s.tb }
        else { x with rateAt := s.tb }) s1)

/-- RATE_INCREASE_TIMER (R242): 55 µs without a CNP: the rate rises by 5 % of the line rate. -/
def execRateIncreaseTimer (q : B24) (s : State) : Ans :=
  let n := q.toNat
  .next (if qpLive n s && ecnOn n s && decide ((getQ n s).rateAt + 55000 ≤ s.tb) then
    modQ n (fun x => { x with rate := min 1000000000 (x.rate + 50000000), rateAt := s.tb }) s
  else s)

end Sys2Proof.Machine
end

