-- ==== Sys2Proof/Machine/Response.lean ====
section
/-! DEFINITION. Machine/Response.lean: a response reaches the unit that made the request (R331, R332). -/

namespace Sys2Proof.Machine

/-- RESPONSE_RECEIVED (R332): the response of request `req` reaches its unit. An instruction cache block, an ATOM and a
remote-read fill have events of their own. One that ends a wait of a ring is held by a snapshot freeze (R280). -/
def execResponseReceived (req : Nat) (s : State) : Ans :=
  match lookO s.reqs req with
  | none => .next s
  | some r =>
    match r.stage with
    | .done st data =>
      match r.unit with
      | .dma t x sp => .next (dmaTileResp t x sp r st data (delReq req s))
      | .waitf t => .next (waitfResp t req st data (delReq req s))
      | .walker w key n pos => .next (walkResp w key n pos r st data (delReq req s))
      | .command ring i pos code =>
        .next (ringHeld (.responseReceived req) ring (fun s => commandResp ring i pos code r st data (delReq req s)) s)
      | _ => .next s
    | _ => .next s

end Sys2Proof.Machine
end

