-- ==== Sys2Proof/Machine/Freeze.lean ====
section
/-! DEFINITION. Machine/Freeze.lean: the end of a snapshot freeze (R280), after which what it held takes effect. -/

namespace Sys2Proof.Machine

/-- R280: the effect of a command that a freeze has held. -/
def heldRun (s : State) (i : Instr) : State :=
  match i with
  | .railsWaitEnd => nextOr s (execRailsWaitEnd s)
  | .resetNAssert => nextOr s (execResetNAssert s)
  | .resetNRelease => nextOr s (execResetNRelease s)
  | .sysResetModule => nextOr s (execSysResetModule s)
  | .sysResetWarm => nextOr s (execSysResetWarm s)
  | .sysResetPowerCycle => nextOr s (execSysResetPowerCycle s)
  | .doorbellProducer ring v => nextOr s (execDoorbellProducer ring v s)
  | .doorbellCqConsumed ring v => nextOr s (execDoorbellCqConsumed ring v s)
  | .kernelStart ring => nextOr s (execKernelStart ring s)
  | .commandComplete ring => nextOr s (execCommandComplete ring s)
  | .completionRetry ring => nextOr s (execCompletionRetry ring s)
  | .ringTimeoutExpire ring => nextOr s (execRingTimeoutExpire ring s)
  | .rdmaWriteReceived q fr psn addr rkey data => nextOr s (execRdmaWriteReceived q fr psn addr rkey data s)
  | .rdmaReadReceived q fr psn addr rkey len => nextOr s (execRdmaReadReceived q fr psn addr rkey len s)
  | .rdmaAtomicCas q fr psn addr rkey cmp swap => nextOr s (execRdmaAtomicCas q fr psn addr rkey cmp swap s)
  | .rdmaFetchAdd q fr psn addr rkey add => nextOr s (execRdmaFetchAdd q fr psn addr rkey add s)
  | .rdmaSendReceived q fr psn => nextOr s (execRdmaSendReceived q fr psn s)
  | .partEnable p pkey rkey => nextOr s (execPartEnable p pkey rkey s)
  | .partDisable p pkey rkey => nextOr s (execPartDisable p pkey rkey s)
  | .ctxEnable c part => nextOr s (execCtxEnable c part s)
  | .ctxDisable c part => nextOr s (execCtxDisable c part s)
  | .ringEnable ring v => nextOr s (execRingEnable ring v s)
  | .ringDisable ring v => nextOr s (execRingDisable ring v s)
  | .registerWrite off v => nextOr s (execRegisterWrite off v s)
  | .linkEnable l => nextOr s (execLinkEnable l s)
  | .linkDisable l => nextOr s (execLinkDisable l s)
  | .linkPowerUpDone l => nextOr s (execLinkPowerUpDone l s)
  | .partnerClockDetected l lanes => nextOr s (execPartnerClockDetected l lanes s)
  | .partnerRateAlternate l => nextOr s (execPartnerRateAlternate l s)
  | .noPartnerTimer l => nextOr s (execNoPartnerTimer l s)
  | .eqCoarseDone l => nextOr s (execEqCoarseDone l s)
  | .settingsRestored l => nextOr s (execSettingsRestored l s)
  | .blockLockDone l lanes skew hdrs => nextOr s (execBlockLockDone l lanes skew hdrs s)
  | .eqFineDone l errs => nextOr s (execEqFineDone l errs s)
  | .identifyDone l chip valid link lx7 serial => nextOr s (execIdentifyDone l chip valid link lx7 serial s)
  | .linkStateTimeout l => nextOr s (execLinkStateTimeout l s)
  | .laneMsgReceived l lane block asks => nextOr s (execLaneMsgReceived l lane block asks s)
  | .retrainDone l fin => nextOr s (execRetrainDone l fin s)
  | .blockLockLost l lane hdrs => nextOr s (execBlockLockLost l lane hdrs s)
  | .alignmentLost l => nextOr s (execAlignmentLost l s)
  | .linkClockLaneLost l lane => nextOr s (execLinkClockLaneLost l lane s)
  | .fallowEnter l => nextOr s (execFallowEnter l s)
  | .sleepReceived l => nextOr s (execSleepReceived l s)
  | .fallowWake l => nextOr s (execFallowWake l s)
  | .fallowSleepLimit l => nextOr s (execFallowSleepLimit l s)
  | .wakeReceived l => nextOr s (execWakeReceived l s)
  | .wakeLockTimeout l => nextOr s (execWakeLockTimeout l s)
  | .legacyIdleRequest l => nextOr s (execLegacyIdleRequest l s)
  | .legacyIdleReceived l grant => nextOr s (execLegacyIdleReceived l grant s)
  | .trainingBurst l => nextOr s (execTrainingBurst l s)
  | .lnkTestCtlWrite l v => nextOr s (execLnkTestCtlWrite l v s)
  | .farLoopRequest l => nextOr s (execFarLoopRequest l s)
  | .testCheckerSync l lane errs => nextOr s (execTestCheckerSync l lane errs s)
  | .lnkRetrain l => nextOr s (execLnkRetrain l s)
  | .lnkWake l => nextOr s (execLnkWake l s)
  | .lnkRetry l => nextOr s (execLnkRetry l s)
  | .lnkForget l => nextOr s (execLnkForget l s)
  | .fabEpochSwitch v => nextOr s (execFabEpochSwitch v s)
  | .settleWindowExpire g seq => nextOr s (execSettleWindowExpire g seq s)
  | .partitionAllocate demands other use => nextOr s (execPartitionAllocate demands other use s)
  | .pwrCapHostWrite v => nextOr s (execPwrCapHostWrite v s)
  | .capWindowExpire o => nextOr s (execCapWindowExpire o s)
  | .hostOffWrite v => nextOr s (execHostOffWrite v s)
  | .fwCapUpdate w => nextOr s (execFwCapUpdate w s)
  | .coolantGraceExpire => nextOr s (execCoolantGraceExpire s)
  | .thermalTrip n => nextOr s (execThermalTrip n s)
  | .responseReceived req => nextOr s (execResponseReceived req s)
  | .waitValuePoll ring => nextOr s (execWaitValuePoll ring s)
  | .leakOffExpire => nextOr s (execLeakOffExpire s)
  | .railsOn => nextOr s (execRailsOn s)
  | .rackRefreshTimeout => nextOr s (execRackRefreshTimeout s)
  | .orphanTimeout => nextOr s (execOrphanTimeout s)
  | .undervoltage => nextOr s (execUndervoltage s)
  | .overvoltage => nextOr s (execOvervoltage s)
  | .ctxResetRequest c => nextOr s (execCtxResetRequest c s)
  | .autoResetTimer c => nextOr s (execAutoResetTimer c s)
  | .engineWorkRemoved c e => nextOr s (execEngineWorkRemoved c e s)
  | .partitionResetRequest p => nextOr s (execPartitionResetRequest p s)
  | .ladderStepTimeout job => nextOr s (execLadderStepTimeout job s)
  | .felmosHeartbeat box wire => nextOr s (execFelmosHeartbeat box wire s)
  | .felmosCheckpoint => nextOr s (execFelmosCheckpoint s)
  | .watchdogPathMiss box wire => nextOr s (execWatchdogPathMiss box wire s)
  | .fatalErrorSignal => nextOr s (execFatalErrorSignal s)
  | .standbyTakeoverDone crc0 crc1 => nextOr s (execStandbyTakeoverDone crc0 crc1 s)
  | .coreSelftestDone core ok => nextOr s (execCoreSelftestDone core ok s)
  | .mctpSetEndpointId rq eid => nextOr s (execMctpSetEndpointId rq eid s)
  | .pldmGetTid rq => nextOr s (execPldmGetTid rq s)
  | .pldmSetTid rq tid => nextOr s (execPldmSetTid rq tid s)
  | .pldmGetPldmTypes rq => nextOr s (execPldmGetPldmTypes rq s)
  | .pldmGetPldmVersion rq typ => nextOr s (execPldmGetPldmVersion rq typ s)
  | .pldmGetPldmCommands rq typ => nextOr s (execPldmGetPldmCommands rq typ s)
  | .pldmGetPdr rq handle => nextOr s (execPldmGetPdr rq handle s)
  | .pldmGetSensorReading rq id => nextOr s (execPldmGetSensorReading rq id s)
  | .pldmGetStateSensorReadings rq id => nextOr s (execPldmGetStateSensorReadings rq id s)
  | .pldmGetNumericEffecterValue rq id => nextOr s (execPldmGetNumericEffecterValue rq id s)
  | .pldmSetEventReceiver rq eid => nextOr s (execPldmSetEventReceiver rq eid s)
  | .pldmGetFruRecordTable rq => nextOr s (execPldmGetFruRecordTable rq s)
  | .setRackCap rq w => nextOr s (execSetRackCap rq w s)
  | .setOrphanCap rq w => nextOr s (execSetOrphanCap rq w s)
  | .setRackOff rq v => nextOr s (execSetRackOff rq v s)
  | .setLocateLed rq v => nextOr s (execSetLocateLed rq v s)
  | .sidebandEjectRequest rq => nextOr s (execSidebandEjectRequest rq s)
  | .sidebandEjectCancel rq => nextOr s (execSidebandEjectCancel rq s)
  | .platformEventAck boot fseq => nextOr s (execPlatformEventAck boot fseq s)
  | .svcIdentify req crc => nextOr s (execSvcIdentify req crc s)
  | .svcStageOpen req crc slot => nextOr s (execSvcStageOpen req crc slot s)
  | .svcStageWrite req crc off data => nextOr s (execSvcStageWrite req crc off data s)
  | .svcStageRead req crc slot off len => nextOr s (execSvcStageRead req crc slot off len s)
  | .svcActivate req crc cold => nextOr s (execSvcActivate req crc cold s)
  | .svcStatus req crc => nextOr s (execSvcStatus req crc s)
  | .svcLogRead req crc off => nextOr s (execSvcLogRead req crc off s)
  | .svcConfigWrite req crc data => nextOr s (execSvcConfigWrite req crc data s)
  | .svcLicenceWrite req crc off data => nextOr s (execSvcLicenceWrite req crc off data s)
  | .svcRepairAdd req crc data => nextOr s (execSvcRepairAdd req crc data s)
  | .fwActivate => nextOr s (execFwActivate s)
  | .fwActivateCold => nextOr s (execFwActivateCold s)
  | .fwConfirm => nextOr s (execFwConfirm s)
  | .fwAbort => nextOr s (execFwAbort s)
  | .activationVerifyDone => nextOr s (execActivationVerifyDone s)
  | .activationBootDone => nextOr s (execActivationBootDone s)
  | .shadowLoadDone ok => nextOr s (execShadowLoadDone ok s)
  | .activationCommit => nextOr s (execActivationCommit s)
  | .unitBankSwitch u => nextOr s (execUnitBankSwitch u s)
  | .tileBankSwitch t => nextOr s (execTileBankSwitch t s)
  | .healthConfirm => nextOr s (execHealthConfirm s)
  | .trialTimeout => nextOr s (execTrialTimeout s)
  | .ejectRequest => nextOr s (execEjectRequest s)
  | .ejectCancel => nextOr s (execEjectCancel s)
  | .ejectDrainEnd expired => nextOr s (execEjectDrainEnd expired s)
  | .ejectRoutesClear => nextOr s (execEjectRoutesClear s)
  | .ejectQuiesceEnd expired => nextOr s (execEjectQuiesceEnd expired s)
  | .trainingBurstReceived l => nextOr s (execTrainingBurstReceived l s)
  | .configMemoryOpDone ok => nextOr s (execConfigMemoryOpDone ok s)
  | _ => s

/-- R281: SNAP_TIME of the snapshot being taken. -/
def snapTime (s : State) : Nat := dField s.snapImage 16 8

/-- R281: the snapshot with the length of its freeze in bytes 24 to 27. -/
def snapPatch (s : State) : List Byte :=
  s.snapImage.take 24 ++ leBytes 4 (s.tb - snapTime s) ++ s.snapImage.drop 28

/-- R280: the freeze ends: what waits takes effect, in the order in which it fell due. -/
def freezeEnd (s : State) : State :=
  s.held.foldl heldRun { s with frozen := false, held := [], snapImage := snapPatch s }

/-- R280: a freeze that has lasted 20 µs ends. -/
def freezeLimit (s : State) : State := if s.frozen && decide (snapTime s + 20000 ≤ s.tb) then freezeEnd s else s

/-- SNAPSHOT_FREEZE_END (R280): a freeze lasts at least 100 ns. -/
def execSnapshotFreezeEnd (s : State) : Ans :=
  .next (if s.frozen && decide (snapTime s + 100 ≤ s.tb) then freezeEnd s else s)

end Sys2Proof.Machine
end

