-- ==== Sys2Proof/Machine/Dispatch.lean ====
section
/-! DEFINITION. Machine/Dispatch.lean: one arm per command, each a direct call of its meaning. -/

namespace Sys2Proof.Machine

/-- The effect of one command on everything but the queue. -/
def exec (i : Instr) (s : State) : Host.Outcome State Fault Refusal :=
  match i with
  | .powerOn => Sys2Proof.Machine.execPowerOn s
  | .railsWaitEnd => Sys2Proof.Machine.execRailsWaitEnd s
  | .linkTrainingStepEnd => Sys2Proof.Machine.execLinkTrainingStepEnd s
  | .discoveryWaitExpire => Sys2Proof.Machine.execDiscoveryWaitExpire s
  | .topoProbeReceived => Sys2Proof.Machine.execTopoProbeReceived s
  | .topoReplyReceived => Sys2Proof.Machine.execTopoReplyReceived s
  | .topoProbeTimer l => Sys2Proof.Machine.execTopoProbeTimer l s
  | .prechargeSettled => Sys2Proof.Machine.execPrechargeSettled s
  | .resetNAssert => Sys2Proof.Machine.execResetNAssert s
  | .resetNRelease => Sys2Proof.Machine.execResetNRelease s
  | .sysResetModule => Sys2Proof.Machine.execSysResetModule s
  | .sysResetWarm => Sys2Proof.Machine.execSysResetWarm s
  | .sysResetPowerCycle => Sys2Proof.Machine.execSysResetPowerCycle s
  | .powerCycleReportTimer => Sys2Proof.Machine.execPowerCycleReportTimer s
  | .nop t => Sys2Proof.Machine.execNop t s
  | .endOp t => Sys2Proof.Machine.execEndOp t s
  | .br t => Sys2Proof.Machine.execBr t s
  | .mfsr t => Sys2Proof.Machine.execMfsr t s
  | .lfsrld t => Sys2Proof.Machine.execLfsrld t s
  | .alu t => Sys2Proof.Machine.execAlu t s
  | .alui t => Sys2Proof.Machine.execAlui t s
  | .movi t => Sys2Proof.Machine.execMovi t s
  | .movhi t => Sys2Proof.Machine.execMovhi t s
  | .cmp t => Sys2Proof.Machine.execCmp t s
  | .cmpi t => Sys2Proof.Machine.execCmpi t s
  | .plog t => Sys2Proof.Machine.execPlog t s
  | .fpu t => Sys2Proof.Machine.execFpu t s
  | .fcmp t => Sys2Proof.Machine.execFcmp t s
  | .amov t => Sys2Proof.Machine.execAmov t s
  | .adda t => Sys2Proof.Machine.execAdda t s
  | .mova t => Sys2Proof.Machine.execMova t s
  | .ld t => Sys2Proof.Machine.execLd t s
  | .st t => Sys2Proof.Machine.execSt t s
  | .valu t => Sys2Proof.Machine.execValu t s
  | .valus t => Sys2Proof.Machine.execValus t s
  | .vsfu t => Sys2Proof.Machine.execVsfu t s
  | .vred t => Sys2Proof.Machine.execVred t s
  | .vcvt t => Sys2Proof.Machine.execVcvt t s
  | .vbcast t => Sys2Proof.Machine.execVbcast t s
  | .vld t => Sys2Proof.Machine.execVld t s
  | .vst t => Sys2Proof.Machine.execVst t s
  | .vdq t => Sys2Proof.Machine.execVdq t s
  | .vqnt t => Sys2Proof.Machine.execVqnt t s
  | .mmul t => Sys2Proof.Machine.execMmul t s
  | .qmmul t => Sys2Proof.Machine.execQmmul t s
  | .accrd t => Sys2Proof.Machine.execAccrd t s
  | .dma t => Sys2Proof.Machine.execDma t s
  | .atom t => Sys2Proof.Machine.execAtom t s
  | .acq t => Sys2Proof.Machine.execAcq t s
  | .waitd t => Sys2Proof.Machine.execWaitd t s
  | .signal t => Sys2Proof.Machine.execSignal t s
  | .waits t => Sys2Proof.Machine.execWaits t s
  | .waitf t => Sys2Proof.Machine.execWaitf t s
  | .smxu t => Sys2Proof.Machine.execSmxu t s
  | .smxm t => Sys2Proof.Machine.execSmxm t s
  | .icacheFillDone t parity => Sys2Proof.Machine.execIcacheFillDone t parity s
  | .matrixOpDone t => Sys2Proof.Machine.execMatrixOpDone t s
  | .accrdDone t => Sys2Proof.Machine.execAccrdDone t s
  | .vectorOpDone t => Sys2Proof.Machine.execVectorOpDone t s
  | .dmaRequestIssue src parity => Sys2Proof.Machine.execDmaRequestIssue src parity s
  | .responseReceived req => Sys2Proof.Machine.execResponseReceived req s
  | .signalIncrementApplied t => Sys2Proof.Machine.execSignalIncrementApplied t s
  | .waitdSatisfied t => Sys2Proof.Machine.execWaitdSatisfied t s
  | .waitsSatisfied t => Sys2Proof.Machine.execWaitsSatisfied t s
  | .waitfPoll t => Sys2Proof.Machine.execWaitfPoll t s
  | .atomReturn t req => Sys2Proof.Machine.execAtomReturn t req s
  | .endDrainDone t => Sys2Proof.Machine.execEndDrainDone t s
  | .tileHalted t => Sys2Proof.Machine.execTileHalted t s
  | .tileClearDone t => Sys2Proof.Machine.execTileClearDone t s
  | .drillStartAdmit t => Sys2Proof.Machine.execDrillStartAdmit t s
  | .drillOffsetExpire t => Sys2Proof.Machine.execDrillOffsetExpire t s
  | .drillRampStep t => Sys2Proof.Machine.execDrillRampStep t s
  | .cremaCompareDone t => Sys2Proof.Machine.execCremaCompareDone t s
  | .cremaEscalationDone t => Sys2Proof.Machine.execCremaEscalationDone t s
  | .doorbellProducer ring v => Sys2Proof.Machine.execDoorbellProducer ring v s
  | .doorbellCqConsumed ring v => Sys2Proof.Machine.execDoorbellCqConsumed ring v s
  | .cmdNop ring => Sys2Proof.Machine.execCmdNop ring s
  | .cmdKernel ring => Sys2Proof.Machine.execCmdKernel ring s
  | .kernelStart ring => Sys2Proof.Machine.execKernelStart ring s
  | .kernelTileReserve ring => Sys2Proof.Machine.execKernelTileReserve ring s
  | .cmdDma ring => Sys2Proof.Machine.execCmdDma ring s
  | .cmdWriteValue ring => Sys2Proof.Machine.execCmdWriteValue ring s
  | .cmdWaitValue ring => Sys2Proof.Machine.execCmdWaitValue ring s
  | .waitValuePoll ring => Sys2Proof.Machine.execWaitValuePoll ring s
  | .cmdAcquire ring => Sys2Proof.Machine.execCmdAcquire ring s
  | .cmdTrim ring => Sys2Proof.Machine.execCmdTrim ring s
  | .cmdAppend ring => Sys2Proof.Machine.execCmdAppend ring s
  | .cmdRotaryTable ring => Sys2Proof.Machine.execCmdRotaryTable ring s
  | .cmdSysSnapshot ring => Sys2Proof.Machine.execCmdSysSnapshot ring s
  | .cmdCollective ring => Sys2Proof.Machine.execCmdCollective ring s
  | .cmdPowerCap ring => Sys2Proof.Machine.execCmdPowerCap ring s
  | .commandComplete ring => Sys2Proof.Machine.execCommandComplete ring s
  | .completionRetry ring => Sys2Proof.Machine.execCompletionRetry ring s
  | .ringTimeoutExpire ring => Sys2Proof.Machine.execRingTimeoutExpire ring s
  | .snapshotFreezeEnd => Sys2Proof.Machine.execSnapshotFreezeEnd s
  | .sysSnapGo => Sys2Proof.Machine.execSysSnapGo s
  | .notifyRnrRetry q => Sys2Proof.Machine.execNotifyRnrRetry q s
  | .bindingActivate w => Sys2Proof.Machine.execBindingActivate w s
  | .walkerCreditPoll ring idx b => Sys2Proof.Machine.execWalkerCreditPoll ring idx b s
  | .pageSiftSelect ring idx b => Sys2Proof.Machine.execPageSiftSelect ring idx b s
  | .walkerSlotDeliver ring idx b => Sys2Proof.Machine.execWalkerSlotDeliver ring idx b s
  | .rdmaWriteReceived q fr psn addr rkey data => Sys2Proof.Machine.execRdmaWriteReceived q fr psn addr rkey data s
  | .rdmaReadReceived q fr psn addr rkey len => Sys2Proof.Machine.execRdmaReadReceived q fr psn addr rkey len s
  | .rdmaAtomicCas q fr psn addr rkey cmp swap => Sys2Proof.Machine.execRdmaAtomicCas q fr psn addr rkey cmp swap s
  | .rdmaFetchAdd q fr psn addr rkey add => Sys2Proof.Machine.execRdmaFetchAdd q fr psn addr rkey add s
  | .rdmaSendReceived q fr psn => Sys2Proof.Machine.execRdmaSendReceived q fr psn s
  | .connectRequest q p b pkey retries mtu => Sys2Proof.Machine.execConnectRequest q p b pkey retries mtu s
  | .rdmaAckReceived q psn k => Sys2Proof.Machine.execRdmaAckReceived q psn k s
  | .qpRetransmitTimeout q => Sys2Proof.Machine.execQpRetransmitTimeout q s
  | .ceMarkedPacket q => Sys2Proof.Machine.execCeMarkedPacket q s
  | .cnpReceived q => Sys2Proof.Machine.execCnpReceived q s
  | .rateIncreaseTimer q => Sys2Proof.Machine.execRateIncreaseTimer q s
  | .ethCableInserted p managed code => Sys2Proof.Machine.execEthCableInserted p managed code s
  | .cmisActivationTimeout p code => Sys2Proof.Machine.execCmisActivationTimeout p code s
  | .ethLinkUp p b => Sys2Proof.Machine.execEthLinkUp p b s
  | .ethLinkDown p b => Sys2Proof.Machine.execEthLinkDown p b s
  | .ethSplitWrite p v => Sys2Proof.Machine.execEthSplitWrite p v s
  | .ptpAnnounceReceived tr dom iv => Sys2Proof.Machine.execPtpAnnounceReceived tr dom iv s
  | .ptpSyncReceived tr dom origin => Sys2Proof.Machine.execPtpSyncReceived tr dom origin s
  | .ptpFollowUpReceived tr dom origin => Sys2Proof.Machine.execPtpFollowUpReceived tr dom origin s
  | .ptpDelayRespReceived tr dom t4 => Sys2Proof.Machine.execPtpDelayRespReceived tr dom t4 s
  | .ptpLockLost => Sys2Proof.Machine.execPtpLockLost s
  | .partEnable p pkey rkey => Sys2Proof.Machine.execPartEnable p pkey rkey s
  | .partDisable p pkey rkey => Sys2Proof.Machine.execPartDisable p pkey rkey s
  | .ctxEnable c part => Sys2Proof.Machine.execCtxEnable c part s
  | .ctxDisable c part => Sys2Proof.Machine.execCtxDisable c part s
  | .ringEnable ring v => Sys2Proof.Machine.execRingEnable ring v s
  | .ringDisable ring v => Sys2Proof.Machine.execRingDisable ring v s
  | .registerWrite off v => Sys2Proof.Machine.execRegisterWrite off v s
  | .tilePrecClear t => Sys2Proof.Machine.execTilePrecClear t s
  | .tileCtrClear t => Sys2Proof.Machine.execTileCtrClear t s
  | .tileSpClear t => Sys2Proof.Machine.execTileSpClear t s
  | .kvwCtrClear w => Sys2Proof.Machine.execKvwCtrClear w s
  | .memGlnPageClear => Sys2Proof.Machine.execMemGlnPageClear s
  | .memStkClear stack => Sys2Proof.Machine.execMemStkClear stack s
  | .memRrcBypass die => Sys2Proof.Machine.execMemRrcBypass die s
  | .memRrcInvalidate die => Sys2Proof.Machine.execMemRrcInvalidate die s
  | .memRrcClear die => Sys2Proof.Machine.execMemRrcClear die s
  | .gleanerBlockVisit stack sym hard => Sys2Proof.Machine.execGleanerBlockVisit stack sym hard s
  | .hbmAccess req sym => Sys2Proof.Machine.execHbmAccess req sym s
  | .spCorrectedWriteback t word flips => Sys2Proof.Machine.execSpCorrectedWriteback t word flips s
  | .rrcFillReturn die req => Sys2Proof.Machine.execRrcFillReturn die req s
  | .linkEnable l => Sys2Proof.Machine.execLinkEnable l s
  | .linkDisable l => Sys2Proof.Machine.execLinkDisable l s
  | .linkPowerUpDone l => Sys2Proof.Machine.execLinkPowerUpDone l s
  | .partnerClockDetected l lanes => Sys2Proof.Machine.execPartnerClockDetected l lanes s
  | .partnerRateAlternate l => Sys2Proof.Machine.execPartnerRateAlternate l s
  | .noPartnerTimer l => Sys2Proof.Machine.execNoPartnerTimer l s
  | .eqCoarseDone l => Sys2Proof.Machine.execEqCoarseDone l s
  | .settingsRestored l => Sys2Proof.Machine.execSettingsRestored l s
  | .blockLockDone l lanes skew hdrs => Sys2Proof.Machine.execBlockLockDone l lanes skew hdrs s
  | .eqFineDone l errs => Sys2Proof.Machine.execEqFineDone l errs s
  | .identifyDone l chip valid link lx7 serial => Sys2Proof.Machine.execIdentifyDone l chip valid link lx7 serial s
  | .linkStateTimeout l => Sys2Proof.Machine.execLinkStateTimeout l s
  | .laneMsgReceived l lane block asks => Sys2Proof.Machine.execLaneMsgReceived l lane block asks s
  | .periodStart l => Sys2Proof.Machine.execPeriodStart l s
  | .groupSlot l => Sys2Proof.Machine.execGroupSlot l s
  | .groupReceived l rx => Sys2Proof.Machine.execGroupReceived l rx s
  | .nakRepeatTimer l => Sys2Proof.Machine.execNakRepeatTimer l s
  | .replayTimeout l => Sys2Proof.Machine.execReplayTimeout l s
  | .retrainDone l fin => Sys2Proof.Machine.execRetrainDone l fin s
  | .blockLockLost l lane hdrs => Sys2Proof.Machine.execBlockLockLost l lane hdrs s
  | .alignmentLost l => Sys2Proof.Machine.execAlignmentLost l s
  | .linkClockLaneLost l lane => Sys2Proof.Machine.execLinkClockLaneLost l lane s
  | .fallowEnter l => Sys2Proof.Machine.execFallowEnter l s
  | .sleepReceived l => Sys2Proof.Machine.execSleepReceived l s
  | .fallowWake l => Sys2Proof.Machine.execFallowWake l s
  | .fallowSleepLimit l => Sys2Proof.Machine.execFallowSleepLimit l s
  | .fallowAwakeHoldEnd l => Sys2Proof.Machine.execFallowAwakeHoldEnd l s
  | .wakeReceived l => Sys2Proof.Machine.execWakeReceived l s
  | .wakeLockTimeout l => Sys2Proof.Machine.execWakeLockTimeout l s
  | .legacyIdleRequest l => Sys2Proof.Machine.execLegacyIdleRequest l s
  | .legacyIdleReceived l grant => Sys2Proof.Machine.execLegacyIdleReceived l grant s
  | .legacyIdleLapse l => Sys2Proof.Machine.execLegacyIdleLapse l s
  | .trainingBurst l => Sys2Proof.Machine.execTrainingBurst l s
  | .lnkTestCtlWrite l v => Sys2Proof.Machine.execLnkTestCtlWrite l v s
  | .farLoopRequest l => Sys2Proof.Machine.execFarLoopRequest l s
  | .testCheckerSync l lane errs => Sys2Proof.Machine.execTestCheckerSync l lane errs s
  | .lnkRetrain l => Sys2Proof.Machine.execLnkRetrain l s
  | .lnkSave l => Sys2Proof.Machine.execLnkSave l s
  | .lnkWake l => Sys2Proof.Machine.execLnkWake l s
  | .lnkRetry l => Sys2Proof.Machine.execLnkRetry l s
  | .lnkForget l => Sys2Proof.Machine.execLnkForget l s
  | .lnkCtrClear l => Sys2Proof.Machine.execLnkCtrClear l s
  | .linkDegradedCheck l lane corrected bytes => Sys2Proof.Machine.execLinkDegradedCheck l lane corrected bytes s
  | .packetArrival port => Sys2Proof.Machine.execPacketArrival port s
  | .headlandMove l => Sys2Proof.Machine.execHeadlandMove l s
  | .linkDownHoldExpire l => Sys2Proof.Machine.execLinkDownHoldExpire l s
  | .fencedPacketRelease => Sys2Proof.Machine.execFencedPacketRelease s
  | .fabRtDataWrite v => Sys2Proof.Machine.execFabRtDataWrite v s
  | .fabEpochSwitch v => Sys2Proof.Machine.execFabEpochSwitch v s
  | .fabCtrClear => Sys2Proof.Machine.execFabCtrClear s
  | .colGroupDefine => Sys2Proof.Machine.execColGroupDefine s
  | .colGroupUndefine => Sys2Proof.Machine.execColGroupUndefine s
  | .groupDefineDone => Sys2Proof.Machine.execGroupDefineDone s
  | .colQuotaWrite v => Sys2Proof.Machine.execColQuotaWrite v s
  | .colSlotsWrite hi v => Sys2Proof.Machine.execColSlotsWrite hi v s
  | .colCtrClear => Sys2Proof.Machine.execColCtrClear s
  | .collAdmit p => Sys2Proof.Machine.execCollAdmit p s
  | .collRsSegment => Sys2Proof.Machine.execCollRsSegment s
  | .collAgSegment => Sys2Proof.Machine.execCollAgSegment s
  | .collRowCount => Sys2Proof.Machine.execCollRowCount s
  | .collGrant => Sys2Proof.Machine.execCollGrant s
  | .collRowData => Sys2Proof.Machine.execCollRowData s
  | .collReadyGrant => Sys2Proof.Machine.execCollReadyGrant s
  | .mcWriteReceived => Sys2Proof.Machine.execMcWriteReceived s
  | .residueCheckResult g seq lane failed => Sys2Proof.Machine.execResidueCheckResult g seq lane failed s
  | .revokeToRootReceived => Sys2Proof.Machine.execRevokeToRootReceived s
  | .revokeReceived => Sys2Proof.Machine.execRevokeReceived s
  | .settleWindowExpire g seq => Sys2Proof.Machine.execSettleWindowExpire g seq s
  | .powerEstimateTick dyn stat => Sys2Proof.Machine.execPowerEstimateTick dyn stat s
  | .estimateGainCorrect w v a => Sys2Proof.Machine.execEstimateGainCorrect w v a s
  | .limiterEval freq duty => Sys2Proof.Machine.execLimiterEval freq duty s
  | .freqStep die => Sys2Proof.Machine.execFreqStep die s
  | .voltageSettled die => Sys2Proof.Machine.execVoltageSettled die s
  | .partitionAllocate demands other use => Sys2Proof.Machine.execPartitionAllocate demands other use s
  | .pwrCapHostWrite v => Sys2Proof.Machine.execPwrCapHostWrite v s
  | .capWindowExpire o => Sys2Proof.Machine.execCapWindowExpire o s
  | .pwrCtrClear => Sys2Proof.Machine.execPwrCtrClear s
  | .throttleSampleTick => Sys2Proof.Machine.execThrottleSampleTick s
  | .hostOffWrite v => Sys2Proof.Machine.execHostOffWrite v s
  | .brakeAssert => Sys2Proof.Machine.execBrakeAssert s
  | .brakeRelease => Sys2Proof.Machine.execBrakeRelease s
  | .tampTdpClamp => Sys2Proof.Machine.execTampTdpClamp s
  | .inputCurrentLimit => Sys2Proof.Machine.execInputCurrentLimit s
  | .inputCurrentRelease => Sys2Proof.Machine.execInputCurrentRelease s
  | .thermalTrip n => Sys2Proof.Machine.execThermalTrip n s
  | .thermalModelTick readings models => Sys2Proof.Machine.execThermalModelTick readings models s
  | .thermalLoopStepDown die => Sys2Proof.Machine.execThermalLoopStepDown die s
  | .thermalLoopStepUp die => Sys2Proof.Machine.execThermalLoopStepUp die s
  | .droopStretch die => Sys2Proof.Machine.execDroopStretch die s
  | .droopWaitExpire die => Sys2Proof.Machine.execDroopWaitExpire die s
  | .ageingCalibration => Sys2Proof.Machine.execAgeingCalibration s
  | .fwCapUpdate w => Sys2Proof.Machine.execFwCapUpdate w s
  | .coolantOkDeassert => Sys2Proof.Machine.execCoolantOkDeassert s
  | .coolantOkAssert => Sys2Proof.Machine.execCoolantOkAssert s
  | .coolantGraceExpire => Sys2Proof.Machine.execCoolantGraceExpire s
  | .inletTempChange t => Sys2Proof.Machine.execInletTempChange t s
  | .excessRiseSample rate => Sys2Proof.Machine.execExcessRiseSample rate s
  | .leakLoopStateChange ohms => Sys2Proof.Machine.execLeakLoopStateChange ohms s
  | .leakOffExpire => Sys2Proof.Machine.execLeakOffExpire s
  | .coolantSensorCrosscheck => Sys2Proof.Machine.execCoolantSensorCrosscheck s
  | .clnCtrClear => Sys2Proof.Machine.execClnCtrClear s
  | .railsOn => Sys2Proof.Machine.execRailsOn s
  | .rackRefreshTimeout => Sys2Proof.Machine.execRackRefreshTimeout s
  | .orphanTimeout => Sys2Proof.Machine.execOrphanTimeout s
  | .inputSag => Sys2Proof.Machine.execInputSag s
  | .inputRecover => Sys2Proof.Machine.execInputRecover s
  | .undervoltage => Sys2Proof.Machine.execUndervoltage s
  | .overvoltage => Sys2Proof.Machine.execOvervoltage s
  | .ctxResetRequest c => Sys2Proof.Machine.execCtxResetRequest c s
  | .autoResetTimer c => Sys2Proof.Machine.execAutoResetTimer c s
  | .engineWorkRemoved c e => Sys2Proof.Machine.execEngineWorkRemoved c e s
  | .partitionResetRequest p => Sys2Proof.Machine.execPartitionResetRequest p s
  | .ladderStepTimeout job => Sys2Proof.Machine.execLadderStepTimeout job s
  | .logSelWrite v => Sys2Proof.Machine.execLogSelWrite v s
  | .fpDefectAdd t => Sys2Proof.Machine.execFpDefectAdd t s
  | .fpDefectRemove t => Sys2Proof.Machine.execFpDefectRemove t s
  | .felmosHeartbeat box wire => Sys2Proof.Machine.execFelmosHeartbeat box wire s
  | .felmosCheckpoint => Sys2Proof.Machine.execFelmosCheckpoint s
  | .watchdogPathMiss box wire => Sys2Proof.Machine.execWatchdogPathMiss box wire s
  | .fatalErrorSignal => Sys2Proof.Machine.execFatalErrorSignal s
  | .standbyTakeoverDone crc0 crc1 => Sys2Proof.Machine.execStandbyTakeoverDone crc0 crc1 s
  | .coreSelftestDone core ok => Sys2Proof.Machine.execCoreSelftestDone core ok s
  | .i3cAddressAssign addr => Sys2Proof.Machine.execI3cAddressAssign addr s
  | .mctpSetEndpointId rq eid => Sys2Proof.Machine.execMctpSetEndpointId rq eid s
  | .pldmGetTid rq => Sys2Proof.Machine.execPldmGetTid rq s
  | .pldmSetTid rq tid => Sys2Proof.Machine.execPldmSetTid rq tid s
  | .pldmGetPldmTypes rq => Sys2Proof.Machine.execPldmGetPldmTypes rq s
  | .pldmGetPldmVersion rq typ => Sys2Proof.Machine.execPldmGetPldmVersion rq typ s
  | .pldmGetPldmCommands rq typ => Sys2Proof.Machine.execPldmGetPldmCommands rq typ s
  | .pldmGetPdr rq handle => Sys2Proof.Machine.execPldmGetPdr rq handle s
  | .pldmGetSensorReading rq id => Sys2Proof.Machine.execPldmGetSensorReading rq id s
  | .pldmGetStateSensorReadings rq id => Sys2Proof.Machine.execPldmGetStateSensorReadings rq id s
  | .pldmGetNumericEffecterValue rq id => Sys2Proof.Machine.execPldmGetNumericEffecterValue rq id s
  | .pldmSetEventReceiver rq eid => Sys2Proof.Machine.execPldmSetEventReceiver rq eid s
  | .pldmGetFruRecordTable rq => Sys2Proof.Machine.execPldmGetFruRecordTable rq s
  | .setRackCap rq w => Sys2Proof.Machine.execSetRackCap rq w s
  | .setOrphanCap rq w => Sys2Proof.Machine.execSetOrphanCap rq w s
  | .setRackOff rq v => Sys2Proof.Machine.execSetRackOff rq v s
  | .setLocateLed rq v => Sys2Proof.Machine.execSetLocateLed rq v s
  | .sidebandEjectRequest rq => Sys2Proof.Machine.execSidebandEjectRequest rq s
  | .sidebandEjectCancel rq => Sys2Proof.Machine.execSidebandEjectCancel rq s
  | .platformEventAck boot fseq => Sys2Proof.Machine.execPlatformEventAck boot fseq s
  | .svcIdentify req crc => Sys2Proof.Machine.execSvcIdentify req crc s
  | .svcStageOpen req crc slot => Sys2Proof.Machine.execSvcStageOpen req crc slot s
  | .stageEraseDone => Sys2Proof.Machine.execStageEraseDone s
  | .svcStageWrite req crc off data => Sys2Proof.Machine.execSvcStageWrite req crc off data s
  | .svcStageRead req crc slot off len => Sys2Proof.Machine.execSvcStageRead req crc slot off len s
  | .svcActivate req crc cold => Sys2Proof.Machine.execSvcActivate req crc cold s
  | .svcStatus req crc => Sys2Proof.Machine.execSvcStatus req crc s
  | .svcLogRead req crc off => Sys2Proof.Machine.execSvcLogRead req crc off s
  | .svcConfigWrite req crc data => Sys2Proof.Machine.execSvcConfigWrite req crc data s
  | .svcLicenceWrite req crc off data => Sys2Proof.Machine.execSvcLicenceWrite req crc off data s
  | .svcRepairAdd req crc data => Sys2Proof.Machine.execSvcRepairAdd req crc data s
  | .stagingSessionTimeout => Sys2Proof.Machine.execStagingSessionTimeout s
  | .fwActivate => Sys2Proof.Machine.execFwActivate s
  | .fwActivateCold => Sys2Proof.Machine.execFwActivateCold s
  | .fwConfirm => Sys2Proof.Machine.execFwConfirm s
  | .fwAbort => Sys2Proof.Machine.execFwAbort s
  | .activationVerifyDone => Sys2Proof.Machine.execActivationVerifyDone s
  | .activationBootDone => Sys2Proof.Machine.execActivationBootDone s
  | .shadowLoadDone ok => Sys2Proof.Machine.execShadowLoadDone ok s
  | .activationCommit => Sys2Proof.Machine.execActivationCommit s
  | .unitBankSwitch u => Sys2Proof.Machine.execUnitBankSwitch u s
  | .tileBankSwitch t => Sys2Proof.Machine.execTileBankSwitch t s
  | .healthConfirm => Sys2Proof.Machine.execHealthConfirm s
  | .trialTimeout => Sys2Proof.Machine.execTrialTimeout s
  | .ejectRequest => Sys2Proof.Machine.execEjectRequest s
  | .ejectCancel => Sys2Proof.Machine.execEjectCancel s
  | .ejectDrainEnd expired => Sys2Proof.Machine.execEjectDrainEnd expired s
  | .ejectRoutesClear => Sys2Proof.Machine.execEjectRoutesClear s
  | .ejectQuiesceEnd expired => Sys2Proof.Machine.execEjectQuiesceEnd expired s
  | .powerLoss => Sys2Proof.Machine.execPowerLoss s
  | .trainingBurstReceived l => Sys2Proof.Machine.execTrainingBurstReceived l s
  | .snapshotWriteDone => Sys2Proof.Machine.execSnapshotWriteDone s
  | .configMemoryOpDone ok => Sys2Proof.Machine.execConfigMemoryOpDone ok s
  | .recoveryHeartbeat => Sys2Proof.Machine.execRecoveryHeartbeat s

end Sys2Proof.Machine
end

