-- ==== Sys2Proof/Machine/Tick.lean ====
section
/-! DEFINITION. Machine/Tick.lean: what 10 ns of the 100 MHz reference do when no command waits (log entry 4): the time
base (R248 to R250), the cycles of both dies, and the counters of time. -/

namespace Sys2Proof.Machine

/-- R248, R250: how far the time base departs from the reference in this tick, in units of 10⁻⁹, and how much of an offset
is removed, in 10⁻⁸ ns. What lies within a bound of the spec is a free value. -/
def tickRate (s : State) : Int × Int :=
  let r := freeNat s
  if !getB Reg.SYS_TIME_STAT_EVER_LOCKED s then ((r % 200001 : Nat) - 100000, 0)
  else if s.ptp.slew = 0 then (s.ptp.rate, 0)
  else if 0 < s.ptp.slew then
    let d : Int := min s.ptp.slew (r % 100000 + 1 : Nat)
    (s.ptp.rate + d, d)
  else
    let d : Int := min (-s.ptp.slew) (r % 500000 + 1 : Nat)
    (s.ptp.rate - d, -d)

/-- R248 to R250: the time base advances by one period of the reference. It never steps backward (R20). -/
def tickTime (s : State) : State :=
  let r := tickRate s
  let sum := s.tbFrac + (1000000000 + r.1).toNat
  let left := s.ptp.slew - r.2
  let s := tick1 { s with tb := s.tb + sum / 100000000, tbFrac := sum % 100000000, ptp := { s.ptp with slew := left } }
  if left = 0 ∧ getB Reg.SYS_TIME_STAT_BACKWARD_SLEW s then setB Reg.SYS_TIME_STAT_BACKWARD_SLEW false s else s

/-- Hundredths of a cycle that a die makes in 10 ns (R428, R434, R435). -/
def tickCyc (d : Nat) (s : State) : Nat := (clkOf d s).f * clockDuty s / 100

/-- Whole cycles that a die makes in this tick. -/
def tickWhole (d : Nat) (s : State) : Nat :=
  let c := smLook 0 s.cyc d
  (c + tickCyc d s) / 100 - c / 100

/-- R91: the cycles of this tick in which a line request of the tile waited for its bank: a free number of them while a unit
of the tile uses the scratchpad (log entry 57). -/
def bankWaits (t n : Nat) (x : Tile) (s : State) : Nat :=
  if x.mode = .running && !(x.matQ.isEmpty && x.rdQ.isEmpty && x.vecQ.isEmpty && x.xfers.isEmpty && x.crema.isEmpty) then
    (Config.freeValue (s.freeCtr + t)).toNat % (n + 1)
  else 0

/-- R124: the cycle counters of one tile. -/
def tickTile (s : State) (e : Nat × Tile) : State :=
  let d := tileDie e.1
  let n := tickWhole d s
  let f (x : Fld) : Fld := tileF e.1 x
  let s := bump (f Reg.TILE_BANK_WAIT_CYCLES) (bankWaits e.1 n e.2 s) s
  let s := if e.2.mode = .running then bump (f Reg.TILE_BUSY_CYCLES) n s else s
  let s := if waveHeld e.2 then bump (f Reg.TILE_WAVE_HOLD_CYCLES) n s else s
  if e.2.ramp ≠ 0 then bump (f Reg.TILE_RAMP_CYCLES) (min n (e.2.rampAt + 256 - smLook 0 s.cyc d / 100)) s else s

/-- R198: a walker in BLOCKED counts its cycles. -/
def tickWalker (s : State) (w : Nat) : State :=
  if kvwStatus w s % 4 = 2 then bump (kvwF w Reg.KVW_CREDIT_STALL_CYCLES) (tickWhole (w / 8) s) s else s

/-- R313, R321: a link counts how long its direction has been idle; one whose transmit direction is in Fallow or LEGACY_IDLE counts
that time. -/
def tickLink (s : State) (l : Nat) : State :=
  let s := tickIdle l s
  if linkPresent l s ∧ (getLF l Reg.LNK_STATE_FALLOW_TX s = 1 ∨ (getL l s).st = .legacyIdle) then
    bump (lnkF l Reg.LNK_FALLOW_NS) 10 s
  else s

/-- R336, R349: each unit that holds a fenced packet for the responses before it counts its time. -/
def tickFence (s : State) : State :=
  let us := (s.fenced.filterMap fun id => match lookO s.reqs id with
    | some r => if r.fence && fenceHeld id r s then some (unitCode r.unit) else none
    | none => none).eraseDups
  if us.isEmpty then s else bump Reg.FAB_FENCE_HOLD_NS (10 * us.length) s

/-- The dies' cycles. -/
def tickDies (s : State) : State :=
  { s with cyc := smPut 0 (smPut 0 s.cyc 0 (smLook 0 s.cyc 0 + tickCyc 0 s)) 1 (smLook 0 s.cyc 1 + tickCyc 1 s) }

/-- R434: a brake's release eases over 20 µs. -/
def tickEase (s : State) : State := { s with pwr := { s.pwr with ease := s.pwr.ease - 10 } }

/-- The counters of time, and then the cycles: what has been counted lies in earlier cycles from then on (R125). -/
def tickCount (s : State) : State :=
  let s := s.tiles.foldl tickTile s
  let s := { s with freeCtr := s.freeCtr + 272 }
  let s := (List.range 16).foldl tickWalker s
  let s := (List.range 6).foldl tickLink s
  { tickEase (sampleReasons (tickDies (collWaiting 10 (tickFence (tickFec s))))) with sameCyc := [] }

/-- What happens in the rings in 10 ns. -/
def tickRings (s : State) : State := s.rings.foldl (fun s e => ringTick s e.1) s

/-- R334, R338: the router in 10 ns: packets stand at the heads of its buffers, and its local outputs deliver. -/
def tickRouter (s : State) : State := if hubOn s then tickLocal (tickHeads s) else s

/-- One tick. Without power nothing advances. -/
def tick (s : State) : State := if s.powered then freezeLimit (tickCount (tickRouter (tickRings (tickTime s)))) else s

end Sys2Proof.Machine
end

