-- ==== Sys2Proof/Safety.lean ====
section
/-! DEFINITION. Safety.lean: the terms that claims are stated in: what a command answers, which tiles can issue, what a
state keeps, and the invariants. -/

namespace Sys2Proof.Machine

/-- The canonical form of HBM: keys strictly rising, and no byte listed that reads as zero anyway. -/
abbrev Memory.wf (m : SMap Byte) : Prop := smWf 0 m = true

/-- HBM is in its canonical form. -/
abbrev HbmWf (s : State) : Prop := Memory.wf s.hbm

/-- The byte of HBM at a module offset. -/
def hbmByte (o : Nat) (s : State) : Byte := smLook 0 s.hbm o

/-- A step never stops: it answers a next state. -/
def Goes (r : Ans) : Prop := ∃ t, r = .next t

/-- R129, R130, R132, R134: tile `t` runs kernel `k`, its PC names the word `w` of its image, `w` is the instruction `i`
with mnemonic `op`, `i` passes the checks of R132, its guard is on, and every register it reads has been written. -/
structure TileReady (op : TOp) (t : Nat) (k : Kernel) (w : B64) (i : TileWord) (s : State) : Prop where
  kern : (getT t s).kern.bind (getK · s) = some k
  running : (getT t s).mode = .running
  going : (getT t s).stopping = false
  issuing : (getT t s).draining = false
  inside : (getT t s).pc < k.len
  fetched : fetchWord (getT t s) = some w
  split : tileSplit w = some i
  legal : tileWordFault w = none
  isOp : i.op = op
  guarded : guardOn (getT t s) i = true
  free : operandHeld (getT t s) i = false

/-- Tile `t` is as `f` makes it from what it was, past the instruction; nothing else of the module has changed. -/
def issued (t : Nat) (f : Tile → Tile) (s : State) : State := setT t (retire (f (getT t s))) s

/-- The arithmetic cycle that die `d` is in. -/
def cycleOf (d : Nat) (s : State) : Nat := smLook 0 s.cyc d / 100

/-- Tile `t` has queued the vector operation `o` and gone past the instruction. -/
def vecQueued (t : Nat) (o : VecOp) (s : State) : State :=
  issued t (fun x => { x with vecQ := x.vecQ ++ [{ o with seq := x.retired, pc := x.pc }] }) s

/-- Tile `t` has queued the matrix operation `m`, held back as `d` says, and gone past the instruction. -/
def matQueued (t : Nat) (m : MatIss) (d : Drill) (s : State) : State :=
  setT t (queueMat (getT t s) { m with op := { m.op with begun := cycleOf (tileDie t) s } } d) s

/-- No scratchpad word of the tile has an error: every read is clean (R231). -/
abbrev SpClean (t : Nat) (s : State) : Prop := (getT t s).spErr = []

/-- Two states that differ in registers only. -/
def SameButRegs (s t : State) : Prop := { t with regs := s.regs } = s

/-- Two states that differ in the tiles only. -/
def SameButTiles (s t : State) : Prop := { t with tiles := s.tiles } = s

/-- Every register field but those whose keys lie in `[lo, hi)` reads as before. -/
def RegsOutside (lo hi : Nat) (s t : State) : Prop :=
  ∀ (k d : Nat), k < lo ∨ hi ≤ k → smLook d t.regs k = smLook d s.regs k

/-- Link `l` is present, in state `st`, and no snapshot freeze holds its state (R280). -/
structure LinkIn (l : Nat) (st : LSt) (s : State) : Prop where
  present : linkPresent l s = true
  open_ : s.frozen = false
  inSt : (getL l s).st = st

/-- R262, R267, R268: ring `r` may start its next command; that command's descriptor is `d`, read without error and leaving
the state `u`; it need not wait for its order; its opcode is `op` and its header keeps the rules. -/
structure CmdReady (op r : Nat) (d : List Byte) (u s : State) : Prop where
  ready : ringReady r s = true
  read : readDesc r (getR r s).next s = (.ok d, u)
  order : dField d 1 1 % 2 = 0 ∨ (getR r s).cmds.any (·.st = .running) = false
  isOp : dField d 0 1 = op
  header : headerOk d = true

/-- The state in which ring `r` has taken the command with descriptor `d` after reading it. -/
def taken (r : Nat) (d : List Byte) (u : State) : State := pushCmd r d u

/-- The side-band can carry a request (R520): the module is powered, its hub is up, a core is active, and no snapshot freeze
holds requests. -/
structure SbOpen (s : State) : Prop where
  powered : s.powered = true
  hub : s.pwr.hubDown = false
  core : s.mgmt.up = true
  open_ : s.frozen = false

/-- The state in which the hub has taken packet `p` off its input. -/
def hubTook (p : Packet) (s : State) : State := { s with hubIn := s.hubIn.erase p }

/-- R416, R417: the first packet of a type and phase at the hub is `p`; it belongs to collective `c`, held under number `n`, and
a member of its group sent it. -/
structure CollGot (typ ph : Nat) (p : Packet) (n : Nat) (c : Coll) (s : State) : Prop where
  arrived : collPkt typ ph s = some p
  owner : collFor p (hubTook p s) = some (n, c)
  member : c.members.contains p.src = true

/-- The service port takes request `req` as a new one (R528): the module is powered and not in RECOVERY, its hub is up, a core is
active, no freeze holds requests, no request is in progress, and the last answered one was another. -/
structure SvcOpen (req : B32) (s : State) : Prop where
  powered : s.powered = true
  hub : s.pwr.hubDown = false
  core : s.mgmt.up = true
  open_ : s.frozen = false
  idle : s.mgmt.svcBusy = none
  fresh : ∀ l, s.mgmt.svcLast = some l → l.1 ≠ req.toNat
  booted : inRecovery s = false

end Sys2Proof.Machine
end

