-- ==== Sys2Proof/WellFormed.lean ====
section
/-! DEFINITION. WellFormed.lean: which commands and tile words are well formed: operand lists of the length that the row
means, and packets whose fields fit the header of R326. Every command has a meaning, well formed or not. -/

namespace Sys2Proof

/-- R326: the fields of a packet fit their places in the header, and the payload has the length that LEN says. -/
def Packet.wf (p : Packet) : Bool :=
  p.typ < 2 ^ 8 && p.vc < 8 && p.epoch < 2 && p.hlc < 2 && p.part < 8 && p.hops < 2 ^ 8 && p.dst < 2 ^ 15 &&
  p.src < 2 ^ 15 && p.unit < 2 ^ 12 && p.tag < 2 ^ 16 && p.len < 2 ^ 10 && p.status < 2 ^ 8 && p.addr < 2 ^ 40 &&
  p.group < 2 ^ 12 && p.rlen < 2 ^ 10 && p.ctrl < 2 ^ 8 && p.data.length == p.len

/-- R300: the fields of a control word fit, and the group's packets are well formed. -/
def Group.wf (g : Group) : Bool :=
  g.seq < 2 ^ 16 && g.ack < 2 ^ 16 && g.credA.1 < 8 && g.credB.1 < 8 && g.credA.2 < 2 ^ 13 && g.credB.2 < 2 ^ 13 &&
  g.packets.all Packet.wf && g.body.length ≤ 3056

/-- R290, R297: 24 lanes of 17 blocks of 8 bytes, and whole 16-byte words of packets. -/
def RxGroup.wf (r : RxGroup) : Bool :=
  r.lanes.length == 24 && (r.lanes.all fun l => l.length == 17 && l.all fun b => b.bytes.length == 8) && r.used ≤ 3056 &&
  r.used % 16 == 0

/-- R131, R137: the fields of a tile word are those of its mnemonic's form. -/
def TileWord.wf (i : TileWord) : Bool := Machine.tileFormOk i

/-- Is a command well formed? -/
def Instr.wf : Instr → Bool
  | .blockLockDone _ lanes _ hdrs => lanes.length == 24 && hdrs.length == 24
  | .blockLockLost _ _ hdrs => hdrs.length == 64
  | .eqFineDone _ errs => errs.length == 24
  | .groupReceived _ rx => rx.wf
  | .partitionAllocate demands _ use => demands.length == 8 && use.length == 8
  | .thermalModelTick readings models => readings.length == 64 && models.length == 64
  | .rdmaReadReceived _ _ _ _ _ len => len.toNat ≤ 2 ^ 31
  | .rdmaWriteReceived _ _ _ _ _ data => data.length ≤ 2 ^ 31
  | .svcConfigWrite _ _ data => data.length ≤ 1024
  | .svcLicenceWrite _ _ _ data => data.length ≤ 1024
  | .svcRepairAdd _ _ data => data.length ≤ 1024
  | .svcStageWrite _ _ _ data => data.length ≤ 1024
  | .ptpAnnounceReceived _ _ iv => 0 < iv
  | .linkDegradedCheck _ _ corrected bytes => corrected ≤ bytes
  | .pldmGetPdr _ handle => handle < 2 ^ 32
  | .pldmGetSensorReading _ id => id < 2 ^ 16
  | .pldmGetStateSensorReadings _ id => id < 2 ^ 16
  | .pldmGetNumericEffecterValue _ id => id < 2 ^ 16
  | _ => true

end Sys2Proof
end

