-- ==== Sys2Proof/Certificates/Slice0/Obligations.lean ====
section
/-! DEFINITION. Certificates/Slice0/Obligations.lean: the statements for the provers. A statement whose conclusion is
`exec c s = .next t` says what the command does and, since `t` is written as the change made to `s`, that it changes
nothing else. -/

open Sys2Proof Sys2Proof.Machine

/-! ### The step -/

/-- A step with command `c` at the front of the queue is `c`'s meaning on the state with the queue's rest. -/
def Obligations.StepTakesFront : Prop :=
  ∀ (c : Instr) (rest : List Instr) (s : State),
    step { s with pending := c :: rest } = exec c { s with pending := rest }

/-- Every command answers a next state from every state, and reset leaves the always-on domain unpowered, the queue empty,
nothing listed in HBM, every register field at its reset value, tiles, rings and links as they are without power, and every
context FREE (R14, R227, R568; the loading is log entry 1, the model's choice). On an empty queue a powered module lets 10 ns of
its reference pass (log entry 4, the model's choice): the time base goes on by 10 ns at the rate of the tick, carried exactly in
units of 10⁻⁸ ns, and never back (R250), and with no ring listed, no packet waiting and no freeze, HBM and the tiles stay; an
unpowered module stays as it is. -/
def Obligations.ResetAndIdle : Prop :=
  (∀ (c : Instr) (s : State), Goes (exec c s)) ∧
  (State.reset.powered = false ∧ State.reset.pending = [] ∧ HbmWf State.reset ∧
    (∀ f : Fld, getF f State.reset = f.rst) ∧ (∀ o, hbmByte o State.reset = 0) ∧ (∀ t, getT t State.reset = {}) ∧
    (∀ r, getR r State.reset = {}) ∧ (∀ l, getL l State.reset = {}) ∧ (∀ c, (getC c State.reset).st = .free)) ∧
  (∀ s : State,
    (s.pending = [] → s.powered = false → step s = .next s) ∧
    (s.pending = [] → s.powered = true → step s = .next (freezeLimit (tickCount (tickRouter (tickRings (tickTime s)))))) ∧
    (s.tb ≤ (tickTime s).tb ∧ (tickTime s).tb = s.tb + (s.tbFrac + (1000000000 + (tickRate s).1).toNat) / 100000000 ∧
      (tickTime s).tbFrac = (s.tbFrac + (1000000000 + (tickRate s).1).toNat) % 100000000) ∧
    (s.pending = [] → s.powered = true → s.frozen = false → s.rings = [] → s.outQ = [] → ∃ t, step s = .next t ∧
      t.tb = (tickTime s).tb ∧ t.hbm = s.hbm ∧ t.rings = [] ∧ t.tiles = s.tiles ∧ t.flash = s.flash))

/-! ### Tile instructions -/

/-- The register files of R126: S0 reads as zero and drops writes, P0 reads as 1 and drops writes, and every other
register reads back what was last written to it and nothing else. MFSR (R140): Sd receives the special value that IMM names: the
logical and physical tile number, the kernel's tile count, the own chip, a timestamp of the arithmetic domain, the cycles since
the start, the argument address, the context, the LFSR and the precision word. Only Sd and the record of that timestamp change. -/
def Obligations.RegisterFiles : Prop :=
  (∀ (t : TileId) (k : Kernel) (w : B64) (i : TileWord) (s : State) (d a : BitVec 6) (fn : BitVec 8) (imm : BitVec 32),
    TileReady .mfsr t k w i s → i.args = .i d a fn imm → imm.toNat ≤ 9 →
    exec (.mfsr t) s = .next (stampUse .arith (issued t (fun x => wrS x d.toNat (BitVec.ofNat 64
      ([x.logical, k.count, t.val, ownChip s % 32768, stampVal .arith s, cycleOf (tileDie t) s - x.startCyc,
        k.arg, x.ctx, x.lfsr.toNat, x.prec.toNat].getD imm.toNat 0))) s))) ∧
  (∀ (x : Tile) (v : B64), rdS x 0 = 0 ∧ wrS x 0 v = x) ∧
  (∀ (x : Tile) (b : Bool), rdP x 0 = true ∧ wrP x 0 b = x) ∧
  (∀ (x : Tile) (i j : Nat) (v : B64), i ≠ 0 → rdS (wrS x i v) j = if j = i then v else rdS x j) ∧
  (∀ (x : Tile) (i j : Nat) (b : Bool), i ≠ 0 → i < 8 → rdP (wrP x i b) j = if j = i then b else rdP x j) ∧
  (∀ (x : Tile) (i j : Nat) (v : B64), rdA (wrA x i v) j = if j = i then v else rdA x j) ∧
  (∀ (x : Tile) (i j : Nat) (v : BitVec 4096), rdV (wrV x i v) j = if j = i then v else rdV x j)

/-- Scalar arithmetic and comparison (R142): each register and immediate form writes its destination with its function
of the sources, and the tile goes on to the next instruction; no other register and no memory changes. The integer functions, as
arithmetic on the operands' values: the sum and the difference wrap modulo 2^64, shifts take the low six bits of Sb, the product
keeps its low 64 bits, and the four minima and maxima take one of the two operands by signed or unsigned order. -/
def Obligations.ScalarArithmetic : Prop :=
  (∀ (t : TileId) (k : Kernel) (w : B64) (i : TileWord) (s : State),
    (∀ d a b c fn, i.args = .g d a b c fn →
      (TileReady .alu t k w i s → exec (.alu t) s = .next
        (issued t (fun x => wrS x d.toNat (aluFn fn.toNat (rdS x a.toNat) (rdS x b.toNat))) s)) ∧
      (TileReady .cmp t k w i s → exec (.cmp t) s = .next
        (issued t (fun x => wrP x d.toNat (cmpFn fn.toNat (rdS x a.toNat) (rdS x b.toNat))) s)) ∧
      (TileReady .plog t k w i s → exec (.plog t) s = .next
        (issued t (fun x => wrP x d.toNat (plogFn fn.toNat (rdP x a.toNat) (rdP x b.toNat))) s)) ∧
      (TileReady .fpu t k w i s → exec (.fpu t) s = .next
        (issued t (fun x => wrS x d.toNat (fpuFn fn.toNat (rdS x a.toNat) (rdS x b.toNat) (rdS x c.toNat))) s)) ∧
      (TileReady .fcmp t k w i s → exec (.fcmp t) s = .next
        (issued t (fun x => wrP x d.toNat (fcmpFn fn.toNat (rdS x a.toNat) (rdS x b.toNat))) s))) ∧
    (∀ d a fn imm, i.args = .i d a fn imm →
      (TileReady .alui t k w i s → exec (.alui t) s = .next
        (issued t (fun x => wrS x d.toNat (aluFn fn.toNat (rdS x a.toNat) (imm.signExtend 64))) s)) ∧
      (TileReady .cmpi t k w i s → exec (.cmpi t) s = .next
        (issued t (fun x => wrP x d.toNat (cmpFn fn.toNat (rdS x a.toNat) (imm.signExtend 64))) s)))) ∧
  (∀ a b : B64,
    (aluFn 0 a b).toNat = (a.toNat + b.toNat) % 2 ^ 64 ∧
    (aluFn 1 a b).toNat = (a.toNat + (2 ^ 64 - b.toNat)) % 2 ^ 64 ∧
    (∀ n < 64, (aluFn 2 a b).getLsbD n = (a.getLsbD n && b.getLsbD n) ∧
      (aluFn 3 a b).getLsbD n = (a.getLsbD n || b.getLsbD n) ∧ (aluFn 4 a b).getLsbD n = (a.getLsbD n != b.getLsbD n)) ∧
    (aluFn 5 a b).toNat = a.toNat * 2 ^ (b.toNat % 64) % 2 ^ 64 ∧
    (aluFn 6 a b).toNat = a.toNat / 2 ^ (b.toNat % 64) ∧
    (aluFn 7 a b).toInt = a.toInt / 2 ^ (b.toNat % 64) ∧
    (aluFn 8 a b).toNat = a.toNat * b.toNat % 2 ^ 64 ∧
    (aluFn 9 a b).toInt = min a.toInt b.toInt ∧ (aluFn 10 a b).toInt = max a.toInt b.toInt ∧
    (aluFn 11 a b).toNat = min a.toNat b.toNat ∧ (aluFn 12 a b).toNat = max a.toNat b.toNat ∧
    (cmpFn 0 a b = decide (a.toNat = b.toNat)) ∧ (cmpFn 1 a b = decide (a.toNat ≠ b.toNat)) ∧
    (cmpFn 2 a b = decide (a.toInt < b.toInt)) ∧ (cmpFn 3 a b = decide (b.toInt ≤ a.toInt)) ∧
    (cmpFn 4 a b = decide (a.toNat < b.toNat)) ∧ (cmpFn 5 a b = decide (b.toNat ≤ a.toNat)))

/-- The moves of R143: MOVI writes the sign-extended immediate, MOVHI replaces the upper half of Sd and keeps the lower,
AMOV and MOVA copy between the scalar and the address file, and ADDA adds the sign-extended immediate modulo 2^64. -/
def Obligations.Moves : Prop :=
  ∀ (t : TileId) (k : Kernel) (w : B64) (i : TileWord) (s : State),
    (∀ d a fn imm, i.args = .i d a fn imm →
      (TileReady .movi t k w i s → exec (.movi t) s = .next (issued t (fun x => wrS x d.toNat (imm.signExtend 64)) s)) ∧
      (TileReady .movhi t k w i s → exec (.movhi t) s = .next
        (issued t (fun x => wrS x d.toNat (BitVec.ofNat 64 (imm.toNat * 2 ^ 32 + (rdS x d.toNat).toNat % 2 ^ 32))) s)) ∧
      (TileReady .adda t k w i s → exec (.adda t) s = .next
        (issued t (fun x => wrA x d.toNat (rdA x a.toNat + imm.signExtend 64)) s))) ∧
    (∀ d a b c fn, i.args = .g d a b c fn →
      (TileReady .amov t k w i s → exec (.amov t) s = .next (issued t (fun x => wrA x d.toNat (rdS x a.toNat)) s)) ∧
      (TileReady .mova t k w i s → exec (.mova t) s = .next (issued t (fun x => wrS x d.toNat (rdA x a.toNat)) s)))

/-- NOP, END, BR and LFSRLD (R137 to R139, R141): NOP only goes on; END starts the drain, in which no instruction issues; BR goes
to its own PC + IMM × 8, or, for a target outside the image, faults with FETCH_FAULT, its own PC and the target; LFSRLD loads
Sa[31:0], or 1 for zero. What keeps an instruction from its effect (R130, R132, R134): a word that R132 forbids faults the tile
whatever its guard, a guard that is off lets the tile go on with no effect (counted as retired: log entry 74, the model's choice),
and an operand with a write still to come makes it wait, which changes nothing and reads as wait kind 2. -/
def Obligations.SequencerControl : Prop :=
  (∀ (t : TileId) (k : Kernel) (w : B64) (i : TileWord) (s : State),
    (TileReady .nop t k w i s → exec (.nop t) s = .next (issued t id s)) ∧
    (TileReady .endOp t k w i s → exec (.endOp t) s = .next (setT t { retire (getT t s) with draining := true } s)) ∧
    (∀ d a b c fn, i.args = .g d a b c fn → TileReady .lfsrld t k w i s → exec (.lfsrld t) s = .next
      (issued t (fun x => { x with
        lfsr := (if (rdS x a.toNat).toNat % 2 ^ 32 = 0 then 1 else BitVec.ofNat 32 (rdS x a.toNat).toNat) }) s)) ∧
    (∀ d a fn imm, i.args = .i d a fn imm → TileReady .br t k w i s →
      (0 ≤ (getT t s).pc + imm.toInt * 8 → (getT t s).pc + imm.toInt * 8 < k.len → exec (.br t) s = .next
        (setT t { retire (getT t s) with pc := ((getT t s).pc + imm.toInt * 8).toNat } s)) ∧
      ((getT t s).pc + imm.toInt * 8 < 0 ∨ (k.len : Int) ≤ (getT t s).pc + imm.toInt * 8 → exec (.br t) s = .next
        (tileFault t .fetchFault (getT t s).pc (BitVec.ofInt 64 ((getT t s).pc + imm.toInt * 8)).toNat s)))) ∧
  (∀ (t : TileId) (k : Kernel) (w : B64) (i : TileWord) (s : State),
    (getT t s).kern.bind (getK · s) = some k → (getT t s).mode = .running → (getT t s).stopping = false →
    (getT t s).draining = false → (getT t s).pc < k.len → fetchWord (getT t s) = some w → tileSplit w = some i → i.op = .alu →
    (∀ c, tileWordFault w = some c → exec (.alu t) s = .next (tileFault t c (getT t s).pc w.toNat s)) ∧
    (tileWordFault w = none → guardOn (getT t s) i = false → exec (.alu t) s = .next (issued t id s)) ∧
    (tileWordFault w = none → guardOn (getT t s) i = true → operandHeld (getT t s) i = true →
      exec (.alu t) s = .next s ∧ ((getT t s).fetching = none → (getT t s).waitf = none → seqWait t s = 2)))

/-- LD and ST (R144): 1, 2, 4 or 8 bytes, little-endian, at BASE + IMM of the own scratchpad; LD extends with zeros or
the sign, ST stores the low bytes of Sd. An access that is not wholly inside 0x0 to 0x17_FFFF faults
with OPERAND_RANGE. Every scratchpad byte outside the stored ones reads as before. -/
def Obligations.ScalarLoadStore : Prop :=
  ∀ (t : TileId) (k : Kernel) (w : B64) (i : TileWord) (s : State) (d a : BitVec 6) (fn : BitVec 8) (imm : BitVec 32) (z : Int),
    i.args = .i d a fn imm → SpClean t s →
    (rdA (getT t s) a.toNat).extractLsb' 21 11 = 0 → (rdA (getT t s) a.toNat).extractLsb' 52 12 = 0 →
    z = ((rdA (getT t s) a.toNat).extractLsb' 0 21).toNat + imm.toInt →
    (∀ o : Nat, (o : Int) = z → o + 2 ^ (fn.toNat % 4) ≤ 0x180000 →
    (TileReady .ld t k w i s → lineHeld (getT t s) [(o, 2 ^ (fn.toNat % 4))] [] = false →
      exec (.ld t) s = .next (issued t (fun x => wrS x d.toNat
        (if fn.toNat / 4 % 2 = 1
          then (BitVec.ofNat (8 * 2 ^ (fn.toNat % 4)) (leNat (spBytes x o (2 ^ (fn.toNat % 4))))).signExtend 64
          else BitVec.ofNat 64 (leNat (spBytes x o (2 ^ (fn.toNat % 4)))))) s)) ∧
    (TileReady .st t k w i s → lineHeld (getT t s) [] [(o, 2 ^ (fn.toNat % 4))] = false →
      exec (.st t) s = .next (issued t (fun x => spPut x o (leBytes (2 ^ (fn.toNat % 4)) (rdS x d.toNat).toNat)) s) ∧
      (∀ n < 2 ^ (fn.toNat % 4), smLook 0 (spPut (getT t s) o (leBytes (2 ^ (fn.toNat % 4)) (rdS (getT t s) d.toNat).toNat)).sp (o + n)
        = BitVec.ofNat 8 ((rdS (getT t s) d.toNat).toNat / 256 ^ n)) ∧
      (∀ b, b < o ∨ o + 2 ^ (fn.toNat % 4) ≤ b →
        smLook 0 (spPut (getT t s) o (leBytes (2 ^ (fn.toNat % 4)) (rdS (getT t s) d.toNat).toNat)).sp b = smLook 0 (getT t s).sp b))) ∧
    (z < 0 ∨ 0x180000 < z + 2 ^ (fn.toNat % 4) → ∀ v, v = (BitVec.ofInt 64 z).toNat →
      (TileReady .ld t k w i s → exec (.ld t) s = .next (tileFault t .operandRange (getT t s).pc v s)) ∧
      (TileReady .st t k w i s → exec (.st t) s = .next (tileFault t .operandRange (getT t s).pc v s)))

/-- Vector instructions on registers (R145 to R147, R154, R155): with a free place in the vector engine's queue, the
instruction queues one operation with its results and its cycles, and the tile goes on. Nothing else changes; a pair of registers
that would end in V64 faults with OPERAND_RANGE. -/
def Obligations.VectorIssue : Prop :=
  ∀ (t : TileId) (k : Kernel) (w : B64) (i : TileWord) (s : State) (d a b c : BitVec 6) (fn : BitVec 8) (x : Tile) (n z : Nat)
    (va vb vc : BitVec 4096) (g : Nat → B32), i.args = .g d a b c fn → x = getT t s → x.vecQ.length < 4 → n = fn.toNat → z = d.toNat →
    va = rdV x a.toNat → vb = rdV x b.toNat → vc = rdV x c.toNat → (∀ j, g j = lo32 (rdS x j)) →
    (TileReady .valu t k w i s → exec (.valu t) s = .next (vecQueued t (vecV z (valuFn n va vb vc) 1) s)) ∧
    (TileReady .vsfu t k w i s → exec (.vsfu t) s = .next (vecQueued t (vecV z (of32 ((lanes32 va).map (sfuf n))) 4) s)) ∧
    (TileReady .vbcast t k w i s → exec (.vbcast t) s = .next (vecQueued t (vecV z (vbcastFn n (rdS x a.toNat)) 1) s)) ∧
    (TileReady .vred t k w i s → exec (.vred t) s = .next
      (vecQueued t ⟨[(z, (vredFn n va).setWidth 64, true)], [], [], 0, 0, 1, [], [], 0, 0⟩ s)) ∧
    (TileReady .valus t k w i s → exec (.valus t) s = .next (vecQueued t (vecV z (valuFn n va
      (if n % 2 = 0 then of32 (List.replicate 128 (g b.toNat))
        else of16 (List.replicate 256 (cvt32Bf (g b.toNat)))) vc) 1) s)) ∧
    (TileReady .vcvt t k w i s → n % 2 = 1 → z < 63 → exec (.vcvt t) s = .next (vecQueued t
      ⟨[], [(z, (vcvtUp n va).1), (z + 1, (vcvtUp n va).2)], [], 0, 0, 2, [], [], 0, 0⟩ s)) ∧
    (∀ r y, y = b.toNat → r = smxuFn va (g y) (g (y + 1)) → TileReady .smxu t k w i s → 1 ≤ y → y ≤ 29 →
      exec (.smxu t) s = .next (vecQueued t ⟨[(y, r.2.1.setWidth 64, true), (y + 1, r.2.2.1.setWidth 64, true),
        (y + 2, r.2.2.2.setWidth 64, true)], [(z, r.1)], [], 0, 0, 8, [], [], 0, 0⟩ s)) ∧
    (∀ r e f, e = a.toNat → f = b.toNat → TileReady .smxm t k w i s → 1 ≤ e → e ≤ 30 → 1 ≤ f → f ≤ 30 → 1 ≤ z → z ≤ 28 →
      r = smxmFn (g e) (g (e + 1)) (g f) (g (f + 1)) →
      exec (.smxm t) s = .next (vecQueued t ⟨[(z, r.1.setWidth 64, true), (z + 1, r.2.1.setWidth 64, true),
        (z + 2, r.2.2.1.setWidth 64, true), (z + 3, r.2.2.2.setWidth 64, true)], [], [], 0, 0, 2, [], [], 0, 0⟩ s)) ∧
    (TileReady .vcvt t k w i s → n % 2 = 0 →
      (a.toNat < 63 → exec (.vcvt t) s = .next (vecQueued t (vecV z (vcvtDown n va (rdV x (a.toNat + 1))) 2) s)) ∧
      (a.toNat = 63 → exec (.vcvt t) s = .next (tileFault t .operandRange x.pc w.toNat s)))

/-- Vector loads and stores and the narrow formats (R148 to R150): VLD and VST move 512 bytes at an aligned offset; VDQ
queues the dequantised register and VQNT the quantised bytes, each advancing its element and scale pointers by what it
consumes, with VQNT stepping the LFSR at issue. -/
def Obligations.VectorMemory : Prop :=
  ∀ (t : TileId) (k : Kernel) (w : B64) (i : TileWord) (s : State) (x : Tile), SpClean t s → x = getT t s → x.vecQ.length < 4 →
    (∀ d a fn imm o, i.args = .i d a fn imm → vecOffset (rdA x a.toNat) imm = .ok o →
      (TileReady .vld t k w i s → lineHeld x [(o, 512)] [] = false → exec (.vld t) s = .next
        (vecQueued t ⟨[], [(d.toNat, ofBytes (spBytes x o 512))], [], 0, 0, 2, [(o, 512)], [], 0, 0⟩ s)) ∧
      (TileReady .vst t k w i s → lineHeld x [] [(o, 512)] = false → exec (.vst t) s = .next
        (vecQueued t ⟨[], [], [(o, vBytes (rdV x d.toNat))], 0, 0, 2, [], [(o, 512)], 0, 0⟩ s))) ∧
    (∀ d a b c fn f n er sr, i.args = .g d a b c fn →
      (TileReady .vqnt t k w i s → vqPtrs (tileEnv t k w s) x a b fn.toNat vqntFmt = .ok (f, n, er, sr) →
        lineHeld x [] [er, sr] = false → ∀ q, q = quantRun f (pcStoch x.prec) (pcCeil x.prec)
          (if n = 128 then lanes32 (rdV x d.toNat) else (lanes16 (rdV x d.toNat)).map cvtBf32) ⟨x.lfsr, 0, 0⟩ →
        exec (.vqnt t) s = .next (modT t (fun y => vqAdvance { y with lfsr := q.2.2.lfsr } a b er sr) (vecQueued t
          ⟨[], [], [(er.1, q.1), (sr.1, q.2.1)], q.2.2.sat, q.2.2.nanz, if n = 128 then 1 else 2, [], [er, sr], 0, 0⟩ s))) ∧
      (TileReady .vdq t k w i s → vqPtrs (tileEnv t k w s) x a b fn.toNat vdqFmt = .ok (f, n, er, sr) →
        lineHeld x [er, sr] [] = false → ∀ g, g = ((fmtGroups f n (spBytes x er.1 er.2) (spBytes x sr.1 sr.2)).map grpVals).flatten →
        exec (.vdq t) s = .next (modT t (fun y => vqAdvance y a b er sr) (vecQueued t ⟨[], [(d.toNat,
          if n = 128 then of32 (g.map (enc32 (seed2 14 0 0))) else of16 (g.map (encBf (seed2 14 0 0))))],
          [], 0, 0, 1, [er, sr], [], 0, 0⟩ s))))

/-- Matrix instructions (R97, R105, R106, R117, R121): an operation that passes the checks of R98 to R106 is queued with its
results; a start that nothing holds back is admitted, and one that finds others waiting or no room waits; ACCRD queues a read-out.
Nothing is written to the accumulators or the scratchpad at issue.
A tile's DMA engine (R109, R153, R236, R332): the next piece of a transfer is asked for when its address passes its check, and
else the tile faults; a cached copy whose parity fails is discarded first; read data comes for the lines that it fills. -/
def Obligations.MatrixAndDma : Prop :=
  (∀ (t : TileId) (k : Kernel) (w : B64) (i : TileWord) (s : State) (d : Nat), SpClean t s → d = tileDie t →
    (∀ x, issAccrd (tileEnv t k w s) i (getT t s) = .go x → TileReady .accrd t k w i s →
      exec (.accrd t) s = .next (setT t x s) ∧ x.acc = (getT t s).acc ∧ x.sp = (getT t s).sp ∧
      x.rdQ.length = (getT t s).rdQ.length + 1 ∧ x.pc = (getT t s).pc + 8) ∧
    (∀ m, issMat true (tileEnv t k w s) i (getT t s) = .go m → m.skipped = false → isStart t s = false →
      TileReady .qmmul t k w i s → exec (.qmmul t) s = .next (matQueued t m .none s)) ∧
    (∀ m, issMat false (tileEnv t k w s) i (getT t s) = .go m → m.skipped = false → TileReady .mmul t k w i s →
      (isStart t s = false → exec (.mmul t) s = .next (matQueued t m .none s)) ∧
      (isStart t s = true → drillOffset s = 0 →
        (getF (drillHeld d) s = 0 → drillRoom d s = true → exec (.mmul t) s = .next (drillAdmit t (matQueued t m .none s))) ∧
        (getF (drillHeld d) s ≠ 0 ∨ drillRoom d s = false →
          exec (.mmul t) s = .next (drillWait d (matQueued t m (.admission (cycleOf d s)) s)))))) ∧
  (∀ (t : TileId) (id : Nat) (f : DmaXfer) (s : State) (x : Tile), x = getT t s → x.xfers.find? (·.id = id) = some f →
    x.mode = .running → x.stopping = false →
    (∀ n r sp data, lookO s.reqs n = some r → r.unit = .dma t id sp → r.stage = .done .ok data →
      exec (.responseReceived n) s = .next (dmaTileResp t id sp r .ok data (delReq n s))) ∧
    (f.sent = false → dmaStarted x id = true → (f.write = true ∨ dmaOut x < 128) → ∀ p, p = dmaPiece f →
      (addrOk x.part p.1 p.2.2 f.write s = true → f.write = false →
        exec (.dmaRequestIssue (.tile t id) false) s = .next (makeReq (.dma t id p.2.1) .read p.1 p.2.2 f.fresh
          (f.fence && (dmaStep f p.2.2).sent) x.part
          (setT t { x with xfers := x.xfers.map fun y => if y.id = id then dmaStep f p.2.2 else y } s)).2) ∧
      (addrOk x.part p.1 p.2.2 f.write s = false →
        exec (.dmaRequestIssue (.tile t id) false) s = .next (tileFault t .accessRefused f.pc p.1 s))) ∧
    ((dmaTileRequest t id s).nextReq ≠ s.nextReq → exec (.dmaRequestIssue (.tile t id) true) s = .next
      (dmaTileRequest t id (dmaParity (.tile t id) s))))

/-- The waits of a tile's program (R152, R159 to R161): DMA reads its descriptor and queues one transfer; SIGNAL queues an
increment behind the transfers of the masked groups, applied once those are done; WAITD and WAITS go on when their condition holds
and else wait, with no effect; the event of the condition's coming true does the same as the instruction. -/
def Obligations.TransfersAndSignals : Prop :=
  ∀ (t : TileId) (k : Kernel) (w : B64) (i : TileWord) (s : State) (x : Tile), SpClean t s → x = getT t s →
    (∀ g l n, x.sigQ = g :: l → x.kern = some n → x.stopping = false → (x.xfers.any fun f => g.waits.contains f.id) = false →
      exec (.signalIncrementApplied t) s = .next (modK n (fun y => { y with ctrs := smMod 0 y.ctrs g.ctr fun n => min (n + 1) (2 ^ 32 - 1) })
        (setT t { x with sigQ := l } s))) ∧
    (∀ d a fn imm, i.args = .i d a fn imm →
      (TileReady .waitd t k w i s → ∀ b, b = groupBusy x (imm.toNat % 256) →
        (b = false → exec (.waitd t) s = .next (issued t id s) ∧ exec (.waitdSatisfied t) s = .next (issued t id s)) ∧
        (b = true → exec (.waitd t) s = .next s ∧ exec (.waitdSatisfied t) s = .next s)) ∧
      (TileReady .signal t k w i s → x.sigQ.length < 4 → exec (.signal t) s = .next (issued t (fun y => { y with
        sigQ := y.sigQ ++ [⟨imm.toNat % 16, (y.xfers.filter fun f => (imm.toNat / 256 % 256).testBit f.group).map (·.id)⟩] }) s)) ∧
      (∀ p dd (o : Nat), TileReady .dma t k w i s → spPtr (rdA x a.toNat) = some p → (o : Int) = p.1 + imm.toInt →
        o % 64 = 0 → o + 64 ≤ spSize → lineHeld x [(o, 64)] [] = false → dmaDesc (spBytes x o 64) = some dd →
        dmaInRange dd = true → x.xfers.length < 16 → exec (.dma t) s = .next (issued t (fun y => { y with
          xfers := y.xfers ++ [⟨y.nextXfer, fn.toNat % 8, fn.toNat / 8 % 2 = 1, fn.toNat / 16 % 2 = 1, fn.toNat / 32 % 2 = 1,
            dd, y.pc, 0, 0, 0, false, [], []⟩], nextXfer := y.nextXfer + 1 }) s))) ∧
    (∀ d a b c fn, i.args = .g d a b c fn → TileReady .waits t k w i s →
      ((rdS x a.toNat).toNat % 2 ^ 32 ≤ signalCtr t (fn.toNat % 16) s →
        exec (.waits t) s = .next (issued t id s) ∧ exec (.waitsSatisfied t) s = .next (issued t id s)) ∧
      (signalCtr t (fn.toNat % 16) s < (rdS x a.toNat).toNat % 2 ^ 32 → exec (.waits t) s = .next s))

/-- What a tile asks of the memory (R156, R157, R162): ACQ acts on the own die's cache; WAITF makes its first poll,
and another once 256 ns have passed; ATOM queues one request for this module's HBM, and when its old value returns Sd is
written. Times are measured as log entry 75 says (the model's choice). -/
def Obligations.MemoryInstructions : Prop :=
  ∀ (t : TileId) (k : Kernel) (w : B64) (i : TileWord) (s : State) (x : Tile), SpClean t s → x = getT t s →
    (∀ id r a data d, lookO s.reqs id = some r → x.atoms.find? (·.req = id) = some a → r.stage = .done .ok data →
      a.rd = some d → a.live = true → d ≠ 0 → ∃ u, exec (.atomReturn t id) s = .next u ∧
        rdS (getT t u) d = BitVec.ofNat 64 (leNat data) ∧ (∀ j, j ≠ d → rdS (getT t u) j = rdS x j) ∧
        (getT t u).atoms.map (·.req) = (x.atoms.map (·.req)).filter (· ≠ id) ∧ lookO u.reqs id = none ∧ u.hbm = s.hbm) ∧
    (∀ f, x.waitf = some f → f.req = none → timerDue .pollFlag t 256 s = true →
      (addrOk x.part f.addr 8 false s = true → exec (.waitfPoll t) s = .next (pollWaitf t f s)) ∧
      (addrOk x.part f.addr 8 false s = false → exec (.waitfPoll t) s = .next (tileFault t .accessRefused x.pc f.addr s))) ∧
    (∀ d a b c fn g, i.args = .g d a b c fn → g = (rdA x a.toNat).toNat →
      (TileReady .acq t k w i s → fn.toNat ≠ 2 ∨ gOff (g % 2 ^ 55) + (rdS x c.toNat).toNat ≤ 2 ^ 40 → exec (.acq t) s = .next
        (modT t retire (acquire (tileDie t) fn.toNat ((rdS x b.toNat).toNat % 32768) (g % 2 ^ 55) (rdS x c.toNat).toNat s))) ∧
      (TileReady .waitf t k w i s → x.waitf = none → g % 8 = 0 → addrOk x.part g 8 false s = true →
        exec (.waitf t) s = .next (pollWaitf t ⟨g, rdS x b.toNat, rdS x c.toNat, fn.toNat, none⟩ s)) ∧
      (∀ n, TileReady .atom t k w i s → n = (if fn.toNat / 8 % 2 = 1 then 8 else 4) → g < 2 ^ 55 → gChip g = ownChip s →
        gOff g < hbmEnd → hbmBacked (gOff g) n s = true → gOff g % n = 0 → winOk x.part (gOff g) n true true s = true →
        x.atoms.length < 8 → ∃ u, exec (.atom t) s = .next u ∧ u.nextReq = s.nextReq + 1 ∧ (getT t u).pc = x.pc + 8 ∧
          u.hbm = s.hbm ∧ (getT t u).atoms.map (·.req) = x.atoms.map (·.req) ++ [s.nextReq] ∧
          lookO u.reqs s.nextReq = some ⟨.atom t, .atomic (fn.toNat % 8) (fn.toNat / 8 % 2 = 1) (fn.toNat / 16 % 2 = 1)
            (rdS x b.toNat) (rdS x c.toNat), g, n, true, false, x.part, .queued, []⟩))

/-! ### What the units of a tile do -/

/-- The engines complete (R102, R105 to R107, R118, R124): the executing operation leaves its queue, its results are written to
the accumulators, the registers and the scratchpad, and its work is counted, with the cycles that a ramp adds; a read-out waits for
earlier operations on its rows. A corrected scratchpad word is written back, before bits of it go bad if the command says so (R232,
log entry 17). An instruction block comes, or comes again after its parity has failed, or fails with FETCH_FAULT (R129, R236). -/
def Obligations.EnginesComplete : Prop :=
  ∀ (t : TileId) (s : State) (x : Tile), x = getT t s → x.mode = .running → x.stopping = false →
    (∀ (o : MatOp) (l : List MatOp), x.matQ = o :: l → o.drill = .none → o.copy = [] → o.cut = (0, 0, 0) →
      ∃ u, exec (.matrixOpDone t) s = .next u ∧ getT t u = matLeave t (matSteps o) o (accPut x o.writes) s ∧
        getF (tileF t Reg.TILE_MATRIX_MACS) u =
          min (getF (tileF t Reg.TILE_MATRIX_MACS) s + o.macs) (2 ^ 64 - 1) ∧ u.hbm = s.hbm) ∧
    (∀ (o : RdOp) (l : List RdOp), x.rdQ = o :: l →
      (rdWaits x o = false → exec (.accrdDone t) s = .next (countSat t 0 o.satOut o.nanZ
        (unitWrite t o.pc o.writes (setT t { x with rdQ := l } s)))) ∧
      (rdWaits x o = true → exec (.accrdDone t) s = .next s)) ∧
    (∀ (o : VecOp) (l : List VecOp), x.vecQ = o :: l →
      exec (.vectorOpDone t) s = .next (countSat t o.satQuant 0 o.nanZ (bump (tileF t Reg.TILE_VECTOR_CYCLES) o.cycles
        (unitWrite t o.pc o.spW (setT t (vecApply { x with vecQ := l } o) s))))) ∧
    (∀ (word : Fin 49152) (flips : Nat), x.spFix.contains word.val = true →
      exec (.spCorrectedWriteback t word flips) s = .next (spUpset t word flips (setT t { x with
        spErr := smPut 0 x.spErr word 0, spFix := x.spFix.filter (· ≠ word.val) } s)) ∧ (∀ u, spUpset t word 0 u = u)) ∧
    (∀ id blk r data k u, x.fetching = some id → lookO s.reqs id = some r → r.unit = .icache t blk →
      u = delReq id (setT t { x with fetching := none } s) →
      (r.stage = .done .ok data → x.icache.length < 64 → exec (.icacheFillDone t false) s = .next
        (setT t { x with fetching := none, icache := putO x.icache blk data } u)) ∧
      (r.stage = .done .ok data → x.kern.bind (getK · s) = some k → exec (.icacheFillDone t true) s = .next
        (startFetch t k (bump Reg.MEM_COPY_REFETCH 1 u))) ∧
      (∀ b, r.stage = .done .refused data → exec (.icacheFillDone t b) s = .next (tileFault t .fetchFault x.pc x.pc u)))

/-- Drill spacing (R117 to R119): the offset of a start ends and it joins admission, once its time has come; a start that waits is
admitted when it is the first of its die's waiting starts and the die has room, and its ramp begins, and else it goes on waiting; a
start is the first when no other of its die was requested earlier, or in the same cycle by a lower tile; the ramp reaches the half at
cycle 128 and the full array at 256.
The Crema lane (R70 to R74): a comparison counts a sample, and an excursion when the sample's error passes the
threshold, and drops a sample that is not escalated; an escalation replaces the rows of its block and is counted. -/
def Obligations.DrillAndCrema : Prop :=
  ∀ (t : TileId) (s : State) (x : Tile), x = getT t s →
    (∀ n, n = cycleOf (tileDie t) s →
      (x.ramp = 1 → x.rampAt + 128 ≤ n → exec (.drillRampStep t) s = .next (setT t { x with ramp := 2 } s)) ∧
      (x.ramp = 2 → x.rampAt + 256 ≤ n → exec (.drillRampStep t) s = .next (setT t { x with ramp := 0 } s))) ∧
    exec (.drillOffsetExpire t) s = .next (setT t { x with matQ := x.matQ.map fun o => match o.drill with
      | .offset c due => if due ≤ s.tb then { o with drill := .admission c } else o | _ => o } s) ∧
    (∀ c, drillAsked x = some c →
      (drillFirst t c s = true → drillRoom (tileDie t) s = true → ∃ u, exec (.drillStartAdmit t) s = .next u ∧ (getT t u).ramp = 1 ∧
        (∀ o ∈ (getT t u).matQ, o.drill = .none) ∧ (getT t u).pc = x.pc) ∧
      (drillFirst t c s = false ∨ drillRoom (tileDie t) s = false → exec (.drillStartAdmit t) s = .next s)) ∧
    (∀ c : CSample, x.mode = .running → x.stopping = false →
      (x.crema.find? (fun c => !c.excursion) = some c →
        isExcursion x.prec (sampleError (sampleResults c).1 (sampleResults c).2) = false →
        ∃ u, exec (.cremaCompareDone t) s = .next u ∧ getT t u = { x with crema := x.crema.filter fun d => d.blk ≠ c.blk } ∧
          getF (tileF t Reg.TILE_PREC_SAMPLES) u = min (getF (tileF t Reg.TILE_PREC_SAMPLES) s + 1) (2 ^ 64 - 1) ∧
          getF (tileF t Reg.TILE_PREC_EXCURSIONS) u = getF (tileF t Reg.TILE_PREC_EXCURSIONS) s) ∧
      (x.crema.find? (·.excursion) = some c → (x.matQ.any fun o => o.blk = c.blk) = false →
        ∃ u, exec (.cremaEscalationDone t) s = .next u ∧ getT t u = { accPut x (escalate (pcCeil x.prec) c).1 with
            crema := x.crema.filter fun d => d.blk ≠ c.blk, lastStep := some (cycleOf (tileDie t) s) } ∧
          getF (tileF t Reg.TILE_PREC_ESCALATIONS) u = min (getF (tileF t Reg.TILE_PREC_ESCALATIONS) s + 1) (2 ^ 64 - 1))) ∧
    (x.ramp = 1 → cycleOf (tileDie t) s < x.rampAt + 128 → exec (.drillRampStep t) s = .next (setT t x s)) ∧
    (∀ c, drillAsked x = some c → (drillFirst t c s = true ↔ ∀ e ∈ s.tiles, tileDie e.1 = tileDie t →
      ∀ b, drillAsked e.2 = some b → c < b ∨ (b = c ∧ (t : Nat) ≤ e.1)))

/-- A kernel's start (R112 to R114): with every tile it needs free, the ring's waiting kernel takes as many of its
partition's tiles and its bindings are placed; with too few free it goes on waiting, and after 1 ms it reserves tiles.
A tile ends its program or its clear (R112, R116, R138, R166): a drained tile is released; a tile cleared for 1,024 cycles reads
zero everywhere and goes on to its kernel or to IDLE; a stopping tile enters HALTED with nothing outstanding, here one with nothing
executing. The first kernel after a reset clears its tile (log entry 30, DEDUCED). -/
def Obligations.KernelsAndTileEnds : Prop :=
  (∀ (ring : RingId) (key : Nat) (k : Kernel) (s : State), waitingKernel ring s = some (key, k) →
    (∀ tiles, s.frozen = false → pickTiles key k s = some tiles →
      exec (.kernelStart ring) s = .next (kernelTake key k tiles (placeBindings key k tiles k.table s)) ∧ tiles.length = k.count ∧
      ∀ t ∈ tiles, tileFree key t s = true ∧ tileOn t s = true ∧ tilePart t s = k.part) ∧
    (k.waitAt + 1000000 ≤ s.tb → exec (.kernelTileReserve ring) s = .next (setK key { k with phase := .reserving } s))) ∧
  (∀ (t : TileId) (s : State) (x : Tile), x = getT t s →
    (∀ k, x.kern = some k → x.mode = .running → x.draining = true → x.stopping = false → drained x = true →
      exec (.endDrainDone t) s = .next (kernelEnd k (tileIdle t (setT t { x with
        mode := .idle, kern := none, draining := false, prec := 0 } s)))) ∧
    (x.mode = .clearing → x.clearAt + 1024 ≤ cycleOf (tileDie t) s → ∀ u, u = bump (tileF t Reg.TILE_CLEAR_COUNT) 1 (setT t { x with
        mode := if x.stopping then .halted else .idle, stopping := false, waitKind := 0, sp := [], spErr := [], spFix := [],
        rowTab := [], acc := [], v := [], crema := [] } s) →
      (x.kern = none → exec (.tileClearDone t) s = .next (tileIdle t u)) ∧
      (∀ k, x.kern = some k → x.stopping = false → exec (.tileClearDone t) s = .next (kernelRun k u))) ∧
    (∀ n, x.mode = .running → x.stopping = true → x.kern = none → x.matQ = [] → x.vecQ = [] → x.rdQ = [] → x.xfers = [] →
      n = (if x.waitKind = 15 then 0 else x.waitKind) → exec (.tileHalted t) s = .next (setT t { x with
        mode := .halted, atoms := [], crema := [], stopping := false, waitKind := n } s)) ∧
    (x.mode = .clearing → cycleOf (tileDie t) s < x.clearAt + 1024 → exec (.tileClearDone t) s = .next s)) ∧
  (∀ (ring : RingId) (key : Nat) (k : Kernel) (s : State), waitingKernel ring s = some (key, k) →
    (s.frozen = false → pickTiles key k s = none → exec (.kernelStart ring) s = .next s) ∧
    (s.tb < k.waitAt + 1000000 → exec (.kernelTileReserve ring) s = .next s))

/-! ### Command rings -/

/-- Doorbells (R261): a value is compared with the ring's modulo 2^32. A newer one is taken, an equal one has no effect, and
any other is ignored and counted as stale; a PRODUCER beyond the ring's size faults the context with RING_OVERFLOW and is
discarded; a CQ_CONSUMED beyond CQ_PRODUCED is ignored and counted; a ring that is not enabled ignores doorbells; one that is
HALTED starts no command. While a snapshot freeze lasts a doorbell waits for its end (R280). -/
def Obligations.Doorbells : Prop :=
  ∀ (ring : RingId) (v : B32) (s : State) (x : Ring) (d e : Nat), x = getR ring s →
    d = (v.toNat + 2 ^ 32 - x.producer) % 2 ^ 32 → e = (v.toNat + 2 ^ 32 - x.cqConsumed) % 2 ^ 32 →
    (s.frozen = false → x.enable = true →
      (0 < d → d < 2 ^ 31 → (v.toNat + 2 ^ 32 - x.consumed) % 2 ^ 32 ≤ 2 ^ x.log2 →
        exec (.doorbellProducer ring v) s = .next (setR ring { x with producer := v.toNat } s)) ∧
      (0 < e → e < 2 ^ 31 → e ≤ (x.cqProduced + 2 ^ 32 - x.cqConsumed) % 2 ^ 32 →
        exec (.doorbellCqConsumed ring v) s = .next (cqRetry ring (setR ring { x with cqConsumed := v.toNat } s))) ∧
      (d = 0 → exec (.doorbellProducer ring v) s = .next s) ∧ (e = 0 → exec (.doorbellCqConsumed ring v) s = .next s) ∧
      (2 ^ 31 ≤ d → exec (.doorbellProducer ring v) s = .next (bump Reg.CMD_STALE_DOORBELLS 1 s)) ∧
      (2 ^ 31 ≤ e → exec (.doorbellCqConsumed ring v) s = .next (bump Reg.CMD_STALE_DOORBELLS 1 s)) ∧
      (0 < d → d < 2 ^ 31 → 2 ^ x.log2 < (v.toNat + 2 ^ 32 - x.consumed) % 2 ^ 32 →
        exec (.doorbellProducer ring v) s = .next (ctxFault x.ctx (some ring) 0x0206 0 false s) ∧
        getR ring (ctxFault x.ctx (some ring) 0x0206 0 false s) = x) ∧
      (0 < e → e < 2 ^ 31 → (x.cqProduced + 2 ^ 32 - x.cqConsumed) % 2 ^ 32 < e →
        exec (.doorbellCqConsumed ring v) s = .next (bump Reg.CMD_DOORBELL_DISCARDS 1 s))) ∧
    (s.frozen = false → x.enable = false →
      exec (.doorbellProducer ring v) s = .next s ∧ exec (.doorbellCqConsumed ring v) s = .next s) ∧
    (s.frozen = true → exec (.doorbellProducer ring v) s = .next { s with held := s.held ++ [.doorbellProducer ring v] } ∧
      exec (.doorbellCqConsumed ring v) s = .next { s with held := s.held ++ [.doorbellCqConsumed ring v] }) ∧
    (x.halted = true → ringReady ring s = false)

/-- NOP, WRITE_VALUE, WAIT_VALUE, ACQUIRE and TRIM that pass their checks (R229, R230, R263, R266): NOP ends with success;
WRITE_VALUE sends its 8 bytes; WAIT_VALUE makes its first poll, and another after 256 ns; ACQUIRE invalidates in both dies' caches;
TRIM begins to mark every granule of its range unwritten. The ring takes the command and goes on to the next index. A ring turns a
command away (R267, R268): one that may not start leaves everything as it is; an unassigned opcode ends with OPCODE_INVALID (0x0101)
before anything else is looked at, and a NOP whose unused bytes are not zero with DESCRIPTOR_INVALID (0x0102). Times are
measured as log entry 75 says (the model's choice). -/
def Obligations.SimpleCommands : Prop :=
  ∀ (ring : RingId) (d : List Byte) (u v s : State) (i a : Nat), i = (getR ring s).next → v = taken ring d u → a = dField d 8 8 →
    (CmdReady 0 ring d u s → dZero d 8 56 = true → exec (.cmdNop ring) s = .next (finishCmd ring i 0 0 0 false false v)) ∧
    (CmdReady 3 ring d u s → a % 8 = 0 → dZero d 24 40 = true → addrOk (ringPart ring s) a 8 true v = true →
      exec (.cmdWriteValue ring) s = .next (sendWrites ring i (setWork ring i (.writes [(a, sliceB d 16 8)] 0 0 false) v))) ∧
    (CmdReady 4 ring d u s → a % 8 = 0 → dField d 32 1 ≤ 2 → dZero d 33 31 = true → addrOk (ringPart ring s) a 8 false v = true →
      exec (.cmdWaitValue ring) s = .next (pollValue ring i (setWork ring i
        (.poll a (BitVec.ofNat 64 (dField d 16 8)) (BitVec.ofNat 64 (dField d 24 8)) (dField d 32 1) false) v))) ∧
    (CmdReady 5 ring d u s → acquireBad d = false → dZero d 24 8 = true → dZero d 33 31 = true →
      exec (.cmdAcquire ring) s = .next (finishCmd ring i 0 0 0 false false (acquire 1 (dField d 32 1) (a % 32768) a (dField d 16 8)
        (acquire 0 (dField d 32 1) (a % 32768) a (dField d 16 8) v)))) ∧
    (CmdReady 6 ring d u s → trimWaits ring i s = false → trimCheck (ringPart ring s) d v = none →
      exec (.cmdTrim ring) s = .next (setWork ring i (.trim (a / 4096) (dField d 16 8 / 4096))
        (modCmd ring i (fun c => { c with started := true, effect := true }) v))) ∧
    (∀ c, (getR ring s).cmds = [c] → s.frozen = false → timerDue .pollValue (cmdKey ring c.idx) 256 s = true →
      exec (.waitValuePoll ring) s = .next (pollValue ring c.idx s)) ∧
    (ringReady ring s = false → exec (.cmdNop ring) s = .next s) ∧
    (ringReady ring s = true → readDesc ring i s = (.ok d, u) → dField d 1 1 % 2 = 0 → opAssigned (dField d 0 1) = false →
      exec (.cmdNop ring) s = .next (finishCmd ring i 0x0101 0 0 false false v)) ∧
    (CmdReady 0 ring d u s → dZero d 8 56 = false → exec (.cmdNop ring) s = .next (finishCmd ring i 0x0102 0 0 false false v))

/-- The commands that move data (R175, R180, R264, R265): a DMA that passes its checks waits for a channel to make its
requests, which its events then make; APPEND and ROTARY_TABLE read their block; a KERNEL with no bindings waits for tiles;
SYS_SNAPSHOT joins the snapshot queue, COLLECTIVE its partition's admission and POWER_CAP the host's cap. -/
def Obligations.DataCommands : Prop :=
  ∀ (ring : RingId) (d : List Byte) (u v s : State) (i p : Nat), i = (getR ring s).next → v = taken ring d u → p = ringPart ring v →
    (CmdReady 8 ring d u s → blockCheck d v = none →
      exec (.cmdRotaryTable ring) s = .next (gatherStage ring i 0 [(dField d 8 8, 64)] [] v)) ∧
    (CmdReady 7 ring d u s → blockCheck d v = none → getB Reg.LIC_CAP0_WALKERS v = true →
      exec (.cmdAppend ring) s = .next (gatherStage ring i 0 [(dField d 8 8, 64)] [] v)) ∧
    (CmdReady 2 ring d u s → dmaCheck (ringPart ring s) d v = none → exec (.cmdDma ring) s = .next (setWork ring i
      (.copy (dField d 8 8) (dField d 16 8) (dField d 24 8) (dField d 32 1 = 1) 0 0 0) v)) ∧
    (CmdReady 0x10 ring d u s → collCheck (ringPart ring s) d v = none → exec (.cmdCollective ring) s = .next (collStart ring i d v)) ∧
    (CmdReady 1 ring d u s → kernelLayout d v = none → kernelCaps d v = none → dField d 48 2 = 0 →
      kernelAccess p (getR ring v).die d v = none → exec (.cmdKernel ring) s = .next (kernelWait ring i d [] v)) ∧
    (CmdReady 9 ring d u s → snapDestBad (dField d 8 8) v = false → dZero d 16 48 = true →
      addrOk (ringPart ring s) (dField d 8 8) snapSize true v = true →
      ∀ w, w = modCmd ring i (fun c => { c with started := true }) (setWork ring i .elsewhere v) →
      exec (.cmdSysSnapshot ring) s = .next (snapAsk ⟨p, gOff (dField d 8 8), some (ring.val, i)⟩ w)) ∧
    (CmdReady 0x20 ring d u s → ringPart ring s = 0 → dField d 10 1 = 0 → dZero d 11 53 = true → ringPart ring v = 0 →
      ∀ w, w = modCmd ring i (fun c => { c with started := true }) v → exec (.cmdPowerCap ring) s = .next
        (finishCmd ring i 0 0 0 false false (capWrite .host (capOfWrite (dField d 8 2) true) w)))

/-- The life of a ring (R259, R269, R272, R274, R277): a ring is enabled when its sizes are 6 to 16, both queues lie in memory, its
completion queue is aligned and its context is ACTIVE, and then starts with every count at zero; otherwise the write is counted as
rejected. An enabled ring keeps its other fields, and is disabled only while IDLE or HALTED. The oldest command's completion is
written once it is due and its ring is not blocked; a blocked ring tries the waiting completions again; a timeout that has run out
halts the ring, logs RING_HALTED and stops the command. A freeze holds each of them (R280). Times are measured as log entry 75
says (the model's choice). -/
def Obligations.RingLifecycle : Prop :=
  ∀ (ring : RingId) (v : B64) (s : State) (x y : Ring), y = getR ring s → x = cfg0Put v.toNat y →
    (s.frozen = false → y.enable = false →
      (ringOk x s = true → exec (.ringEnable ring v) s = .next (setR ring (ringFresh x) s)) ∧
      (ringOk x s = false → exec (.ringEnable ring v) s = .next (bump Reg.CMD_CFG_REJECTS 1 (setR ring x s))) ∧
      exec (.ringDisable ring v) s = .next (setR ring x s)) ∧
    (s.frozen = false → y.blocked = false → exec (.commandComplete ring) s = .next (postLate ring 16 (postHead ring s).2)) ∧
    (s.frozen = false → timerDue .postRetry ring 900000 s = true →
      exec (.completionRetry ring) s = .next (cqRetry ring (timerSet .postRetry ring s))) ∧
    (∀ c l, s.frozen = false → y.cmds = c :: l → getF Reg.BOOT_STAT_STATE s = 2 → y.enable = true → y.halted = false →
      y.blocked = false → c.st = .running → timedOut y c.idx = true → (getC y.ctx s).st ≠ .resetting →
      exec (.ringTimeoutExpire ring) s = .next (timeoutHead ring c (getF Reg.LOG_TAIL s)
        (modR ring (fun x => { x with halted := true, haltSeq := getF Reg.LOG_TAIL s, haltNote := true })
          (logEv .ringHalted (some (ringPart ring s)) (some y.ctx) ring (leBytes 4 c.idx) s)))) ∧
    (s.frozen = false → y.enable = true →
      (x = y → exec (.ringEnable ring v) s = .next s) ∧
      (x ≠ y → exec (.ringEnable ring v) s = .next (bump Reg.CMD_CFG_REJECTS 1 s) ∧
        exec (.ringDisable ring v) s = .next (bump Reg.CMD_CFG_REJECTS 1 s)) ∧
      (x = y → ringState ring s = .idle ∨ ringState ring s = .halted →
        exec (.ringDisable ring v) s = .next (modR ring ringOff (ringDrop ring s))) ∧
      (x = y → ringState ring s ≠ .idle → ringState ring s ≠ .halted → exec (.ringDisable ring v) s = .next s)) ∧
    (s.frozen = true → ∀ c ∈ [Instr.commandComplete ring, .completionRetry ring, .ringTimeoutExpire ring, .ringEnable ring v],
      exec c s = .next { s with held := s.held ++ [c] })

/-- The bytes of a completion entry (R273): INDEX, STATUS, OPCODE, KIND with PREC_ALERT, USER_TAG, AUX, TIMESTAMP, and DETAIL
with PARTIAL and PHASE, each little-endian at its place, 32 bytes in all. -/
def Obligations.CompletionLayout : Prop :=
  ∀ (c : Compl) (time : Nat) (phase : Bool), c.kind < 4 →
    (complBytes c time phase).length = 32 ∧
    leNat (sliceB (complBytes c time phase) 0 4) = c.idx % 2 ^ 32 ∧
    leNat (sliceB (complBytes c time phase) 4 2) = c.status % 2 ^ 16 ∧
    leNat (sliceB (complBytes c time phase) 6 1) = c.opcode % 2 ^ 8 ∧
    leNat (sliceB (complBytes c time phase) 7 1) = c.kind + (if c.alert then 4 else 0) ∧
    leNat (sliceB (complBytes c time phase) 8 4) = c.tag % 2 ^ 32 ∧
    leNat (sliceB (complBytes c time phase) 12 4) = c.aux % 2 ^ 32 ∧
    leNat (sliceB (complBytes c time phase) 16 8) = time % 2 ^ 64 ∧
    leNat (sliceB (complBytes c time phase) 24 8) =
      c.detail % 2 ^ 55 + (if c.partl then 2 ^ 62 else 0) + (if phase then 2 ^ 63 else 0)

/-! ### KV page walkers -/

/-- The walkers (R182, R184 to R186, R190, R191): with fewer than 16 active, the first waiting binding whose headers are zero becomes
active and reads its descriptor, a gated one only once GO is not zero; a ready one looks at CONSUMED again; a scored binding delivers
the forced pages and those it picks; a slot is delivered only when CONSUMED leaves one free, tag and data before DELIVERED. -/
def Obligations.Walkers : Prop :=
  (∀ (w : WalkerId) (key : Nat) (b : Binding) (s : State), (activeOf w s).length < 16 →
    (s.bindings.find? fun e => e.2.walker = w.val && e.2.phase = .waiting && !ringsPending e.1 s) = some (key, b) →
    exec (.bindingActivate w) s = .next (walkGate key s) ∧ (getB' key s = some b → b.gated = false →
      walkGate key s = walkFetch key .desc [(b.seqAddr, 64)] (setB' key { b with blocked := false } s))) ∧
  (∀ (ring : RingId) (idx : B32) (n : Fin 1024) (x : Binding) (d : SeqDesc) (key : Nat) (s u : State) (l : List Byte),
    key = bindKey ring idx.toNat n → getB' key s = some x → x.desc = some d →
    (x.phase = .ready → spRead x.tile (x.ringBase + 8) 8 s = (.ok l, u) →
      exec (.walkerCreditPoll ring idx n) s = .next (setB' key { x with blocked := !slotFree x (leNat l) } u) ∧
      (walkTurn x.walker s = some key →
        (slotFree x (leNat l) = true → exec (.walkerSlotDeliver ring idx n) s = .next (walkDeliver key x d u)) ∧
        (slotFree x (leNat l) = false → exec (.walkerSlotDeliver ring idx n) s = .next (setB' key { x with blocked := true } u))) ∧
      (slotFree x (leNat l) = true ↔ (x.n : Int) - x.depth + 1 ≤ leNat l)) ∧
    (x.phase = .scored → x.selOut = false → spRead x.tile (x.ringBase + (64 + x.head0 * d.d * 2)) (x.nheads * d.d * 2) s = (.ok l, u) →
      exec (.pageSiftSelect ring idx n) s = .next (walkPlan key (siftPlan x d l)
        (bump (kvwF x.walker Reg.KVW_SUMMARIES) ((rangePages x).filter fun j => !forcedPage x j).length u)) ∧
      (∀ j ∈ rangePages x, forcedPage x j = true → j ∈ siftPlan x d l) ∧ (∀ j ∈ siftPlan x d l, j ∈ rangePages x)) ∧
    (x.phase = .gate → x.gated = true → spRead x.tile (x.ringBase + 16) 8 s = (.ok l, u) →
      (leNat l = 0 → exec (.walkerCreditPoll ring idx n) s = .next (setB' key { x with phase := .gate, blocked := true } u)) ∧
      (leNat l ≠ 0 → exec (.walkerCreditPoll ring idx n) s = .next
        (walkFetch key .desc [(x.seqAddr, 64)] (setB' key { x with blocked := false } u)))) ∧
    (∀ a b c o data, o = x.ringBase + (slotBase x d (x.n % x.depth) - x.ringBase) →
      data = slotBytes x d (x.plan.getD x.n 0) (cutRanges (x.f.want.zip (x.f.got.map (·.2))) (pageRanges x d (pageBase x d) (x.plan.getD x.n 0))) →
      spWrite x.tile o (slotTag x (x.plan.getD x.n 0)) s = (none, a) → spWrite x.tile (o + 64) data a = (none, b) →
      spWrite x.tile (x.ringBase + 0) (leBytes 8 (x.n + 1)) b = (none, c) →
      walkDeliver key x d s = walkNext key (setB' key { x with n := x.n + 1, blocked := false }
        (bump (kvwF x.walker Reg.KVW_PAGES) 1 { c with kvTurn := smPut 0 c.kvTurn x.walker (key + 1) }))))

/-! ### Hosts -/

/-- RDMA operations on memory (R242 to R245, R253, R373): on a live queue pair whose port takes the frames, an operation with the
partition's R_Key on memory that the partition may reach is performed at its home and answered (an ACK, the data, the old value); a
WRITE with another R_Key is refused with a NAK, which is counted, and changes nothing else; a received SEND is answered with a NAK
for an invalid request. -/
def Obligations.RdmaMemory : Prop :=
  ∀ (q psn : B24) (fr : Frame) (addr : B64) (rkey : B32) (s : State) (n a p : Nat), n = q.toNat → a = addr.toNat → p = (getQ n s).part →
    qpLive n s = true → frameOk fr n s = true → s.frozen = false →
    exec (.rdmaSendReceived q fr psn) s = .next (emitQ n (.nakInvalid n psn.toNat) s) ∧
    (∀ (b c old : B64) (u : State), rkeyOk n a rkey.toNat s = true → a % 8 = 0 → a < hbmEnd → hostMem p a 8 true s = true →
      winOk p a 8 true true s = true →
      (hbmAtomic a 4 true false c b (freeNat s) (tick1 s) = (some old, u) →
        exec (.rdmaAtomicCas q fr psn addr rkey b c) s = .next (emitQ n (.atomicOld n psn.toNat old) u)) ∧
      (hbmAtomic a 1 true false b 0 (freeNat s) (tick1 s) = (some old, u) →
        exec (.rdmaFetchAdd q fr psn addr rkey b) s = .next (emitQ n (.atomicOld n psn.toNat old) u))) ∧
    (∀ (len : B32) (l : List Byte) (u : State), len.toNat ≤ 2 ^ 31 → rkeyOk n a rkey.toNat s = true → isReg a = false → a < dbWin →
      hostMem p a len.toNat false s = true → homeRead a len.toNat (freeNat s) (tick1 s) = (.ok, l, u) →
      exec (.rdmaReadReceived q fr psn addr rkey len) s = .next (emitQ n (.readData n psn.toNat l) u)) ∧
    (∀ data : List Byte, data.length ≤ 2 ^ 31 →
      (∀ u, rkeyOk n a rkey.toNat s = true → isReg a = false → a < dbWin → hostMem p a data.length true s = true →
        homeWrite a data (freeNat s) (tick1 s) = (.ok, u) → qpLive n u = true →
        exec (.rdmaWriteReceived q fr psn addr rkey data) s = .next (emitQ n (.ack n psn.toNat) u)) ∧
      (rkeyOk n a rkey.toNat s = false → exec (.rdmaWriteReceived q fr psn addr rkey data) s = .next
        (bump (ethF (qpPort n s) Reg.ETH_NAK_TX) 1 (emitQ n (.nakAccess n psn.toNat) s)))) ∧
    (∀ o, emitQ n o s = { s with sent := s.sent ++ [.roce (portMac ((getQ n s).half / 2) ((getQ n s).half % 2 = 1) s)
      (partDscp p s) (getQ n s).mtu o] })

/-- Register writes (R14 to R16, R38): only an aligned offset in a block of register space takes a write, a read-only register
(SYS_ID) ignores one, the selections take their field, a clear acts on a written 1, and MEM_GLN_CTL.PERIOD keeps its value
when the written one lies outside its range. While a freeze lasts, a write that R280 holds waits.
Register space over RDMA (R14, R38, R246): a host of partition 0 reads an aligned 8-byte register that exists; a host of
any other partition is refused and changes no register but the count of NAKs. -/
def Obligations.RegisterAccess : Prop :=
  (∀ (q psn : B24) (fr : Frame) (addr : B64) (rkey len : B32) (s : State) (n o : Nat), n = q.toNat → qpLive n s = true →
    frameOk fr n s = true → s.frozen = false → len.toNat = 8 → isReg addr.toNat = true → o = addr.toNat - regWin →
    rkeyOk n addr.toNat rkey.toNat s = true →
    ((getQ n s).part = 0 → addr.toNat % 8 = 0 → regSpaceBacked o = true → exec (.rdmaReadReceived q fr psn addr rkey len) s = .next
      (emitQ n (.readData n psn.toNat (leBytes 8 (readReg o s))) (readNote o s))) ∧
    ((getQ n s).part ≠ 0 → ∀ data : List Byte, data.length ≤ 2 ^ 31 →
      ∀ u, u = bump (ethF (qpPort n s) Reg.ETH_NAK_TX) 1 (emitQ n (.nakAccess n psn.toNat) s) →
      exec (.rdmaReadReceived q fr psn addr rkey len) s = .next u ∧ exec (.rdmaWriteReceived q fr psn addr rkey data) s = .next u)) ∧
  (∀ (off : BitVec 21) (v : B64) (s : State),
    (hubOn s = true → s.frozen = false →
      exec (.registerWrite 0 v) s = .next s ∧
      exec (.registerWrite 0x20000 v) s = .next (setF Reg.CMD_RING_SEL (v.toNat / 2 ^ Reg.CMD_RING_SEL.lo % 2 ^ Reg.CMD_RING_SEL.w) s) ∧
      exec (.registerWrite 0x20100 v) s = .next (setF Reg.CTX_SEL (v.toNat / 2 ^ Reg.CTX_SEL.lo % 2 ^ Reg.CTX_SEL.w) s) ∧
      (v.toNat % 2 = 1 → exec (.registerWrite 0x50140 v) s = .next (clearRegs 0 0x50100 0x50138 s)) ∧
      (v.toNat % 2 = 0 → exec (.registerWrite 0x50140 v) s = .next s) ∧
      (∀ g, g = wGet Reg.MEM_GLN_CTL_PERIOD v.toNat →
        (1 ≤ g → g ≤ 168 → ∃ u, exec (.registerWrite 0x70200 v) s = .next u ∧
          getF Reg.MEM_GLN_CTL_PERIOD u = g ∧ u.hbm = s.hbm ∧ u.tiles = s.tiles) ∧
        (g < 1 ∨ 168 < g → wGet Reg.MEM_GLN_CTL_PAGE_THRESH v.toNat = 0 → exec (.registerWrite 0x70200 v) s = .next s))) ∧
    (hubOn s = false ∨ off.toNat % 8 ≠ 0 ∨ regSpaceBacked off.toNat = false → exec (.registerWrite off v) s = .next s) ∧
    (hubOn s = true → s.frozen = true → off.toNat % 8 = 0 → regSpaceBacked off.toNat = true → regFrozen off.toNat = true →
      exec (.registerWrite off v) s = .next { s with held := s.held ++ [.registerWrite off v] }))

/-- Connections and the module's own messages (R242, R243, R257): a request with an enabled partition's P_Key is accepted
with that partition and its path MTU, and any other rejected; an ACK removes the messages before it; a timeout resends what is left,
and after the last retry puts the queue pair into the error state; a notification refused for want of a buffer is sent again, and
after 7 tries dropped and counted. The initial PSN is a free value (log entry 33). -/
def Obligations.QueuePairs : Prop :=
  ∀ (q psn : B24) (s : State) (n : Nat) (x : Qp), n = q.toNat → x = getQ n s →
    (∀ l, qpLive n s = true → l = x.unacked.filter (fun w => !psnBefore w.psn ((psn.toNat + 1) % 2 ^ 24)) →
      exec (.rdmaAckReceived q psn .ack) s = .next
        (setQ n { x with unacked := l, retries := (if l.length = x.unacked.length then x.retries else 0) } s)) ∧
    (hubOn s = true → x.conn = true → x.err = false → x.unacked ≠ [] →
      (x.retries < x.retryMax → exec (.qpRetransmitTimeout q) s = .next
        (qpResend n (setQ n { x with retries := x.retries + 1, rnrWait := false } s))) ∧
      (x.retryMax ≤ x.retries → exec (.qpRetransmitTimeout q) s = .next (setQ n { x with err := true, unacked := [], rnrWait := false } s))) ∧
    (∀ w l, qpLive n s = true → x.rnrWait = true → x.unacked = w :: l →
      (w.rnr < 7 → exec (.notifyRnrRetry q) s = .next
        (qpResend n (setQ n { x with unacked := { w with rnr := w.rnr + 1 } :: l, rnrWait := false } s))) ∧
      (7 ≤ w.rnr → exec (.notifyRnrRetry q) s = .next
        (qpResend n (bump (partF w.part Reg.PART_NOTIFY_DROPS) 1 (setQ n (qpDrop x) s))))) ∧
    (∀ (p : PortId) (b : Bool) (pkey : B16) (retries : Fin 8) (mtu : Fin 3) (h : Nat), h = 2 * p + (if b then 1 else 0) →
      hubOn s = true → halfUp h s = true → 2 ≤ n → qpInUse x = false →
      (∀ part, partOfKey pkey.toNat s = some part → (s.qps.filter fun e => qpInUse e.2).length < 65536 → ∀ u,
        u = setQ n { conn := true, part := part, half := h, psn := freeNat s % 2 ^ 24, retryMax := retries.val, mtu := 1024 * 2 ^ mtu.val } s →
        exec (.connectRequest q p b pkey retries mtu) s = .next (emitQ n (.connAccept n) (tick1 u))) ∧
      (partOfKey pkey.toNat s = none → exec (.connectRequest q p b pkey retries mtu) s = .next { s with sent := s.sent ++ [.connReject] }))

/-- Congestion control (R242): a CE mark is answered with a CNP at most every 50 µs; a CNP halves the queue pair's rate at
most every 50 µs; 55 µs without a CNP raise it by 5 % of the line rate and never above it.
Ethernet ports (R240, R241, R247): a cable that is plugged in takes the port down until it trains; a cable that fails its
activation holds the port down with CMIS_FAULT; a port of the module with a cable and without a fault comes up, half b only
when SPLIT is set; a half that goes down reads down; and a write that changes SPLIT takes both halves down. -/
def Obligations.CongestionAndPorts : Prop :=
  (∀ (p : PortId) (b : Bool) (s : State) (x : EthPort), x = getEth p s →
    exec (.ethLinkDown p b) s = .next (setB (upF p b) false s) ∧
    (∀ managed code, exec (.ethCableInserted p managed code) s = .next (setF (ethF p Reg.ETH_STAT_CMIS_FAULT) 0
      (portDown p (modEth p (fun x => { x with plugged := true, managed := managed, code := (if managed then code.toNat else 0) }) s)))) ∧
    (ethMay s = true → ethPresent p s = true → x.plugged = true →
      (getB (ethF p Reg.ETH_STAT_CMIS_FAULT) s = false → (b = true → getB (ethF p Reg.ETH_CFG_SPLIT) s = true) →
        exec (.ethLinkUp p b) s = .next (setB (upF p b) true (portLatch p s))) ∧
      (∀ code, x.managed = true → exec (.cmisActivationTimeout p code) s = .next (logEv .ethCableFault none none p []
        (setF (ethF p Reg.ETH_STAT_CMIS_FAULT) 1 (portDown p (modEth p (fun x => { x with code := code.toNat }) s)))))) ∧
    (∀ v : B64, ethPresent p s = true → hubOn s = true → v.getLsbD 0 ≠ getB (ethF p Reg.ETH_CFG_SPLIT) s →
      ∃ u, exec (.ethSplitWrite p v) s = .next u ∧ getB (ethF p Reg.ETH_CFG_SPLIT) u = v.getLsbD 0 ∧
        getB (upF p false) u = false ∧ getB (upF p true) u = false ∧ u.ports = s.ports)) ∧
  (∀ (q : B24) (s : State) (n : Nat) (x : Qp), n = q.toNat → x = getQ n s → qpLive n s = true → ecnOn n s = true →
    (x.cnpRx = none → exec (.cnpReceived q) s = .next (setQ n { x with rate := x.rate / 2, cnpRx := some s.tb, rateAt := s.tb }
      (bump (ethF (qpPort n s) Reg.ETH_CNP_RX) 1 s))) ∧
    (x.cnpTx = none → exec (.ceMarkedPacket q) s = .next (bump (ethF (qpPort n s) Reg.ETH_CNP_TX) 1
      (emitQ n (.cnp n) (setQ n { x with cnpTx := some s.tb } s)))) ∧
    (x.rateAt + 55000 ≤ s.tb → exec (.rateIncreaseTimer q) s = .next
      (setQ n { x with rate := min 1000000000 (x.rate + 50000000), rateAt := s.tb } s)) ∧
    (∀ t, s.tb < t + 50000 → (x.cnpTx = some t → exec (.ceMarkedPacket q) s = .next s) ∧
      (x.cnpRx = some t → exec (.cnpReceived q) s = .next (setQ n { x with rateAt := s.tb } (bump (ethF (qpPort n s) Reg.ETH_CNP_RX) 1 s)))) ∧
    (s.tb < x.rateAt + 55000 → exec (.rateIncreaseTimer q) s = .next s)) ∧
  (∀ (p : PortId) (s : State), getB (ethF p Reg.ETH_CFG_SPLIT) s = false → exec (.ethLinkUp p true) s = .next s)

/-- The PTP clock (R249, R250): a message of the configured transport and domain that arrives at port 0 is taken. An Announce
is noted with its interval; a one-step Sync, or the Follow_Up of a two-step one, makes Delay_Req go out; a Delay_Resp completes
the measurement. Three silent Announce intervals end the lock, and the time base goes on. When Delay_Req goes out is log entry
35 (DEDUCED). -/
def Obligations.PtpMessages : Prop :=
  ∀ (tr : Fin 3) (dom : Byte) (s : State),
    (∀ t, s.powered = true → s.ptp.annAt = some t → t + 3 * s.ptp.annIv ≤ s.tb → ∃ u, exec .ptpLockLost s = .next u ∧
      getF Reg.SYS_TIME_STAT_LOCKED u = 0 ∧ u.ptp.slew = 0 ∧ u.ptp.rate = s.ptp.rate ∧ u.tb = s.tb) ∧
    (ptpTaken tr dom s = true →
      (∀ iv, exec (.ptpAnnounceReceived tr dom iv) s = .next { s with ptp := { s.ptp with annAt := some s.tb, annIv := iv } }) ∧
      (∀ o, ∃ u, exec (.ptpSyncReceived tr dom (some o)) s = .next u ∧ u.ptp.t1 = some o ∧ u.ptp.t2 = some (ptpStamp s) ∧
        u.ptp.t3.isSome = true ∧ u.sent = s.sent ++ [.delayReq (portMac 0 false s)] ∧ u.tb = s.tb ∧ u.regs = s.regs) ∧
      (∀ o, s.ptp.wantFollow = true → ∃ u, exec (.ptpFollowUpReceived tr dom o) s = .next u ∧ u.ptp.t1 = some o ∧
        u.ptp.t2 = s.ptp.t2 ∧ u.ptp.t3.isSome = true ∧ u.sent = s.sent ++ [.delayReq (portMac 0 false s)] ∧ u.tb = s.tb) ∧
      (∀ (t1 t2 t3 t4 : Nat) (o : Int), s.ptp.t1 = some t1 → s.ptp.t2 = some t2 → s.ptp.t3 = some t3 → s.ptp.annAt.isSome = true →
        o = ((t1 : Int) - t2 + (t4 - t3)) / 2 → ∃ u, exec (.ptpDelayRespReceived tr dom t4) s = .next u ∧
        getF Reg.SYS_TIME_STAT_LOCKED u = 1 ∧ getF Reg.SYS_TIME_STAT_EVER_LOCKED u = 1 ∧ s.tb ≤ u.tb ∧
        (o < 0 → u.tb = s.tb ∧ u.ptp.slew = o * 100000000 ∧ getF Reg.SYS_TIME_STAT_BACKWARD_SLEW u = 1) ∧
        (0 ≤ o → getF Reg.SYS_TIME_STAT_EVER_LOCKED s = 1 → o ≤ 1000000 → u.tb = s.tb ∧ u.ptp.slew = o * 100000000) ∧
        (0 ≤ o → getF Reg.SYS_TIME_STAT_EVER_LOCKED s = 1 → 1000000 < o → u.tb = s.tb + o.toNat) ∧
        (0 ≤ o → getF Reg.SYS_TIME_STAT_EVER_LOCKED s ≠ 1 → u.tb = s.tb + o.toNat)) ∧
      (exec (.ptpSyncReceived tr dom none) s = .next (tick1 { s with
        ptp := { s.ptp with t1 := none, t2 := some (ptpStamp s), wantFollow := true, t3 := none } }))) ∧
    (∀ t, s.ptp.annAt = some t → s.tb < t + 3 * s.ptp.annIv → exec .ptpLockLost s = .next s) ∧
    (ptpTaken tr dom s = false → ∀ iv o t, exec (.ptpAnnounceReceived tr dom iv) s = .next s ∧
      exec (.ptpSyncReceived tr dom o) s = .next s ∧ exec (.ptpFollowUpReceived tr dom t) s = .next s ∧
      exec (.ptpDelayRespReceived tr dom t) s = .next s)

/-! ### Partitions and contexts -/

/-- Partitions and contexts (R254 to R256, R283, R356): a partition whose tiles and P_Key no other enabled partition holds is
enabled and every other write is turned away and counted; enabling and disabling one drop its remote-read cache entries; the keys of
partition 0 may change while it stays enabled; a FREE context becomes ACTIVE in the partition written, and an active one
without an enabled ring becomes FREE. A freeze holds the writes (R280). -/
def Obligations.PartitionsAndContexts : Prop :=
  ∀ (p : PartId) (c : CtxId) (pkey : B16) (rkey : B32) (s : State) (x : Ctx), x = getC c s →
    (s.frozen = false → x.st = .free →
      exec (.ctxEnable c p) s = .next (setC c { x with part := p.val, st := .active, faultStatus := 0 } s) ∧
      exec (.ctxDisable c p) s = .next (setC c { x with part := p.val } s)) ∧
    (s.frozen = false → p.val ≠ 0 → partOn p s = false → ∀ u, u = setKeys p pkey.toNat rkey.toNat s →
      exec (.partDisable p pkey rkey) s = .next u ∧
      (tilesClash p u = false → pkeyClash p pkey.toNat u = false →
        exec (.partEnable p pkey rkey) s = .next (realloc (setB (partF p Reg.PART_CFG_ENABLE) true (rrcPartOff p u)))) ∧
      (tilesClash p u = true ∨ pkeyClash p pkey.toNat u = true →
        exec (.partEnable p pkey rkey) s = .next (bump Reg.CMD_CFG_REJECTS 1 u))) ∧
    (s.frozen = false → p.val ≠ 0 → partOn p s = true →
      exec (.partEnable p pkey rkey) s = .next s ∧
      exec (.partDisable p pkey rkey) s = .next (realloc (rrcDrop 1 (fun _ q => q = p.val) (rrcDrop 0 (fun _ q => q = p.val)
        (setB (partF p Reg.PART_CFG_ENABLE) false s))))) ∧
    (s.frozen = false → p.val = 0 → exec (.partEnable p pkey rkey) s = exec (.partDisable p pkey rkey) s ∧
      exec (.partEnable p pkey rkey) s = .next (adminKeys pkey.toNat rkey.toNat s)) ∧
    (s.frozen = false → x.st ≠ .free → exec (.ctxEnable c p) s = .next s ∧
      (ctxRings c s = [] → exec (.ctxDisable c p) s = .next (setC c { x with st := .free, faultStatus := 0, resetProd := [] } s)) ∧
      (ctxRings c s ≠ [] → exec (.ctxDisable c p) s = .next s)) ∧
    (s.frozen = true → exec (.partEnable p pkey rkey) s = .next { s with held := s.held ++ [.partEnable p pkey rkey] } ∧
      exec (.ctxDisable c p) s = .next { s with held := s.held ++ [.ctxDisable c p] })

/-! ### Memory and its registers -/

/-- The clear registers (R84, R124, R125, R198, R221, R235, R238, R321, R349, R381, R419, R443, R460): each leaves in the counters
of its own block what they have counted in this very cycle, and every register outside them as it was. TILE_CTR_CLEAR
splits the work of the operations that run at it, and PWR_CTR_CLEAR counts whole samples before it. -/
def Obligations.CounterClears : Prop :=
  (∀ (t : TileId) (w : WalkerId) (k : StackId) (l : LinkId) (d : DieId) (s : State),
    exec (.tilePrecClear t) s = .next (clearRegs (blkBase .tile t) 0x610 0x640 s) ∧
    exec (.tileCtrClear t) s = .next (clearRegs (blkBase .tile t) 0x010 0x060
      { modT t (cutWork s) s with freeCtr := s.freeCtr + 6 }) ∧
    exec (.tileSpClear t) s = .next (clearRegs (blkBase .tile t) 0x700 0x718 s) ∧
    exec (.kvwCtrClear w) s = .next (clearRegs (blkBase .kvw w) 0x08 0x30 s) ∧
    exec (.memStkClear k) s = .next (clearRegs (blkBase .stk k) 0x08 0x40 s) ∧
    exec (.memRrcClear d) s = .next (clearRegs (blkBase .rrc d) 0x08 0x28 s) ∧
    exec (.lnkCtrClear l) s = .next (clearRegs (blkBase .lnk l) 0x100 0x158 s) ∧
    exec .fabCtrClear s = .next (clearRegs 0 0x50100 0x50138 s) ∧
    exec .colCtrClear s = .next (clearRegs 0 0x60300 0x60340 s) ∧
    exec .pwrCtrClear s = .next (clearRegs 0 0x10040 0x10090 { s with pwr := { s.pwr with
      samples := (s.pwr.samples.map fun (e : Nat × Nat) => (e.1, e.2 % 100)).filter fun e => e.2 ≠ 0 } }) ∧
    exec .clnCtrClear s = .next (clearRegs 0 0x12010 0x12010 s) ∧
    exec .memGlnPageClear s = .next { s with pageCount := [], pageLogged := [] }) ∧
  (∀ (base lo hi : Nat) (s : State), lo ≤ hi →
    (∀ k, (base + lo) * 64 ≤ k → k < (base + hi + 8) * 64 →
      (lookO s.sameCyc k = none → ∀ d, smLook d (clearRegs base lo hi s).regs k = d) ∧
      (smWf 0 s.sameCyc = true → smLook 0 (clearRegs base lo hi s).regs k = smLook 0 s.sameCyc k)) ∧
    RegsOutside ((base + lo) * 64) ((base + hi + 8) * 64) s (clearRegs base lo hi s) ∧
    SameButRegs s (clearRegs base lo hi s))

/-- The remote-read caches (R157, R355 to R357, R366, R381): an acquire of scope 0 leaves no entry of its die, counts those
that went, and keeps the fills in flight from being installed; BYPASS does the same and makes later reads FRESH; a fill that
returns is installed if it still can be, or counted as dropped.
The Gleaner (R218 to R222): at each visit a stack's position goes on by 512 bytes of its raw memory and starts again, counting a
pass, after its last; a place that holds no data block, and an unwritten or clean block, is left as it is; a correctable block is
corrected, rewritten and counted. A stack that is absent is not visited. -/
def Obligations.CachesAndGleaner : Prop :=
  (∀ (d : DieId) (s : State),
    (exec (.memRrcInvalidate d) s = .next (acquire d 0 0 0 0 s) ∧
      exec (.memRrcBypass d) s = .next (setB (rrcF d Reg.MEM_RRC_CTL_BYPASS) true (acquire d 0 0 0 0 s)) ∧
      rrcOf d (acquire d 0 0 0 0 s) = [] ∧ rrcOf (1 - d) (acquire d 0 0 0 0 s) = rrcOf (1 - d) s ∧
      acquire d 0 0 0 0 s = setFills d ((fillsOf d s).map fun f => { f with installable := false })
        (setRrc d [] (bump (rrcF d Reg.MEM_RRC_INVALIDATED) (rrcOf d s).length s))) ∧
    (∀ (id : Nat) (f : RrcFill) (r : Req) (st : RStatus) (data : List Byte) (u : State),
      (fillsOf d s).find? (·.id = id) = some f → lookO s.reqs id = some r → r.stage = .done st data → f.waiters = [] →
      u = delReq id (setFills d ((fillsOf d s).filter fun x => x.id ≠ id) s) →
      (f.installable = true → st = .ok → exec (.rrcFillReturn d id) s = .next (rrcInstall d ⟨f.block, f.part, data, []⟩ u)) ∧
      (f.installable = false ∨ st ≠ .ok → exec (.rrcFillReturn d id) s = .next (bump (rrcF d Reg.MEM_RRC_FILLS_DROPPED) 1 u)))) ∧
  (∀ (k : StackId) (sym i : Nat) (s : State), i = smLook 0 s.glnPos k →
    ((stacksPresent s).testBit k = true → i + 1 < gleanPlaces →
      (∀ o u n, gleanOffset k i s = some o → granuleWritten o s = true → u = blockDecay o sym s → n = smLook 0 u.blkErr (o / 512) →
        (0 < n → n ≤ codeT o u → ∀ v, v = gleanCorrect k o n u →
          exec (.gleanerBlockVisit k sym 0) s = .next { v with glnPos := smPut 0 v.glnPos k (i + 1) }) ∧
        (n = 0 → exec (.gleanerBlockVisit k sym 0) s = .next { u with glnPos := smPut 0 s.glnPos k (i + 1) })) ∧
      (gleanOffset k i s = none ∨ (∃ o, gleanOffset k i s = some o ∧ granuleWritten o s = false) →
        exec (.gleanerBlockVisit k sym 0) s = .next { s with glnPos := smPut 0 s.glnPos k (i + 1) })) ∧
    ((stacksPresent s).testBit k = true → gleanPlaces ≤ i + 1 → gleanOffset k i s = none →
      exec (.gleanerBlockVisit k sym 0) s = .next { s with
        glnPos := smPut 0 s.glnPos k 0, glnPasses := smPut 0 s.glnPasses k (min (smLook 0 s.glnPasses k + 1) (2 ^ 32 - 1)) }) ∧
    ((stacksPresent s).testBit k = false → exec (.gleanerBlockVisit k sym 0) s = .next s))

/-- HBM accesses (R34, R212, R213, R228, R361): a queued request for HBM that nothing holds is performed wholly. A read of an
unwritten granule gives zeros and a clean read of a written one gives the stored bytes, with memory as it was; a write within
one block stores exactly its bytes, in a granule not written before every other byte then reads as zero, and every byte of
HBM outside the granule, or outside the stored bytes of a written one, reads as before. A request for memory that is not there is
refused. -/
def Obligations.HbmAccesses : Prop :=
  ∀ (id : Nat) (r : Req) (s : State) (o : Nat), lookO s.reqs id = some r → mayPerform id r s = true → o = gOff r.gaddr →
    o < hbmEnd →
    (∀ u, r.kind = .read → destOk o r.len s = true → 0 < r.len → o % 512 + r.len ≤ 512 →
      (granuleWritten o s = true → smLook 0 s.blkErr (o / 512) = 0 → exec (.hbmAccess id 0) s = .next
        (settleReq id r .ok ((hbmBytes (o / 512 * 512) 512 s |>.drop (o % 512)).take r.len) s)) ∧
      (granuleWritten o s = false → exec (.hbmAccess id u) s = .next
        (settleReq id r .ok (List.replicate r.len 0) s))) ∧
    (∀ l, r.kind = .write l → destOk o l.length s = true → 0 < l.length → o % 512 + l.length ≤ 512 →
      (granuleWritten o s = true → smLook 0 s.blkErr (o / 512) = 0 ∨ l.length = 512 → ∃ u,
        exec (.hbmAccess id 0) s = .next (settleReq id r .ok [] u) ∧
        ∀ a, hbmByte a u = if o ≤ a ∧ a < o + l.length then l.getD (a - o) 0 else hbmByte a s) ∧
      (granuleWritten o s = false → ∃ u, exec (.hbmAccess id 0) s = .next (settleReq id r .ok [] u) ∧
        granuleWritten o u = true ∧
        ∀ a, hbmByte a u = if o ≤ a ∧ a < o + l.length then l.getD (a - o) 0
          else if a / 4096 = o / 4096 then 0 else hbmByte a s)) ∧
    (destOk o r.len s = false → r.kind = .read → exec (.hbmAccess id 0) s = .next (settleReq id r .refused [] s))

/-- The memory's form is kept by every step: when HBM is listed by rising offsets and no listed byte reads as an unlisted one
does, it is so after the step. -/
def Obligations.HbmFormKept : Prop := ∀ s t : State, HbmWf s → step s = .next t → HbmWf t

/-- The words of tile instructions (R131, R137): encoding a well-formed instruction and splitting the word gives the
instruction back with every operand, and the decoder accepts it unless R132 forbids it. -/
def Obligations.TileWordRoundTrip : Prop :=
  ∀ i : TileWord, i.wf = true → tileSplit (tileEncode i) = some i ∧
    (tileWordFault (tileEncode i) = none → tileDecode (tileEncode i) = .ok i)

/-! ### Links -/

/-- The start of a training (R305, R307, R310, R311, R317): enabling a link starts its training and disabling it ends everything
on it; in POWER_UP its power-up leads to CLOCK_DETECT; there, clock lanes lead to RESTORE on the fast path and to EQ_COARSE
otherwise, with AUTO the rate alternates every 100 ms, and after 1 s there is no partner; EQ_COARSE and RESTORE lead to
BLOCK_LOCK. A stage's command in another state has no effect. Times are measured as log entry 75 says (the model's choice). -/
def Obligations.TrainingStart : Prop :=
  ∀ (l : LinkId) (s : State) (x : Link), x = getL l s →
    (linkPresent l s = true → s.frozen = false →
      (getLF l Reg.LNK_CFG_ENABLE s ≠ 1 → exec (.linkEnable l) s = .next (startTraining l false (setLF l Reg.LNK_CFG_ENABLE 1 s))) ∧
      exec (.linkDisable l) s = .next (setLF l Reg.LNK_TEST_STAT_RUNNING 0 (setLF l Reg.LNK_STATE_NO_PARTNER 0
        (setLSt l .disabled (modL l (fun x => { x with locked := 0, farLoop := false })
          (linkDiscard l (setLF l Reg.LNK_CFG_ENABLE 0 s))))))) ∧
    (LinkIn l .powerUp s → exec (.linkPowerUpDone l) s = .next (setLSt l .clockDetect s)) ∧
    (LinkIn l .clockDetect s →
      (∀ lanes : Fin 4, lanes.val ≠ 0 → exec (.partnerClockDetected l lanes) s = .next (setLF l Reg.LNK_STATE_CLOCK_LANES lanes
        (setLF l Reg.LNK_STATE_NO_PARTNER 0 (setLSt l (if x.fast then .restore else .eqCoarse) s)))) ∧
      (x.want = 0 → timerDue .linkRate l 100000000 s = true → exec (.partnerRateAlternate l) s = .next
        (modL l (fun x => { x with lx7Rate := !x.lx7Rate }) (timerSet .linkRate l s))) ∧
      (timerDue .linkState l 1000000000 s = true → exec (.noPartnerTimer l) s = .next (setLF l Reg.LNK_STATE_NO_PARTNER 1 s)) ∧
      (x.want ≠ 0 → exec (.partnerRateAlternate l) s = .next s) ∧
      (timerDue .linkState l 1000000000 s = false → exec (.noPartnerTimer l) s = .next s)) ∧
    (LinkIn l .eqCoarse s → exec (.eqCoarseDone l) s = .next (setLSt l .blockLock s) ∧ exec (.settingsRestored l) s = .next s) ∧
    (LinkIn l .restore s → exec (.settingsRestored l) s = .next (setLSt l .blockLock s) ∧ exec (.eqCoarseDone l) s = .next s) ∧
    (∀ st, (getL l (setLSt l st s)).st = st ∧ (∀ m, m ≠ l.val → getL m (setLSt l st s) = getL m s) ∧ (setLSt l st s).hbm = s.hbm)

/-- The stages of a training that can fail (R293, R296, R307 to R311, R317, R321): with lock on every lane, a straight or
reversed lane order within 32 blocks of skew leads to EQ_FINE and anything else fails with its cause; few symbol errors lead to
IDENTIFY; a right identity ends the attempt, a wrong link number or partner fails it, and so does stale data on the fast path;
a state that lasts beyond its bound fails; a retrain ends in ACTIVE or fails; and LNK_RETRY trains a FAILED link in full. Times
are measured as log entry 75 says (the model's choice). -/
def Obligations.TrainingStages : Prop :=
  ∀ (l : LinkId) (s : State),
    (LinkIn l .retrain s → exec (.retrainDone l .ok) s = .next
        (setLSt l .active (modL l (fun x => { x with locked := 2 ^ 24 - 1 }) s)) ∧
      ∀ e, e ≠ .ok → exec (.retrainDone l e) s = .next (trainFail l (retrainCause e) s)) ∧
    (LinkIn l .failed s → exec (.lnkRetry l) s = .next (startTraining l true s)) ∧
    (∀ st b, LinkIn l st s → stateBound st (getL l s).fast = some b → timerDue .linkState l b s = true →
      exec (.linkStateTimeout l) s = .next (trainFail l 1 s)) ∧
    (∀ errs : List Nat, LinkIn l .eqFine s →
      ((∀ e ∈ errs, e ≤ 20000) → exec (.eqFineDone l errs) s = .next (enterIdentify l s)) ∧
      ((∃ e ∈ errs, 20000 < e) → exec (.eqFineDone l errs) s = .next (trainFail l 4 s))) ∧
    (∀ (chip : Fin 32768) (valid : Bool) (link : Fin 8) (lx7 : Bool) (serial : B64) (u : State) (w : Nat), LinkIn l .identify s →
      u = notePartner l chip valid link lx7 serial s → w = (getL l u).want →
      (link.val = l.val.xor 1 → (w = 1 → lx7 = false) → (w = 2 → lx7 = true) →
        ((getL l u).fast = true → linkRecSerial l u = serial.toNat) →
        exec (.identifyDone l chip valid link lx7 serial) s = .next (identified l u)) ∧
      (link.val ≠ l.val.xor 1 → exec (.identifyDone l chip valid link lx7 serial) s = .next (trainFail l 5 u)) ∧
      (link.val = l.val.xor 1 → w = (if lx7 then 1 else 2) →
        exec (.identifyDone l chip valid link lx7 serial) s = .next (trainFail l 6 u))) ∧
    (∀ (lanes : List Nat) (skew : Nat) (h : List (List (BitVec 2))) (rev : Bool), LinkIn l .blockLock s → h.length = 24 →
      h.all lockGained = true →
      (lanes = (if rev then (List.range 24).reverse else List.range 24) →
        (skew ≤ 32 → exec (.blockLockDone l lanes skew h) s = .next (setLF l Reg.LNK_STATE_REVERSED (if rev then 1 else 0)
          (setLSt l .eqFine (modL l (fun x => { x with locked := 2 ^ 24 - 1 }) s)))) ∧
        (32 < skew → exec (.blockLockDone l lanes skew h) s = .next (trainFail l 2 s))) ∧
      (lanes ≠ List.range 24 → lanes ≠ (List.range 24).reverse → skew ≤ 32 →
        exec (.blockLockDone l lanes skew h) s = .next (trainFail l 3 s)))

/-- Topology discovery (R487, R499, R505 to R509): step 8 ends, when every enabled link is HELD or FAILED or after 1 s, in the
decision of R506; a silent discovery holds with NO_PARTNER after DISCOVERY_WAIT_MS; while a management core is active, a
probe is answered with the chip's own sizes and a reply is compared with them; and a probe that no reply follows within
1 ms is sent again, until three unanswered ones name a silent peer. Times are measured as log entry 75 says (the model's
choice). -/
def Obligations.Discovery : Prop :=
  ∀ (l : LinkId) (p : Packet) (s : State) (n : Nat), n = (getL l s).probes →
    (getF Reg.BOOT_STAT_STEP s = 8 → trainingOver s = true →
      exec .linkTrainingStepEnd s = .next (topoDecide (stepBegin 9 (stepDone 8 s)))) ∧
    (getF Reg.BOOT_STAT_STEP s = 9 → getF Reg.SYS_CHIP_CONFIRMED s = 0 → s.bootAt + discoveryWait s ≤ s.tb →
      exec .discoveryWaitExpire s = .next (bootHoldAt 6 { s with bootWait := s.tb - s.bootAt })) ∧
    (s.mgmt.up = true → ctrlOf 0x10 s = some p → exec .topoProbeReceived s = .next (topoPacket 0x11 p.src (ctrlTake p s))) ∧
    (∀ ls u, s.mgmt.up = true → ctrlOf 0x11 s = some p → ls = probedLinks p.src s →
      u = ls.foldl (fun (v : State) n => modL n (fun x => { x with probes := 0 }) v) (ctrlTake p s) →
      ((p.data.take 3).map BitVec.toNat = [getF Reg.FAB_TOPO_SX u, getF Reg.FAB_TOPO_SY u, getF Reg.FAB_TOPO_SZ u] →
        exec .topoReplyReceived s = .next u) ∧
      ((p.data.take 3).map BitVec.toNat ≠ [getF Reg.FAB_TOPO_SX u, getF Reg.FAB_TOPO_SY u, getF Reg.FAB_TOPO_SZ u] →
        exec .topoReplyReceived s = .next (logBoot .topologyPeerDiffers (ls.headD 0) (setF Reg.BOOT_TOPO_PEER_DIFFERS 1 u)))) ∧
    (timerDue .probe l 1000000 s = true →
      (0 < n → n < 3 → exec (.topoProbeTimer l) s = .next (topoPacket 0x10 (getLF l Reg.LNK_PARTNER_CHIP s)
        (modL l (fun x => { x with probes := n + 1 }) (timerSet .probe l s)))) ∧
      (3 ≤ n → exec (.topoProbeTimer l) s = .next (logBoot .topologyPeerSilent l (setF Reg.BOOT_TOPO_PEER_SILENT 1
        (modL l (fun x => { x with probes := 0 }) (timerSet .probe l s)))))) ∧
    (timerDue .probe l 1000000 s = false → exec (.topoProbeTimer l) s = .next s) ∧
    (getF Reg.BOOT_STAT_STEP s = 8 → trainingOver s = false → exec .linkTrainingStepEnd s = .next s) ∧
    (s.mgmt.up = false ∨ ctrlOf 0x10 s = none → exec .topoProbeReceived s = .next s)

/-- What disturbs a link and what its controls do (R289, R292, R293, R295, R304, R311, R321, R322): a lost lock or alignment
starts a retrain unless the direction sleeps; the loss of one clock lane is logged and the loss of both retrains; an unknown
control block is counted, and a partner's message can ask for a retrain; a lane that corrects more than one byte in 100,000
in a second is logged; LNK_RETRAIN, LNK_SAVE and LNK_FORGET do what they say. Times are measured as log entry 75 says (the
model's choice). -/
def Obligations.LinkUpkeep : Prop :=
  ∀ (l : LinkId) (lane : Fin 24) (s : State),
    (LinkIn l .active s → getLF l Reg.LNK_STATE_FALLOW_RX s = 0 → exec (.alignmentLost l) s = .next (startRetrain l s) ∧
      ∀ h, lockLost h = true → (getL l s).locked.testBit lane = true → exec (.blockLockLost l lane h) s = .next
        (startRetrain l (setL l { getL l s with locked := (getL l s).locked - 2 ^ lane.val } s))) ∧
    (LinkIn l .active s → ∀ u, u = modL l
        (fun x => { x with resume := true, nakSame := 0, naks := [], resends := 0, brief := false, wakeIn := 0 })
        (setLSt l .retrain (bumpLF l Reg.LNK_RETRAINS 1 s)) →
      exec (.lnkRetrain l) s = .next (emit (.laneMsg l .retrain) u) ∧ exec (.lnkSave l) s = .next (linkSave l s)) ∧
    (LinkIn l .active s → ∀ corrected bytes, timerDue .degraded (l.val * 32 + lane) 1000000000 s = true →
      ∀ u, u = timerSet .degraded (l.val * 32 + lane) s →
      (bytes < corrected * 100000 → exec (.linkDegradedCheck l lane corrected bytes) s = .next
        (logLimited (2 ^ 61 + (l.val * 32 + lane)) 3600000000000 .linkDegraded none none l (arg16 [lane]) u))) ∧
    (linkPresent l s = true → s.frozen = false → exec (.lnkForget l) s = .next (linkForget l s) ∧
      (∀ (c : Fin 2) (n : Nat), n = getLF l Reg.LNK_STATE_CLOCK_LANES s → n.testBit c = true →
        n ≠ 2 ^ c.val → exec (.linkClockLaneLost l c) s = .next (logEv .linkClockLaneLost none none l [] (setLF l Reg.LNK_STATE_CLOCK_LANES (n - 2 ^ c.val) s))) ∧
      (∀ (b : B64) (a : LaneAsk), (knownControl (b.toNat % 256) = false → exec (.laneMsgReceived l lane b a) s = .next (bumpLF l Reg.LNK_BAD_CONTROL 1 s)) ∧
        (b.toNat % 256 = 0x8C → crc16 ((leBytes 8 b.toNat).take 6) = leNat ((leBytes 8 b.toNat).drop 6) → a = .retrain →
          exec (.laneMsgReceived l lane b a) s = .next (retrainNow l s)))) ∧
    (∀ c : Fin 2, linkPresent l s = true → s.frozen = false → getLF l Reg.LNK_STATE_CLOCK_LANES s = 2 ^ c.val →
      exec (.linkClockLaneLost l c) s = .next (startRetrain l (modL l (fun x => { x with locked := 0 }) (setLF l Reg.LNK_STATE_CLOCK_LANES 0 s)))) ∧
    (LinkIn l .active s → ∀ corrected bytes, timerDue .degraded (l.val * 32 + lane) 1000000000 s = true →
      corrected * 100000 ≤ bytes → exec (.linkDegradedCheck l lane corrected bytes) s = .next (timerSet .degraded (l.val * 32 + lane) s)) ∧
    (LinkIn l .active s → getLF l Reg.LNK_STATE_FALLOW_RX s = 1 → exec (.alignmentLost l) s = .next s ∧
      ∀ h, exec (.blockLockLost l lane h) s = .next s)

/-- Fallow (R313 to R315): an idle direction of an LX9 link sleeps after one last NULL group and a row of SLEEP, and wakes when
there is something to send, for an owed ACK, NAK or credit, after 100 ms, or when LNK_WAKE tells it; what is received moves the
receive direction; and a wake whose lock does not come within 1 µs is counted and retrains. Times are measured as log entry 75
says (the model's choice). That the first group after a wake comes 16 to 94 slots later is log entry 65, the model's choice. -/
def Obligations.Fallow : Prop :=
  ∀ (l : LinkId) (s : State) (x : Link), x = getL l s → LinkIn l .active s →
    (getLF l Reg.LNK_CFG_FALLOW_EN s = 1 → getLF l Reg.LNK_STATE_LX7 s = 0 → getLF l Reg.LNK_STATE_FALLOW_TX s = 0 →
      x.awake = false → x.wakeIn = 0 → idleLong l s = true →
      exec (.fallowEnter l) s = .next (backToSleep l (sendGroup l { nullGroup x with fallow := true } s))) ∧
    (getLF l Reg.LNK_STATE_FALLOW_TX s = 1 →
      exec (.lnkWake l) s = .next (wakeTx l false s) ∧
      (wakeForData l s = true → exec (.fallowWake l) s = .next (wakeTx l false s)) ∧
      (wakeForData l s = false → x.nakDue = true ∨ ackOld x s = true ∨ creditDue x.owed = true →
        exec (.fallowWake l) s = .next (wakeTx l true s)) ∧
      (x.sleepAt + 100000000 ≤ s.tb → exec (.fallowSleepLimit l) s = .next
        (wakeTx l false (modL l (fun x => { x with awake := true, awakeAt := s.tb }) s)))) ∧
    (x.awakeAt + 10000 ≤ s.tb → exec (.fallowAwakeHoldEnd l) s = .next (setL l { x with awake := false } s)) ∧
    (getLF l Reg.LNK_STATE_LX7 s = 0 → exec (.sleepReceived l) s = .next (setLF l Reg.LNK_STATE_FALLOW_RX 1 (timerSet .wakeRows l s))) ∧
    exec (.wakeReceived l) s = .next (setLF l Reg.LNK_STATE_FALLOW_RX 0 s) ∧
    (getLF l Reg.LNK_STATE_FALLOW_RX s = 1 → timerDue .wakeRows l 1000 s = true → exec (.wakeLockTimeout l) s = .next
      (startRetrain l (setLF l Reg.LNK_STATE_FALLOW_RX 0 (bumpLF l Reg.LNK_WAKE_FAILS 1 s)))) ∧
    (s.mgmt.dark.testBit l = false → ∀ brief n, n = 16 + freeNat s % 79 → ∃ rows, 256 ≤ rows ∧ rows ≤ max 256 (17 * n) ∧
      wakeTx l brief s = emit (.row l rows (ctlRow (wakeBlock (13 + 17 * ((x.pos + n) % 963)))))
        (setLF l Reg.LNK_STATE_FALLOW_TX 0 (setL l { x with brief := brief, wakeIn := n, idle := 0 }
          { s with freeCtr := s.freeCtr + 2 }))) ∧
    (idleLong l s = false → exec (.fallowEnter l) s = .next s) ∧
    (s.tb < x.sleepAt + 100000000 → exec (.fallowSleepLimit l) s = .next s)

/-- Tests (R318 to R320): a write of LNK_TEST_CTL starts or ends a test; a partner's far loop is granted when ALLOW_FAR is set
and refused otherwise; a checker's errors are added to those of its lane alone.
Legacy idle (R316): an idle LX7 link asks for idle and grants a request; it goes idle on a grant of its own request, which
lapses after 10 µs; and it leaves idle with a training burst, its own or its partner's. Times are measured as log entry 75 says
(the model's choice). -/
def Obligations.TestsAndLegacy : Prop :=
  ∀ (l : LinkId) (s : State),
    (linkPresent l s = true → s.frozen = false →
      (∀ v : B64, exec (.lnkTestCtlWrite l v) s = .next (testCtl l v.toNat s)) ∧
      ((getL l s).st ≠ .disabled → getLF l Reg.LNK_CFG_ALLOW_FAR s = 1 → exec (.farLoopRequest l) s = .next
        (emit (.laneMsg l .farGranted) (enterTest l true true s))) ∧
      ((getL l s).st ≠ .disabled → getLF l Reg.LNK_CFG_ALLOW_FAR s = 0 → exec (.farLoopRequest l) s = .next
        (emit (.laneMsg l .farRefused) s))) ∧
    (∀ (lane : Fin 24) (errs : Nat), LinkIn l .test s → getLF l Reg.LNK_TEST_STAT_RUNNING s = 1 →
      ∃ u, exec (.testCheckerSync l lane errs) s = .next u ∧
        smLook 0 (getL l u).prbs lane = min (smLook 0 (getL l s).prbs lane + errs) (2 ^ 32 - 1) ∧
        (∀ m, m ≠ lane.val → smLook 0 (getL l u).prbs m = smLook 0 (getL l s).prbs m) ∧ (getL l u).st = .test) ∧
    (LinkIn l .active s → getLF l Reg.LNK_STATE_LX7 s = 1 →
      (idleLong l s = true →
        exec (.legacyIdleRequest l) s = .next (emit (.row l 1 (ctlRow (legacyBlock 1))) (timerSet .legacyAsk l
          (modL l (fun x => { x with legacyReq := true }) s))) ∧
        exec (.legacyIdleReceived l false) s = .next (setLSt l .legacyIdle (emit (.row l 1 (ctlRow (legacyBlock 2))) s))) ∧
      ((getL l s).legacyReq = true → exec (.legacyIdleReceived l true) s = .next
        (setLSt l .legacyIdle (modL l (fun x => { x with legacyReq := false }) s)))) ∧
    (timerDue .legacyAsk l 10000 s = true → exec (.legacyIdleLapse l) s = .next (modL l (fun x => { x with legacyReq := false }) s)) ∧
    (LinkIn l .legacyIdle s → exec (.trainingBurst l) s = .next (emit (.burst l) (setLSt l .active s)) ∧
      exec (.trainingBurstReceived l) s = .next (setLSt l .active s)) ∧
    (LinkIn l .active s → idleLong l s = false → exec (.legacyIdleRequest l) s = .next s ∧ exec (.legacyIdleReceived l false) s = .next s) ∧
    (∀ v : B64, linkPresent l s = true → s.frozen = false → v.toNat = 1 → (getL l s).st = .active →
      exec (.lnkTestCtlWrite l v) s = .next (enterTest l false true (setLF l Reg.LNK_TEST_CTL_MODE 1 (setLF l Reg.LNK_TEST_CTL_PATTERN 0 s))))

/-- Groups (R294, R297 to R304, R307): a slot sends one group: the waiting packets under the next SEQ, a NULL group where
nothing can go and while the link trains, the next kept group during a resend, and PRBS31Q before BLOCK_LOCK; a received group
that does not decode, or that is ahead of the SEQ expected, makes one NAK due; the next in order is accepted once both ends
are released; an earlier one is dropped; a NAK is repeated every 2 µs; and what no ACK has covered for 10 µs is all sent again
and, the fourth time, retrains. Times are measured as log entry 75 says (the model's choice). How full a group is, and what an
unused byte of it holds, are log entries 65 and 37, and the polynomial of PRBS31Q is log entry 67. -/
def Obligations.LinkGroups : Prop :=
  ∀ (l : LinkId) (rx : RxGroup) (s : State) (x : Link), x = getL l s → linkPresent l s = true →
    (x.st ∈ ([.blockLock, .eqFine, .identify, .held, .retrain] : List LSt) →
      exec (.groupSlot l) s = .next (sendGroup l (nullGroup x) s) ∧
      (getLF l Reg.LNK_STATE_FALLOW_TX s = 0 → x.wakeIn = 0 →
        exec (.periodStart l) s = .next (periodRows l (setL l { x with pos := 0 } s)))) ∧
    (∀ w, w = groupDecode rx.lanes (getLF l Reg.LNK_STATE_REVERSED s = 1) x.dscr → x.st = .active →
      getLF l Reg.LNK_STATE_FALLOW_RX s = 0 → ∀ u, u = fecCounts l w (setL l { x with dscr := w.dscr } s) →
      (w.bad = true → exec (.groupReceived l rx) s = .next (groupLost l u)) ∧
      (w.bad = false → exec (.groupReceived l rx) s = .next (takeGroup l (w.group rx.used) u))) ∧
    (x.st = .active → x.missing = true → timerDue .nakRepeat l 2000 s = true → exec (.nakRepeatTimer l) s = .next
      (modL l (fun x => { x with nakDue := true }) (timerSet .nakRepeat l s))) ∧
    (x.st = .active → replayDue x s = true → ∀ u, u = setL l { x with resend := some 0, resends := x.resends + 1 } s →
      (4 ≤ x.resends + 1 → exec (.replayTimeout l) s = .next (startRetrain l u)) ∧
      (x.resends + 1 < 4 → exec (.replayTimeout l) s = .next u)) ∧
    (x.st ∈ ([.clockDetect, .eqCoarse, .restore] : List LSt) → exec (.groupSlot l) s = .next (sendPrbs l true s)) ∧
    (∀ g d, x.st = .active → g.null = false → d = seqDiff g.seq x.rxNext →
      (d = 0 → (getL l (takeControl l g s)).peerReleased = true → takeGroup l g s = acceptData l g (takeControl l g s)) ∧
      (0 < d → d < 32768 → takeGroup l g s = groupLost l s) ∧ (32768 ≤ d → takeGroup l g s = s)) ∧
    groupLost l s = setL l (if x.missing then x else { x with missing := true, nakDue := true }) s ∧
    (x.st = .active → getLF l Reg.LNK_STATE_FALLOW_TX s = 0 → x.wakeIn = 0 → x.brief = false → x.resume = false →
      ∀ u, u = (if s.frozen then s else setL l x s) →
      (∀ i g, x.resend = some i → x.kept[i]? = some g → exec (.groupSlot l) s = .next
        (sendGroup l g (bumpLF l Reg.LNK_REPLAYED 1 (setL l { x with
          sentAt := x.sentAt.set i s.tb
          resend := (if i + 1 < x.kept.length then some (i + 1) else none) } u)))) ∧
      (x.resend = none → 256 ≤ x.kept.length → exec (.groupSlot l) s = .next
        (sendGroup l (nullGroup x) (bumpLF l Reg.LNK_REPLAY_FULL 1 u))) ∧
      (∀ r g, x.resend = none → x.kept.length < 256 → r = fillGroup l 200 3056 u → r.1.2 ≠ [] →
        g = ⟨false, x.txSeq, 0, (0, 0), (0, 0), false, false, false, r.1.1, r.1.2⟩ → exec (.groupSlot l) s = .next
          (sendGroup l g (modL l (fun y => { y with
            txSeq := (y.txSeq + 1) % 65536, kept := y.kept ++ [g], sentAt := y.sentAt ++ [s.tb], idle := 0 }) r.2))))

/-! ### The router -/

/-- The router (R327, R329, R331, R333, R334, R338, R341, R342, R346): the packet at the head of an input leaves it; a malformed
one, one without a route and one after 96 hops is dropped, and the buffer that it held is free again; one for this module waits
at the output of its home; any other waits at the link that its route names. The first packet that has stood at the head of its
buffer for HL_WAIT_NS, of those that wait for a link, may move to the Headland channel; a link that stays down for
DOWN_HOLD_MS drops the packets that wait for it. -/
def Obligations.Routing : Prop :=
  ∀ (port : Fin 9) (p : Packet) (l : List Packet) (s u : State) (n : Nat), n = s.nextPkt →
    (∀ (k : LinkId) (q : QPkt) (j : Nat), (smLook [] s.outQ k).find? (fun q => q.p.vc < 5 && getF Reg.FAB_CFG_HL_WAIT_NS s ≤ q.wait) = some q →
      q.p.mcast = false → u = bump Reg.FAB_HL_ENTRIES 1 { s with outQ := smMod [] s.outQ k (·.erase q) } →
      routePort (routeEntry q.p.epoch q.p.dst u / 8 % 8) u = some j →
      exec (.headlandMove k) s = .next { u with outQ := smMod [] u.outQ j (· ++ [{ q with p := { q.p with
        vc := 5, hlc := (if crossesDateline j u then 1 else 0) } }]) }) ∧
    (∀ k : LinkId, (lnkActive k s = false → getF Reg.FAB_CFG_DOWN_HOLD_MS s * 1000000 ≤ downFor k s → exec (.linkDownHoldExpire k) s = .next
        ((smLook [] s.outQ k).foldl (fun (t : State) q => dropPacket Reg.FAB_DROP_LINKDOWN (!q.p.mcast) q.p (dequeue k q t)) s)) ∧
      (lnkActive k s = true ∨ downFor k s < getF Reg.FAB_CFG_DOWN_HOLD_MS s * 1000000 → exec (.linkDownHoldExpire k) s = .next s)) ∧
    (smLook [] s.rtIn port = p :: l → u = { s with rtIn := smPut [] s.rtIn port l, nextPkt := n + 1 } →
      ∀ free : State → State, free = bufferFree port (creditCode p) (creditsOf p) →
      (malformed p = false → p.mcast = false → p.dst = ownChip u →
        exec (.packetArrival port) s = .next (enqueueLocal (localPort p u) n port (creditCode p) p u)) ∧
      (malformed p = true → exec (.packetArrival port) s = .next (free (dropPacket Reg.FAB_DROP_MALFORMED false p u))) ∧
      (malformed p = false → p.mcast = false → p.dst ≠ ownChip u →
        (routePort (routeCode p u) u = none → exec (.packetArrival port) s = .next
          (free (dropPacket Reg.FAB_DROP_NOROUTE true p u))) ∧
        (∀ k, routePort (routeCode p u) u = some k →
          (96 ≤ p.hops → exec (.packetArrival port) s = .next (free (dropPacket Reg.FAB_DROP_HOPS true p u))) ∧
          (p.hops < 96 → exec (.packetArrival port) s = .next (enqueue k n port (creditCode p) p u)))) ∧
      (malformed p = false → p.mcast = true → (smLook 0 u.mcast (p.epoch * 4096 + p.group)).testBit 7 = false →
        exec (.packetArrival port) s = .next (free (dropPacket Reg.FAB_DROP_NOROUTE false p u)))) ∧
    (smLook [] s.rtIn port = [] → exec (.packetArrival port) s = .next s)

/-- Held requests, route tables and quotas (R270, R336, R342, R343, R400): a request leaves once neither its fence nor the order of
its ring holds it; a word of the version not in force is written, and the version in force takes no write of its table; an
epoch switch selects the other version and is counted. A quota word whose sum is at most 96, and a slots word whose sum with the
other word's slots is at most 4,096, are taken field by field; any other is ignored. -/
def Obligations.TablesAndQuotas : Prop :=
  (∀ (v : B64) (s : State) (q r : Nat → Nat), q = (fun p => v.toNat / 2 ^ (8 * p) % 128) → r = (fun p => v.toNat / 2 ^ (16 * p) % 8192) →
    (((List.range 8).map q).sum ≤ 96 → ∃ u, exec (.colQuotaWrite v) s = .next u ∧ SameButRegs s u ∧
      ∀ p < 8, getF (quotaF p) u = q p) ∧
    (∀ (hi : Bool) (f g : Nat → Fld), f = (fun p => slotsF (if hi then p + 4 else p)) → g = (fun p => slotsF (if hi then p else p + 4)) →
      (((List.range 4).map r).sum + ((List.range 4).map fun p => getF (g p) s).sum ≤ 4096 →
        ∃ u, exec (.colSlotsWrite hi v) s = .next u ∧ SameButRegs s u ∧
          ∀ p < 4, getF (f p) u = r p ∧ getF (g p) u = getF (g p) s) ∧
      (4096 < ((List.range 4).map r).sum + ((List.range 4).map fun p => getF (g p) s).sum → exec (.colSlotsWrite hi v) s = .next s)) ∧
    (96 < ((List.range 8).map q).sum → exec (.colQuotaWrite v) s = .next s)) ∧
  (∀ (s : State) (v : B64) (ver i cur : Nat), ver = getF Reg.FAB_RT_SEL_VERSION s → i = getF Reg.FAB_RT_SEL_INDEX s * 8 →
    cur = getF Reg.FAB_EPOCH_CURRENT s →
    (ver ≠ cur → getB Reg.FAB_RT_SEL_MCAST s = false →
      ∃ t, exec (.fabRtDataWrite v) s = .next t ∧ t.mcast = s.mcast ∧ t.regs = s.regs ∧
        (∀ k < 8, smLook 0x3F t.routes (ver * 32768 + i + k) = v.toNat / 256 ^ k % 256) ∧
        (∀ n, n < ver * 32768 + i ∨ ver * 32768 + i + 8 ≤ n → smLook 0x3F t.routes n = smLook 0x3F s.routes n)) ∧
    (∀ b : Bool, s.frozen = false → (getB Reg.FAB_EPOCH_CURRENT s ≠ b → exec (.fabEpochSwitch b) s = .next
        (setB Reg.FAB_EPOCH_CURRENT b (bump Reg.FAB_EPOCH_SWITCHES 1 s)))) ∧
    (∀ id r, s.fenced = [id] → lookO s.reqs id = some r →
      ((r.fence && fenceHeld id r s || orderHeld r s) = false →
        exec .fencedPacketRelease s = .next (leaveReq id r { s with fenced := [] })) ∧
      ((r.fence && fenceHeld id r s || orderHeld r s) = true → exec .fencedPacketRelease s = .next s)) ∧
    (∀ b : Bool, s.frozen = false → getB Reg.FAB_EPOCH_CURRENT s = b → exec (.fabEpochSwitch b) s = .next s) ∧
    (ver = cur → exec (.fabRtDataWrite v) s = .next (bump Reg.FAB_RT_REJECTS 1 s)) ∧
    (ver ≠ cur → getB Reg.FAB_RT_SEL_MCAST s = true →
      ∃ t, exec (.fabRtDataWrite v) s = .next t ∧ t.routes = s.routes ∧ t.regs = s.regs ∧
        (∀ k < 8, smLook 0 t.mcast (ver * 4096 + i + k) = v.toNat / 256 ^ k % 256) ∧
        (∀ n, n < ver * 4096 + i ∨ ver * 4096 + i + 8 ≤ n → smLook 0 t.mcast n = smLook 0 s.mcast n)))

/-! ### Collectives -/

/-- Groups (R383, R384): a definition is noted at DEFINE and read and checked once when it ends; a group with no collective
waiting or admitted is undefined, and one in use is not.
Admission (R402, R403, R412): the head of a partition's queue is admitted when its footprint fits the quota and, on an
ORDERED ring, it is the oldest command; then LAST_SEQ is its sequence number, its input is read, and it begins; an unreadable
input ends it. Until then nothing changes. A head whose SEQ is not above LAST_SEQ is refused (R401, R404). The order of the
checks is log entry 39 (DEDUCED). -/
def Obligations.GroupsAndAdmission : Prop :=
  (∀ (p : PartId) (n : Nat) (c : Coll) (m : Nat × Nat) (s : State) (q last : Nat), q = getF (quotaF p) s * 2 ^ 20 →
    last = getF (fldNth Reg.COL_LAST_SEQ p) s → collHead p s = some (n, c) → m = collMode c.op c.count c.g c.a q →
      (∀ u, last < c.seq → gristUsed p s + m.2 ≤ q → collTurn c s = true → m.2 ≠ 0 → m.1 = 0 →
        u = modCmd c.ring c.idx (fun k => { k with started := true })
          (setColl n { c with st := .running, slice := 0, foot := m.2 } (setF (fldNth Reg.COL_LAST_SEQ p) c.seq s)) →
        (∀ l v, collRead c.src (readLen c.op c.count c.g c.pos c.e c.rowBytes) u = (.ok l, v) →
          exec (.collAdmit p) s = .next (collBegin n l v)) ∧
        (∀ b v, collRead c.src (readLen c.op c.count c.g c.pos c.e c.rowBytes) u = (.error b, v) →
          exec (.collAdmit p) s = .next (collFail n 0x0202 b v))) ∧
      (c.seq ≤ last → exec (.collAdmit p) s = .next (collFail n 0x0303 0 s)) ∧
      (last < c.seq → q < gristUsed p s + m.2 ∨ collTurn c s = false → exec (.collAdmit p) s = .next s)) ∧
  (∀ (s : State) (g : Nat), g = getF Reg.COL_GROUP_SEL s →
    exec .colGroupDefine s = .next { s with groupDefs := s.groupDefs ++ [(g, getF Reg.COL_GROUP_ADDR s)] } ∧
    (groupBusyC g s = false → exec .colGroupUndefine s = .next
      { s with groups := smDel s.groups g, groupFail := smDel s.groupFail g }) ∧
    (groupBusyC g s = true → exec .colGroupUndefine s = .next { s with groupFail := smPut 0 s.groupFail g 4 }) ∧
    (∀ (d : Nat × Nat) l u x, s.groupDefs = d :: l → groupRead d.1 d.2 { s with groupDefs := l } = (.ok x, u) →
      exec .groupDefineDone s = .next { u with groups := putO u.groups d.1 x, groupFail := smDel u.groupFail d.1 }) ∧
    (∀ (d : Nat × Nat) l u e, s.groupDefs = d :: l → groupRead d.1 d.2 { s with groupDefs := l } = (.error e, u) →
      exec .groupDefineDone s = .next { u with groupFail := smPut 0 u.groupFail d.1 e }) ∧
    (s.groupDefs = [] → exec .groupDefineDone s = .next s))

/-- The packets of a reduction, a gathering or a broadcast (R392, R398, R403, R416): a reduce-scatter segment is combined
with the member's own partial and goes on, or is final; an all-gather segment is written and goes on to the successor;
broadcast data is written; the space that a packet took is granted again; a packet with no collective is stray. -/
def Obligations.ReductionPackets : Prop :=
  ∀ (p : Packet) (n : Nat) (c : Coll) (i o : Nat) (s u : State), u = hubTook p s → i = c.members.idxOf p.src →
    o = p.addr % 2 ^ 36 → c.st = .running →
    (∀ x, CollGot 5 1 p n c s → c.op = 0 ∨ c.op = 2 → i = c.back 1 → o + p.data.length ≤ c.count * c.e → x = o / c.e →
      exec .collAgSegment s = .next (stripGot n ((x - chunkAt c.count c.g (c.chunkOf x)) / c.sliceLen) (p.data.length / c.e)
        (collRegrant n i p.data.length (if c.chunkOf x = c.succ then collOut n o p.data u
          else collQueue n (collPieces c.succ 1 o p.data) (collOut n o p.data u))))) ∧
    (CollGot 6 0 p n c s → c.op = 5 → i = 0 → p.addr % 2 ^ 40 + p.data.length ≤ c.count * c.e → exec .mcWriteReceived s = .next
      (collSettle n (collRegrant n i p.data.length (collOut n (p.addr % 2 ^ 40) p.data u)))) ∧
    (∀ x out v, CollGot 5 0 p n c s → isReduce c.op = true → i = c.back 1 → o + p.data.length ≤ c.count * c.a → x = o / c.a →
      out = bytesLe c.a (((wordsLe c.a p.data).zip (wordsLe c.a (sliceB c.acc o p.data.length))).map fun e =>
        collCombine c.dtype c.ctl e.1 e.2) →
      v = setColl n { c with acc := c.acc.take o ++ out ++ c.acc.drop (o + p.data.length) } u →
      exec .collRsSegment s = .next (stripGot n ((x - chunkAt c.count c.g (c.chunkOf x)) / c.sliceLen) (p.data.length / c.a)
        (collRegrant n i p.data.length (if c.chunkOf x = c.pos then collFinal n x out v
          else collQueue n (collPieces c.succ 0 o out) v)))) ∧
    (collPkt 5 0 s = some p → collFor p u = none → exec .collRsSegment s = .next (bump Reg.COL_STRAY_PACKETS 1 u))

/-- The packets of an all-to-all (R396, R403, R415, R416): counts, grants and rows are noted, sent and written; a readiness is
noted with its space, and one with another HASH or fingerprint ends the collective with 0x0305. The payloads of control packets
are log entry 39 (DEDUCED). -/
def Obligations.AllToAllPackets : Prop :=
  ∀ (p : Packet) (n : Nat) (c : Coll) (i o : Nat) (s u : State), u = hubTook p s → i = c.members.idxOf p.src →
    o = p.addr % 2 ^ 36 → c.st = .running →
    (CollGot 5 2 p n c s → c.op = 4 → exec .collRowCount s = .next (collSettle n (collGrantRows n
      (setColl n { c with counts := putO c.counts i (dField p.data 0 8) } u)))) ∧
    (CollGot 5 3 p n c s → c.op = 4 → exec .collGrant s = .next (collSettle n (collQueue n
      (collPieces i 4 (dField p.data 8 8 * c.rowBytes) (sliceB c.acc (i * c.count * c.rowBytes) (dField p.data 0 8 * c.rowBytes)))
      (setColl n { c with grants := putO c.grants i (dField p.data 0 8, dField p.data 8 8) } u)))) ∧
    (CollGot 5 4 p n c s → c.op = 3 ∨ c.op = 4 →
      o + p.data.length ≤ writeLen c.op c.count c.g c.pos c.e c.rowBytes c.cap → exec .collRowData s = .next
        (collSettle n (collRegrant n i p.data.length (collOut n o p.data u)))) ∧
    (CollGot 5 5 p n c s →
      (dField p.data 8 8 = c.hash + collPrint c * 2 ^ 32 → c.op ≠ 4 → exec .collReadyGrant s = .next (collFlush n (setColl n { c with
        credit := smMod 0 c.credit i (· + dField p.data 0 8)
        ready := (if c.ready.contains i then c.ready else c.ready ++ [i]) } u))) ∧
      (dField p.data 8 8 ≠ c.hash + collPrint c * 2 ^ 32 → exec .collReadyGrant s = .next
        (collFail n 0x0305 (c.members.getD i 0 * 2 ^ 40) (logEv .collParamMismatch (some c.part) (some c.ctx) c.group
          (leBytes 8 c.seq ++ leBytes 2 (c.members.getD i 0)) u))))

/-- Detection and revocation (R407, R411, R413): a failed residue check of a reduction is a detection and a clean one is
nothing; member 0 multicasts a REVOKE that another member asks for; a member that receives one learns of it, and one that is
too late is counted and logged; when a settle window has passed, SETTLED is posted where no revocation is known. -/
def Obligations.CollectiveRevocation : Prop :=
  ∀ (g : GroupId) (seq : B64) (lane : Fin 1024) (n : Nat) (c : Coll) (p : Packet) (s : State),
    (collOf g seq.toNat s = some (n, c) →
      (isReduce c.op = true → c.st = .running → exec (.residueCheckResult g seq lane true) s = .next (collDetect n lane s)) ∧
      exec (.residueCheckResult g seq lane false) s = .next s ∧
      (∀ t, s.frozen = false → c.st = .resulted t → c.sends = [] → t + c.window ≤ s.tb →
        exec (.settleWindowExpire g seq) s = .next (delColl n (lateAdd c.ring (lateCompl c 0 2 0 0) s))) ∧
      (∀ t, s.frozen = false → c.st = .revoked t → c.sends = [] → t + c.window ≤ s.tb →
        exec (.settleWindowExpire g seq) s = .next (delColl n s)) ∧
      (∀ t, s.frozen = false → c.st = .resulted t → s.tb < t + c.window → exec (.settleWindowExpire g seq) s = .next s)) ∧
    (∀ x, ctrlOf 2 s = some p →
      (lookO (ctrlTake p s).groups p.group = some x → x.members.headD 0 = ownChip (ctrlTake p s) →
        ∃ d : Coll, exec .revokeToRootReceived s = .next (revokeAll d (dField p.data 8 2) (dField p.data 10 2) (ctrlTake p s)) ∧
          d.group = p.group ∧ d.seq = dField p.data 0 8 ∧ d.members = x.members) ∧
      (lookO (ctrlTake p s).groups p.group = none → exec .revokeToRootReceived s = .next (bump Reg.COL_STRAY_PACKETS 1 (ctrlTake p s)))) ∧
    (∀ u, ctrlOf 1 s = some p → u = bump Reg.COL_REVOKES_RECEIVED 1 (ctrlTake p s) →
      (collOf p.group (dField p.data 0 8) u = some (n, c) → c.st ≠ .settled →
        exec .revokeReceived s = .next (collLearn n (dField p.data 8 2) u)) ∧
      (collOf p.group (dField p.data 0 8) u = none → lookO u.groups p.group = none → exec .revokeReceived s = .next
        (bump Reg.COL_LATE_REVOKES 1 (logEv .collLateRevoke none none p.group (leBytes 8 (dField p.data 0 8)) u))))

/-! ### Power and heat -/

/-- Caps (R422 to R424, R449, R456, R521): the first change of a source's cap applies at once and opens its window of 250 µs, those
that follow while it is open are held, and at its end the lowest that was held applies; the rack manager's cap refreshes it, and
its loss is noted after 3 s; without a rack cap the orphan cap then applies, 10 s later. L is at least 900 W and never above the
fused TDP unless that is below 900 W. Times are measured as log entry 75 says (the model's choice). -/
def Obligations.PowerCaps : Prop :=
  ∀ (v : B64) (w : B16) (o : CapOwner) (rq : Nat) (c : Option Nat) (s : State), s.frozen = false →
    (c = (if v.getLsbD 16 && v.toNat % 65536 ≠ 0 then some (v.toNat % 65536) else none) →
      (s.pwr.hostWin = false → exec (.pwrCapHostWrite v) s = .next (if hostCap s = c then s else capOpen .host [] (capSet .host c s))) ∧
      (s.pwr.hostWin = true → exec (.pwrCapHostWrite v) s = .next
        { s with pwr := { s.pwr with hostWin := true, hostHeld := s.pwr.hostHeld ++ [c] } })) ∧
    (s.mgmt.up = true → exec (.fwCapUpdate w) s = .next
      (setLimits (setF Reg.PWR_CAP_FW_WATTS w.toNat (setB Reg.PWR_CAP_FW_VALID (w ≠ 0) s)))) ∧
    (SbOpen s →
      exec (.setRackCap rq w) s = .next (sbCode rq 0 (capWrite .rack (if w = 0 then none else some w.toNat)
        (setF Reg.PWR_CAP_RACK_LOST 0 (setF Reg.PWR_CAP_RACK_ORPHAN 0
          (timerSet .refresh 0 (modP (fun x => { x with refreshDue := true, orphanDue := false }) s)))))) ∧
      (900 ≤ w.toNat → w.toNat ≤ tdp s → exec (.setOrphanCap rq w) s = .next (sbCode rq 0 (setF Reg.PWR_ORPHAN_ORPHAN_W w.toNat s)))) ∧
    (s.pwr.refreshDue = true → timerDue .refresh 0 3000000000 s = true → exec .rackRefreshTimeout s = .next (logEv .rackManagerLost none none 0 []
      (setB Reg.PWR_CAP_RACK_LOST true (timerSet .orphan 0 (modP (fun x => { x with refreshDue := false, orphanDue := true }) s))))) ∧
    (∀ n u, s.pwr.orphanDue = true → timerDue .orphan 0 10000000000 s = true → rackCap s = none → n = getF Reg.PWR_ORPHAN_ORPHAN_W s →
      u = setB Reg.PWR_CAP_RACK_ORPHAN true { s with pwr := { s.pwr with orphanDue := false } } → rackCap u = none →
      exec .orphanTimeout s = .next (capOpen .rack u.pwr.rackHeld (capSet .rack (some n) u))) ∧
    (capWindowOver o s = true →
      ((capHeld o s).2 = [] → exec (.capWindowExpire o) s = .next (capHold o false [] s)) ∧
      (∀ x l low, (capHeld o s).2 = x :: l → low = l.foldl capLower x → (x :: l).getLast? = some low → capVal o s ≠ low →
        exec (.capWindowExpire o) s = .next (capOpen o [] (capSet o low s)))) ∧
    (900 ≤ limitL s ∧ (900 ≤ tdp s → limitL s ≤ tdp s) ∧ ∀ k ∈ validCaps s, 900 ≤ k → limitL s ≤ k) ∧
    (capWindowOver o s = false → exec (.capWindowExpire o) s = .next s) ∧
    (SbOpen s → w.toNat < 900 ∨ tdp s < w.toNat → exec (.setOrphanCap rq w) s = .next (sbCode rq 2 s)) ∧
    (s.mgmt.up = false → exec (.fwCapUpdate w) s = .next s)

/-- The estimator, the limiter and the shares of the limit (R25, R420, R421, R428, R431 to R433, R443): every 4 µs an estimate enters
the means; every millisecond the gain moves by at most 1 % and stays within 0.80 and 1.25; every 4 µs a limiter's wish is held to
600 MHz and the target, in steps of 25, and above 1,050 MHz only within headroom; every millisecond the partitions get their
shares: when the guarantees fit, none gets less than the smaller of its guarantee and its demand, nor more than its demand,
and else each is scaled by the same factor; and what has been sampled of each throttle reason is counted in microseconds. Times
are measured as log entry 75 says (the model's choice). -/
def Obligations.PowerControl : Prop :=
  (∀ s : State, s.powered = true →
    (∀ dyn stat u, timerDue .estimate 0 4000 s = true → u = timerSet .estimate 0 s →
      exec (.powerEstimateTick dyn stat) s = .next { u with pwr := { u.pwr with
        estSum := s.pwr.estSum + (dyn * s.pwr.gain / 1000000 + stat)
        estN := s.pwr.estN + 1
        estHist := ((dyn * s.pwr.gain / 1000000 + stat) :: s.pwr.estHist).take 25 } }) ∧
    (∀ w v a : B16, timerDue .gain 0 1000000 s = true →
      exec (.estimateGainCorrect w v a) s = .next (gainCorrect w.toNat v.toNat a.toNat (timerSet .gain 0 s))) ∧
    (∀ freq duty, railsOn s = true → timerDue .limiter 0 4000 s = true →
      exec (.limiterEval freq duty) s = .next (limiterEval freq duty (timerSet .limiter 0 s))) ∧
    (∀ demands other use, s.frozen = false → timerDue .allocate 0 1000000 s = true →
      exec (.partitionAllocate demands other use) s = .next (allocateAll demands other use (timerSet .allocate 0 s))) ∧
    exec .throttleSampleTick s = .next ((List.range 11).foldl countReason s) ∧
    (∀ freq duty want, s.pwr.skip = false → want = max 600 (min (if headroom s then targetF s else 1050) freq) / 25 * 25 →
      limiterEval freq duty s = retarget 1 (retarget 0 { s with
        clk0 := { s.clk0 with want := want, duty := max 4 (min 16 duty) }
        clk1 := { s.clk1 with want := want, duty := max 4 (min 16 duty) } }))) ∧
  (∀ g e m, 800000 ≤ g → g ≤ 1250000 → 800000 ≤ nextGain g e m ∧ nextGain g e m ≤ 1250000 ∧
    g - g / 100 ≤ max 800000 (nextGain g e m) ∧ nextGain g e m ≤ g + g / 100) ∧
  (∀ b l, (b < (l.map Claim.need).sum → allocate b l = l.map fun c => (c.p, nearest (c.need * b) (l.map Claim.need).sum)) ∧
    ((l.map Claim.need).sum ≤ b → (∀ c ∈ l, c.need ≤ c.demand ∧ 0 < c.weight) →
      ∀ c ∈ l, ∃ a, (c.p, a) ∈ allocate b l ∧ c.need ≤ a ∧ a ≤ c.demand))

/-- The clocks (R430, R438 to R440): a frequency moves 25 MHz a microsecond, upward only where the voltage has settled; a
stretch and the end of a wait are noted; and the ageing calibration measures both dies.
Heat (R436, R445, R446, R448): each millisecond of the thermal model stores the readings and predictions of present sensors and
judges each; a die at its threshold loses 25 MHz of its ceiling every 100 µs, and one that has cooled gets 25 back every
millisecond; a sensor at 105 °C trips: the rails go off with cause 5, and for the hub die every rail but the always-on ones.
Times are measured as log entry 75 says (the model's choice). -/
def Obligations.ClocksAndHeat : Prop :=
  ∀ (d : DieId) (n : SensorId) (s : State) (c : Clk), c = clkOf d s → s.powered = true →
    (∀ r m, timerDue .thermal 0 1000000 s = true → exec (.thermalModelTick r m) s = .next (modelTick r m (timerSet .thermal 0 s))) ∧
    (n.val < 40 → 840 ≤ effTemp n s → s.frozen = false → getB Reg.THM_STAT_TRIPPED s = false → ∀ u,
      u = railsOff 5 (logEv .thermalTrip none none n [] (setB Reg.THM_STAT_TRIPPED true (modP (fun x => { x with tripHold := true }) s))) →
      exec (.thermalTrip n) s = .next (if n.val < 32 then u else hubOff u)) ∧
    (droopOver d s = true → exec (.droopWaitExpire d) s = .next (modClk d (fun c => { c with waiting := false }) s)) ∧
    (railsOn s = true →
      exec (.droopStretch d) s = .next (modClk d (fun c => { c with stretchAt := some s.tb }) s) ∧
      (s.mgmt.up = true → timerDue .ageing 0 82800000000000 s = true → exec .ageingCalibration s = .next (ageRun s)) ∧
      (dieHot d s = true → timerDue .loopDown d 100000 s = true → exec (.thermalLoopStepDown d) s = .next (loopDown d (timerSet .loopDown d s))) ∧
      (loopMayRise d s = true → timerDue .loopUp d 1000000 s = true → exec (.thermalLoopStepUp d) s = .next (loopUp d (timerSet .loopUp d s))) ∧
      (c.moving = true → exec (.voltageSettled d) s = .next (modClk d (fun c => { c with vmax := max c.vmax (clkTarget d s) }) s)) ∧
      (c.moving = true → c.waiting = false → timerDue .freq d 1000 s = true →
        (c.f < clkTarget d s → c.f + 25 ≤ c.vmax → exec (.freqStep d) s = .next (timerSet .freq d
          (modClk d (fun c => { c with f := c.f + 25, moving := decide (c.f + 25 < clkTarget d s) }) s))) ∧
        (clkTarget d s ≤ c.f → ∀ g, g = max (clkTarget d s) (c.f - 25) → exec (.freqStep d) s = .next (timerSet .freq d
          (modClk d (fun c => { c with f := g, vmax := g, moving := decide (clkTarget d s < c.f - 25) }) s))) ∧
        (c.f < clkTarget d s → c.vmax < c.f + 25 → exec (.freqStep d) s = .next s)) ∧
      (dieHot d s = false → exec (.thermalLoopStepDown d) s = .next s)) ∧
    (effTemp n s < 840 → s.frozen = false → exec (.thermalTrip n) s = .next s) ∧
    (∀ ns u, ns = (List.range 58).filter (fun n => sensorPresent n s) → u = ns.foldl sensorCount (crossNote (fun s => s) s) →
      modelTick [] [] s = loopNote 1 (loopNote 0 (divergence ns ((ns.filter fun n => sensorBad n u).foldl (fun s n => sensorFail n s) u))))

/-- The brake, the Tamp and the rails (R434, R435, R454, R455, R457, R478): the brake is shown and halves the clock duty, and its
release passes through 75 % for 20 µs; a mean estimate above 105 % of the TDP clamps, and one at or below it releases; so does the
input current's limit. An order of the host or the rack manager, or an input too low or too high, turns the compute rails off with
its cause, and with them every tile, kernel and HBM byte goes. A sag limits the module until the input recovers. -/
def Obligations.BrakeAndRails : Prop :=
  ∀ (cause rq : Nat) (s : State) (r : State), r = railsOff cause s →
    (s.powered = true → exec .inputCurrentLimit s = .next { s with pwr := { s.pwr with clampI := true } } ∧
      exec .inputSag s = .next (setLimits { s with pins := { s.pins with sag := true }, pwr := { s.pwr with lowV := true } })) ∧
    exec .inputCurrentRelease s = .next { s with pwr := { s.pwr with clampI := false } } ∧
    exec .inputRecover s = .next (setLimits { s with
      pins := { s.pins with sag := false, under := false, overV := false }, pwr := { s.pwr with lowV := false } }) ∧
    (s.pwr.estHist.length = 25 →
      (tdp s * 25 * 105 < estAverage s * 100 → exec .tampTdpClamp s = .next { s with pwr := { s.pwr with clampTdp := true } }) ∧
      (estAverage s ≤ tdp s * 25 → exec .tampTdpClamp s = .next { s with pwr := { s.pwr with clampTdp := false } })) ∧
    (s.frozen = false →
      exec (.hostOffWrite true) s = .next (railsOff 2 (setB Reg.PWR_RAILS_HOST_OFF true s)) ∧
      exec (.hostOffWrite false) s = .next (setB Reg.PWR_RAILS_HOST_OFF false s) ∧
      exec .undervoltage s = .next (railsOff 6 { s with pins := { s.pins with under := true, hotswap := false } }) ∧
      exec .overvoltage s = .next (railsOff 7 { s with pins := { s.pins with overV := true } })) ∧
    (SbOpen s →
      exec (.setRackOff rq 1) s = .next (sbCode rq 0 (railsOff 1 (setB Reg.PWR_RAILS_RACK_OFF true s))) ∧
      exec (.setRackOff rq 2) s = .next (sbCode rq 0 (setB Reg.PWR_RAILS_RACK_OFF false s))) ∧
    (∃ u, exec .brakeAssert s = .next u ∧ u.pins.brake = true ∧ u.pwr.ease = 0 ∧ getB Reg.PWR_RAILS_BRAKE u = s.powered ∧
      (s.pins.resetN = false → clockDuty u = 50) ∧ u.hbm = s.hbm ∧ u.tiles = s.tiles) ∧
    (s.pins.brake = true → ∃ u, exec .brakeRelease s = .next u ∧ u.pins.brake = false ∧ u.pwr.ease = 20000 ∧
      getB Reg.PWR_RAILS_BRAKE u = false ∧ (s.pins.resetN = false → s.pwr.clampTdp = false → s.pwr.clampI = false → clockDuty u = 75)) ∧
    (railsOn s = false → r = s) ∧
    (railsOn s = true → (∀ e ∈ s.rings, e.2.enable = true ∨ e.2.cmds = []) → r.tiles = [] ∧ r.hbm = [] ∧ r.written = [] ∧
      r.kernels = [] ∧ r.chans = [] ∧ r.clk0.f = 0 ∧ r.clk1.f = 0) ∧
    (s.pins.brake = false → exec .brakeRelease s = .next s) ∧
    (s.pwr.estHist.length = 25 → tdp s * 25 < estAverage s → estAverage s * 100 ≤ tdp s * 25 * 105 → exec .tampTdpClamp s = .next s) ∧
    (SbOpen s → ∀ v : Byte, v ≠ 1 → v ≠ 2 → exec (.setRackOff rq v) s = .next (sbCode rq 0x81 s))

/-- Coolant and leaks (R450 to R454): the loss of COOLANT_OK with the rails on is counted, limits the module and starts the grace
delay, whose end turns the rails off; the pin's return ends both; a leak does the same with its own delay, which then holds the
rails off until a reset; an inlet within its bounds sets no condition; an excess rise is declared above 2 °C/s;
and an outlet below the inlet for 10 s fails both sensors. Times are measured as log entry 75 says (the model's choice). -/
def Obligations.CoolantAndLeaks : Prop :=
  ∀ (s : State) (ohms : Nat) (k : State), k = showLoop (modPins (fun p => { p with ohms := ohms }) s) →
    (s.powered = true →
      (∀ r : B16, timerDue .rise 0 10000000 s = true → exec (.excessRiseSample r) s = .next (riseSample r (timerSet .rise 0 s))) ∧
      (s.pwr.cSensor = false → crossOff s = true → timerDue .crossCheck 0 10000000000 s = true →
        exec .coolantSensorCrosscheck s = .next (setLimits (logEv .coolantSensorFault none none 0 []
          (sensorFail 59 (sensorFail 58 { s with pwr := { s.pwr with cSensor := true } }))))) ∧
      (loopState ohms = getF Reg.CLN_STAT_LEAK_STATE s → exec (.leakLoopStateChange ohms) s = .next k) ∧
      (∀ (t : BitVec 12) u, u = crossNote (setF (thmF 58 Reg.THM_SENSOR_READING) t.toNat) s → 120 ≤ t.toNat → t.toNat ≤ 312 →
        getB Reg.CLN_STAT_INLET_HIGH u = false → getB Reg.CLN_STAT_INLET_SEVERE u = false →
        exec (.inletTempChange t) s = .next (setLimits (setB Reg.CLN_STAT_INLET_LOW false u)))) ∧
    (s.frozen = false → delayOver s.pwr.graceEnd s = true → s.pins.coolantOk = false → exec .coolantGraceExpire s = .next (railsOff 3 s)) ∧
    (∀ u, s.frozen = false → delayOver s.pwr.leakEnd s = true → u = { s with pwr := { s.pwr with leakEnd := none, leakOff := true } } →
      exec .leakOffExpire s = .next (if railsOn u then railsOff 4 u else setF Reg.PWR_RAILS_LAST_OFF_CAUSE 4 u)) ∧
    (∀ b u, u = showCoolant (modPins (fun p => { p with coolantOk := b }) s) →
      (b = true → u.pwr.lost = true → exec .coolantOkAssert s = .next (setLimits (logEv .coolantLost none none 0 []
        { u with pwr := { u.pwr with lost := false, graceEnd := none } }))) ∧
      (b = false → railsOn u = true → u.pwr.lost = false → exec .coolantOkDeassert s = .next (setLimits
        (logEv .coolantLost none none 0 [] (bump Reg.CLN_EVENTS_COOLANT_LOSSES 1 { u with pwr := { u.pwr with
          lost := true, graceEnd := some (u.tb + getF Reg.CLN_CFG_GRACE_S u * 1000000000) } }))))) ∧
    (s.powered = true →
      (loopState ohms = 1 → getF Reg.CLN_STAT_LEAK_STATE s ≠ 1 → ∀ v, v = logEv .coolantLeak none none 0 [] (bump Reg.CLN_EVENTS_LEAKS 1 k) →
        exec (.leakLoopStateChange ohms) s = .next (setLimits (if v.pwr.leak then v else leakBegin v))) ∧
      (2 ≤ loopState ohms → getF Reg.CLN_STAT_LEAK_STATE s ≠ loopState ohms → exec (.leakLoopStateChange ohms) s = .next
        (logEv .leakSenseFault none none 0 [] (bump Reg.CLN_EVENTS_LOOP_FAULTS 1 k)))) ∧
    (∀ (r : B16) u, 200 < r.toInt → u = { setF Reg.CLN_STAT_EXCESS_RATE r.toNat s with pwr := { s.pwr with riseLow := 0 } } →
      getB Reg.CLN_STAT_EXCESS_RISE s = false → getB Reg.CLN_STAT_EXCESS_RISE u = false → riseSample r s =
        setLimits (bump Reg.CLN_EVENTS_RISES 1 (logEv .coolantRise none none 0 [] (setB Reg.CLN_STAT_EXCESS_RISE true u)))) ∧
    (s.frozen = false → s.pwr.graceEnd = none → exec .coolantGraceExpire s = .next s)
/-! ### Bring-up, resets and records -/

/-- Power, bring-up and module resets (R454, R462, R476, R493, R494, R497, R553, R563, R567, R568): 48 V starts the always-on
domain and step 2 where its conditions hold; a reset of the module or a warm reset restarts bring-up unless RACK_OFF is set or,
for RESET_N, until the pin is released; a power cycle is requested once and reported again every 30 s; and a loss of power leaves
the module unpowered, with HBM, its tiles and its registers as at reset and with its configuration memory and fuses as they
were. Times are measured as log entry 75 says (the model's choice). -/
def Obligations.ModuleResets : Prop :=
  ∀ s : State,
    (∀ u, s.powered = false → u = { s with powered := true, bootAt := s.tb } → exec .powerOn s = .next
      (bootStart false (stepDone 1 (showAlways (stepBegin 1 (setF Reg.PWR_AGEING_TRIM_D0 s.kept.trim0
        (setF Reg.PWR_AGEING_TRIM_D1 s.kept.trim1 (setF Reg.PWR_AGEING_FMAX_D0 s.kept.fmax0
          (setF Reg.PWR_AGEING_FMAX_D1 s.kept.fmax1 u))))))))) ∧
    (s.powered = true → exec .prechargeSettled s = .next (railsResume { s with pins := { s.pins with hotswap := true } })) ∧
    (∀ r, cycleRecord s = some r → s.pwr.cycle = true → s.mgmt.up = true → timerDue .cycleReport 0 30000000000 s = true →
      exec .powerCycleReportTimer s = .next (outboxPush (.record r) (timerSet .cycleReport 0 s))) ∧
    (s.frozen = false →
      exec .railsWaitEnd s = .next (railsResume s) ∧
      (5 ≤ getF Reg.BOOT_STAT_STEP s → exec .railsOn s = .next (railsResume s)) ∧
      (s.powered = true → exec .resetNAssert s = .next (moduleReset false 1 { s with pins := { s.pins with resetN := true } })) ∧
      (s.pins.resetN = true → s.powered = true → getF Reg.BOOT_STAT_STATE s ≠ 1 →
        exec .resetNRelease s = .next (bootStart false { s with pins := { s.pins with resetN := false } })) ∧
      (s.powered = true → s.pwr.hubDown = false →
        (getB Reg.PWR_RAILS_RACK_OFF s = false →
          exec .sysResetModule s = .next (moduleReset false 2 s) ∧ exec .sysResetWarm s = .next (moduleReset true 3 s)) ∧
        (s.pwr.cycle = false → exec .sysResetPowerCycle s = .next (cycleRequest s)))) ∧
    (∃ u, exec .powerLoss s = .next u ∧ u.powered = false ∧ u.hbm = [] ∧ u.tiles = [] ∧ u.regs = [] ∧ u.log = [] ∧ u.rings = [] ∧
      u.flash = s.flash ∧ u.fuse = s.fuse ∧ u.kept = s.kept ∧ u.pins.hotswap = false ∧ u.pending = s.pending) ∧
    (s.frozen = false → (getF Reg.BOOT_STAT_STATE s ≠ 1 → exec .railsWaitEnd s = .next s) ∧
      (s.powered = true → s.pwr.hubDown = false →
        (getB Reg.PWR_RAILS_RACK_OFF s = true → exec .sysResetModule s = .next s ∧ exec .sysResetWarm s = .next s) ∧
        (s.pwr.cycle = true → exec .sysResetPowerCycle s = .next s))) ∧
    (s.powered = true → exec .powerOn s = .next s)

/-- Resets of contexts, partitions and engines (R469 to R476, R553): the work of a context is removed and its run waits for its
engines; AUTO_MS after a fault a context resets itself; the last report completes the run; a step that exceeds its timeout is
counted, and goes on where AUTO_ESCALATE is set and stops where it is not; a request for a FREE context is counted as rejected, and
one for a RESETTING context has no effect. Times are measured as log entry 75 says (the model's choice). -/
def Obligations.ContextResets : Prop :=
  ∀ (c : CtxId) (p : PartId) (e : Engine) (s : State) (x : Ctx), x = getC c s → s.frozen = false →
    (railsOn s = true →
      (x.st = .active ∨ x.st = .faulted → ∀ u, u = jobStart ⟨1, x.part, [c.val], enginesWith [c.val] s, false, false⟩
          (removeWork [c.val] (ctxResetting s c)) →
        exec (.ctxResetRequest c) s = .next u ∧
        (x.st = .faulted → x.autoMs ≠ 0 → timerDue .autoReset c (x.autoMs * 1000000) s = true → exec (.autoResetTimer c) s = .next u)) ∧
      exec (.partitionResetRequest p) s = .next (partReset p s) ∧
      (x.st = .free → exec (.ctxResetRequest c) s = .next (bump Reg.RST_REJECTS 1 s)) ∧
      (x.st = .resetting → exec (.ctxResetRequest c) s = .next s)) ∧
    (∀ n j, jobOf c s = some (n, j) → j.wait.contains e = true → mayReport e s = true → exec (.engineWorkRemoved c e) s = .next
      (jobTry n (reportWork j e (setJob n { j with wait := j.wait.filter (· ≠ e) } s)))) ∧
    (∀ n j u, lookO s.jobs n = some j → j.stopped = false → railsOn s = true → timerDue .ladder n (stepLimit j.step) s = true →
      u = bump Reg.RST_STEP_TIMEOUTS 1 s →
      (getB Reg.RST_CFG_AUTO_ESCALATE u = true → exec (.ladderStepTimeout (some n)) s = .next (ladderNext n j u)) ∧
      (getB Reg.RST_CFG_AUTO_ESCALATE u = false → exec (.ladderStepTimeout (some n)) s = .next
        (setJob n { j with stopped := true } (logEv .resetStepTimeout (some j.part) none 0 (arg16 [j.step]) u)))) ∧
    (∀ u, s.step4 = true → (getF Reg.BOOT_STAT_STATE s = 0 ∨ 4 ≤ getF Reg.BOOT_STAT_STATE s) → s.powered = true →
      timerDue .step4 0 10000000000 s = true → u = bump Reg.RST_STEP_TIMEOUTS 1 { s with step4 := false } →
      getB Reg.RST_CFG_AUTO_ESCALATE u = true → exec (.ladderStepTimeout none) s = .next (cycleRequest u)) ∧
    (x.autoMs = 0 → exec (.autoResetTimer c) s = .next s) ∧
    (railsOn s = false → exec (.ctxResetRequest c) s = .next s ∧ exec (.partitionResetRequest p) s = .next s) ∧
    (jobOf c s = none → exec (.engineWorkRemoved c e) s = .next s)

/-- The log's window, the defect record, snapshots and configuration memory (R279, R280, R282, R482, R503, R513, R558): LOG_SEL
copies the record that it names, or marks none; a defect above tile 271 is rejected; a snapshot freezes what it records and the
end of its freeze releases what waited; its bytes go to DEST; and the oldest configuration-memory operation ends at its event. -/
def Obligations.RecordsAndSnapshots : Prop :=
  ∀ (v : B64) (t : Fin 512) (s : State),
    (∀ r u, u = setF Reg.LOG_SEL v.toNat s → lookO s.log v.toNat = some r →
      (getF Reg.LOG_HEAD u ≤ v.toNat → exec (.logSelWrite v) s = .next (setF Reg.LOG_STAT_SEL_VALID 1 { u with logSel := recBytes r })) ∧
      (v.toNat < getF Reg.LOG_HEAD u → exec (.logSelWrite v) s = .next (setF Reg.LOG_STAT_SEL_VALID 0 { u with logSel := [] }))) ∧
    (t.val ≤ 271 →
      exec (.fpDefectAdd t) s = .next (setF Reg.FP_DEFECT_STAT_LAST_REJECTED 0 (setF Reg.FP_DEFECT_STAT_PENDING 1
        (defectSet (defectAdd t 3 s.defects) s))) ∧
      exec (.fpDefectRemove t) s = .next (setF Reg.FP_DEFECT_STAT_LAST_REJECTED 0 (setF Reg.FP_DEFECT_STAT_PENDING 1
        (defectSet (s.defects.filter fun e => e.1 ≠ t.val) s)))) ∧
    (s.frozen = true → snapTime s + 100 ≤ s.tb → exec .snapshotFreezeEnd s = .next
      (s.held.foldl heldRun { s with frozen := false, held := [], snapImage := snapPatch s })) ∧
    (∀ q l w, s.frozen = false → s.snapQ = q :: l → q.cmd = none → w = hbmWrite q.dest s.snapImage (freeNat s) (tick1 s) →
      exec .snapshotWriteDone s = .next (snapServe { w.2 with snapQ := l, snapImage := [] })) ∧
    (∀ op l, s.frozen = false → s.cfgQ = op :: l →
      exec (.configMemoryOpDone true) s = .next (opFollows true op.after (cfgDone op { s with cfgQ := l })) ∧
      (s.mgmt.up = true → exec (.configMemoryOpDone false) s = .next
        (opFollows false op.after (logBoot .configMemoryFault 0 { s with cfgQ := l })))) ∧
    (s.powered = true → s.pwr.hubDown = false →
      (snapDestBad (getF Reg.SYS_SNAP_DEST s) s = false → s.snapQ = [] → ∃ u, exec .sysSnapGo s = .next u ∧ u.frozen = true ∧
        u.snapQ = [⟨0, gOff (getF Reg.SYS_SNAP_DEST s), none⟩] ∧ u.hbm = s.hbm ∧ u.tiles = s.tiles ∧
        getF Reg.SYS_SNAP_EPOCH u = (getF Reg.SYS_SNAP_EPOCH s + 1) % 2 ^ Reg.SYS_SNAP_EPOCH.w) ∧
      (snapDestBad (getF Reg.SYS_SNAP_DEST s) s = true → exec .sysSnapGo s = .next (setF Reg.SYS_SNAP_CTL_FAILED 1 s))) ∧
    (lookO s.log v.toNat = none → exec (.logSelWrite v) s = .next
      (setF Reg.LOG_STAT_SEL_VALID 0 { setF Reg.LOG_SEL v.toNat s with logSel := [] })) ∧
    (271 < t.val → exec (.fpDefectAdd t) s = .next (setF Reg.FP_DEFECT_STAT_LAST_REJECTED 1 s) ∧
      exec (.fpDefectRemove t) s = .next (setF Reg.FP_DEFECT_STAT_LAST_REJECTED 1 s)) ∧
    (s.frozen = true → s.tb < snapTime s + 100 → exec .snapshotFreezeEnd s = .next s) ∧
    (s.frozen = false → exec .snapshotFreezeEnd s = .next s ∧ (s.cfgQ = [] → ∀ ok, exec (.configMemoryOpDone ok) s = .next s))

/-! ### Felmos -/

/-- The management cores (R515 to R519, R526): a heartbeat on the mailbox is counted, toggles HEARTBEAT_OUT and restores missed
paths; one path missed for 2.9 ms is shown and logged, two or a fatal error start a switchover, after which no core is active and
the STANDBY core, once it has loaded its state, takes over; a core that fails its self-test twice in a row is FAILED. Times are
measured as log entry 75 says (the model's choice). -/
def Obligations.ManagementCores : Prop :=
  ∀ (box wire c0 c1 : Bool) (core : Fin 2) (s : State), s.frozen = false →
    (s.mgmt.up = true →
      (timerDue .heartbeat 0 950000 s = true → exec (.felmosHeartbeat box wire) s = .next (heartbeat box wire (timerSet .heartbeat 0 s))) ∧
      (timerDue .checkpoint 0 9000000 s = true → exec .felmosCheckpoint s = .next (checkpoint (timerSet .checkpoint 0 s))) ∧
      exec .fatalErrorSignal s = .next (switchover .fatal s) ∧
      (s.mgmt.missBox = false → s.mgmt.missWire = false → timerDue .boxBeat 0 2900000 s = true →
        (timerDue .wireBeat 0 2900000 s = true → exec (.watchdogPathMiss true true) s = .next (switchover .paths s)) ∧
        exec (.watchdogPathMiss true false) s = .next (logEv .felmosHbPathLost none none 0 (arg16 [0])
          (setB Reg.MGT_CORE_STAT_HB_MAILBOX_OK false (setB Reg.MGT_CORE_STAT_HB_WIRE_OK true
            { s with mgmt := { s.mgmt with missBox := true } }))))) ∧
    (getF Reg.BOOT_STAT_STATE s = 5 → s.pwr.cycle = false → timerDue .recovery 0 4000000 s = true → exec .recoveryHeartbeat s = .next
      (modM (fun m => { m with beat := !m.beat }) (timerSet .recovery 0 s))) ∧
    (s.mgmt.up = false → s.mgmt.gapAt.isSome = true → coreState (otherCore s) s = 1 → ∀ u, u = { s with mgmt := { s.mgmt with
        ck0 := { s.mgmt.ck0 with valid := s.mgmt.ck0.valid && c0 }, ck1 := { s.mgmt.ck1 with valid := s.mgmt.ck1.valid && c1 } } } →
      exec (.standbyTakeoverDone c0 c1) s = .next (takeover (newestCkpt u).isSome u)) ∧
    (∀ n, s.mgmt.up = true → core.val ≠ activeCore s → coreState core s = 2 → getF Reg.FW_STAT_ACT_STATE s ≠ 2 →
      n = (if core.val = 0 then s.mgmt.fails0 else s.mgmt.fails1) + 1 →
      (∀ u, u = setCore core 1 (setBank core (bankOf (activeCore s) s) s) → exec (.coreSelftestDone core true) s = .next
        (logEv .felmosStandbyReady none none 0 (arg16 [0])
          { u with mgmt := (if core.val = 0 then { u.mgmt with fails0 := 0 } else { u.mgmt with fails1 := 0 }) })) ∧
      (∀ u, u = { s with mgmt := (if core.val = 0 then { s.mgmt with fails0 := n } else { s.mgmt with fails1 := n }) } →
        exec (.coreSelftestDone core false) s = .next
          (if n < 2 then u else logEv .felmosCoreFailed none none 0 (arg16 [0]) (setCore core 3 u)))) ∧
    (∀ u, u = heartbeat true wire s → s.mgmt.missBox = false → s.mgmt.missWire = false → s.pwr.cycle = false →
      u.mgmt = { s.mgmt with beat := !s.mgmt.beat } ∧ getF Reg.MGT_CORE_STAT_HB_MAILBOX_OK u = 1 ∧
      getF Reg.MGT_CORE_STAT_HB_WIRE_OK u = 1 ∧ u.log = s.log ∧
      getF Reg.MGT_HEARTBEAT_COUNT u = (getF Reg.MGT_HEARTBEAT_COUNT s + 1) % 2 ^ Reg.MGT_HEARTBEAT_COUNT.w) ∧
    (s.mgmt.up = false → exec (.felmosHeartbeat box wire) s = .next s ∧ exec .felmosCheckpoint s = .next s ∧
      exec (.watchdogPathMiss box wire) s = .next s ∧ exec .fatalErrorSignal s = .next s) ∧
    (s.mgmt.up = true → exec (.standbyTakeoverDone c0 c1) s = .next s) ∧
    (getF Reg.BOOT_STAT_STATE s ≠ 5 → exec .recoveryHeartbeat s = .next s)

/-- The side-band's base (R520 to R523): each request is answered with its completion code and data: identifiers set and read
back, the types, the commands of a type, the descriptor records that exist, and an error for any other. With no core active a
request waits for one. The layouts are those of the standards that R520 names (PRESUMED, log entry 44). -/
def Obligations.SideBandBase : Prop :=
  ∀ (rq id : Nat) (x : Byte) (s : State),
    (s.powered = true → s.pwr.hubDown = false → ∀ a : BitVec 7, exec (.i3cAddressAssign a) s = .next
      (setF Reg.MGT_SB_STAT_DYN_ADDR a.toNat (setF Reg.MGT_SB_STAT_ADDR_VALID 1 s))) ∧
    (SbOpen s →
      (x ≠ 0 → x ≠ 255 → exec (.mctpSetEndpointId rq x) s = .next
          (sbAnswer rq [0, 0, x, 0] (setF Reg.MGT_SB_STAT_EID x.toNat s)) ∧
        exec (.pldmSetTid rq x) s = .next (sbCode rq 0 { s with mgmt := { s.mgmt with tid := x.toNat } })) ∧
      exec (.pldmGetTid rq) s = .next (sbAnswer rq (bytes8 [0, s.mgmt.tid]) s) ∧
      exec (.pldmGetPldmTypes rq) s = .next (sbAnswer rq (bytes8 [0, 0x15, 0, 0, 0, 0, 0, 0, 0]) s) ∧
      exec (.pldmGetPldmVersion rq 2) s = .next (sbAnswer rq (bytes8 [0, 0, 0, 0, 0, 5] ++ bytes8 [0x00, 0xF0, 0xF2, 0xF1] ++
        leBytes 4 (crc32 (bytes8 [0x00, 0xF0, 0xF2, 0xF1]))) s) ∧
      exec (.pldmGetPldmCommands rq 4) s = .next (sbAnswer rq (bytes8 [0] ++ leBytes 32 4) s) ∧
      (∀ o, (sbObjects s)[max id 1 - 1]? = some o → ∃ l, exec (.pldmGetPdr rq id) s = .next (sbAnswer rq l (tick1 s)) ∧ l.head? = some 0) ∧
      (x = 0 ∨ x = 255 → exec (.mctpSetEndpointId rq x) s = .next (sbCode rq 2 s) ∧ exec (.pldmSetTid rq x) s = .next (sbCode rq 2 s)) ∧
      (x ≠ 0 → x ≠ 2 → x ≠ 4 → exec (.pldmGetPldmVersion rq x) s = .next (sbCode rq 0x83 s) ∧
        exec (.pldmGetPldmCommands rq x) s = .next (sbCode rq 0x83 s)) ∧
      ((sbObjects s)[max id 1 - 1]? = none → exec (.pldmGetPdr rq id) s = .next (sbCode rq 0x82 s))) ∧
    (s.powered = true → s.pwr.hubDown = false → s.mgmt.up = false → s.mgmt.sbHeld.length < 256 → exec (.pldmGetTid rq) s = .next
      { s with mgmt := { s.mgmt with sbHeld := s.mgmt.sbHeld ++ [.pldmGetTid rq] } })

/-- The side-band's objects (R520 to R522, R524, R527, R544, R554): sensors and effecters that exist are read and any other is an
error; the event receiver, the locate light and an eject are set; the FRU record is returned; a message that the tray controller
acknowledges leaves the outbox. The layouts are those of the standards that R520 names (PRESUMED, log entry 44). -/
def Obligations.SideBandObjects : Prop :=
  ∀ (rq id : Nat) (x : Byte) (s : State), SbOpen s →
    (∀ v, numericSensor id s = some v → exec (.pldmGetSensorReading rq id) s = .next
      (sbAnswer rq (bytes8 [0, v.1, 0, 0, 0, 0, 0] ++ v.2) s)) ∧
    (∀ v, stateSensor id s = some v → exec (.pldmGetStateSensorReadings rq id) s = .next (sbAnswer rq (bytes8 [0, 1, 0, v, 0, v]) s)) ∧
    (∀ v, numericEffecter id s = some v → exec (.pldmGetNumericEffecterValue rq id) s = .next
      (sbAnswer rq (bytes8 [0, 2, 0] ++ leBytes 2 v ++ leBytes 2 v) s)) ∧
    (∀ e : Option Byte, exec (.pldmSetEventReceiver rq e) s = .next
      (sbCode rq 0 { s with mgmt := { s.mgmt with receiver := e.map (·.toNat) } })) ∧
    (∀ t, t = leBytes 8 (getF Reg.LIC_SERIAL s) ++ bytes8 [getF Reg.SYS_ID_VARIANT s] ++ ((shownBundle s).drop 1).flatMap (leBytes 8) →
      exec (.pldmGetFruRecordTable rq) s = .next (sbAnswer rq (bytes8 [0] ++ leBytes 4 0 ++ bytes8 [5] ++ t ++ leBytes 4 (crc32 t)) s)) ∧
    (1 ≤ x.toNat → x.toNat ≤ 3 → exec (.setLocateLed rq x) s = .next
      (sbCode rq 0 { s with mgmt := { s.mgmt with locate := some (x.toNat - 1) } })) ∧
    (getF Reg.FW_STAT_ACT_STATE s = 0 → s.mgmt.stage = none → exec (.sidebandEjectRequest rq) s = .next (sbCode rq 0 (ejectStart 1 s))) ∧
    exec (.sidebandEjectCancel rq) s = .next (sbCode rq 0 (ejectCancel 1 s)) ∧
    (∀ (boot fseq : B32) m, s.outbox = [m] → m.boot = boot.toNat → m.fseq = fseq.toNat → exec (.platformEventAck boot fseq) s = .next
      (setF Reg.MGT_SB_SEQ_LAST_ACKED (max fseq.toNat (getF Reg.MGT_SB_SEQ_LAST_ACKED s))
        (setF Reg.MGT_SB_STAT_OUTBOX_PENDING 0 { s with outbox := [], outboxFull := false }))) ∧
    (numericSensor id s = none → exec (.pldmGetSensorReading rq id) s = .next (sbCode rq 0x80 s)) ∧
    (stateSensor id s = none → exec (.pldmGetStateSensorReadings rq id) s = .next (sbCode rq 0x80 s)) ∧
    (numericEffecter id s = none → exec (.pldmGetNumericEffecterValue rq id) s = .next (sbCode rq 0x80 s)) ∧
    (3 < x.toNat → exec (.setLocateLed rq x) s = .next (sbCode rq 0x81 s)) ∧
    (getF Reg.FW_STAT_ACT_STATE s ≠ 0 → exec (.sidebandEjectRequest rq) s = .next (sbCode rq 1 s))

/-- Reading over the service port (R528 to R530): identity, status and log records are returned, a slot is read back, and a bundle is
activated where SERVICE_ACTIVATE allows; a repeated request gets the same answer again, and one with a bad CRC none. -/
def Obligations.ServiceReads : Prop :=
  ∀ (req off : B32) (slot : Byte) (len : B16) (cold : Bool) (s : State) (n o : Nat), n = req.toNat → o = off.toNat →
    (SvcOpen req s →
      exec (.svcIdentify req true) s = .next (svcAnswer 1 n 0 .ok (leBytes 8 (getF Reg.LIC_SERIAL s) ++ leBytes 8 (sysId s) ++
        leBytes 8 (bootStat s) ++ leBytes 8 (fwStat s) ++ ((shownBundle s).drop 1).flatMap (leBytes 8)) s) ∧
      (s.mgmt.stage = none → exec (.svcStatus req true) s = .next
        (svcAnswer 6 n 0 .ok (leBytes 8 (fwStat s) ++ leBytes 8 (coreStat s) ++ leBytes 4 0) s)) ∧
      (∀ r, lookO s.log o = some r → exec (.svcLogRead req true off) s = .next (svcAnswer 7 n o .ok (recBytes r) s)) ∧
      (slot.toNat < 2 → pieceOk o len.toNat = true → exec (.svcStageRead req true slot off len) s = .next
        (svcOp 4 n [] (flashBytes (fwSlotBase slot.toNat + o) len.toNat s) none s)) ∧
      (getB Reg.FW_CFG_SERVICE_ACTIVATE s = true → exec (.svcActivate req true cold) s = .next
        (svcAnswer 5 n 0 (if (activate cold s).1 then .ok else .refused) [] (activate cold s).2)) ∧
      (getB Reg.FW_CFG_SERVICE_ACTIVATE s = false → exec (.svcActivate req true cold) s = .next (svcAnswer 5 n 0 .refused [] s)) ∧
      (lookO s.log o = none → exec (.svcLogRead req true off) s = .next (svcAnswer 7 n o .invalid [] s)) ∧
      (2 ≤ slot.toNat → exec (.svcStageRead req true slot off len) s = .next (svcAnswer 4 n o .invalid [] s))) ∧
    exec (.svcIdentify req false) s = .next s ∧
    (∀ b, s.powered = true → s.pwr.hubDown = false → s.mgmt.up = true → s.frozen = false → s.mgmt.svcBusy = none →
      s.mgmt.svcLast = some (n, b) → exec (.svcIdentify req true) s = .next { s with sent := s.sent ++ [.service (serviceMac s) n b] })

/-- Writing over the service port (R226, R528 to R530): a slot is opened, erased and written in pieces, and the session lapses after
10 s; the configuration block, the licence and an entry of the repair record are written; a configuration block of another length is
invalid, and with SERVICE_WRITE_EN clear every write is refused. Times are measured as log entry 75 says (the model's choice). -/
def Obligations.ServiceWrites : Prop :=
  ∀ (req off : B32) (slot : Byte) (data : List Byte) (s : State) (n : Nat), n = req.toNat →
    (∀ g, s.mgmt.stage = some g → g.erasing = false → timerDue .staging 0 10000000000 s = true →
      exec .stagingSessionTimeout s = .next { s with mgmt := { s.mgmt with stage := none } }) ∧
    (∀ g, s.mgmt.stage = some g → g.erasing = true → exec .stageEraseDone s = .next (timerSet .staging 0
      { s with mgmt := { s.mgmt with stage := some { g with erasing := false } }, flash := smClear s.flash (fwSlotBase g.slot) slotSize })) ∧
    (SvcOpen req s → getB Reg.FW_CFG_SERVICE_WRITE_EN s = true →
      (slot.toNat < 2 → stageRefused slot.toNat s = false → s.mgmt.stage = none → exec (.svcStageOpen req true slot) s = .next
        (svcAnswer 2 n 0 .busy [] (modM (fun m => { m with stage := some ⟨slot.toNat, true, 0⟩ })
          (logEv .firmwareStageOpened none none 0 (arg16 [0]) s)))) ∧
      (∀ g, s.mgmt.stage = some g → g.erasing = false → pieceOk off.toNat data.length = true →
        exec (.svcStageWrite req true off data) s = .next (svcOp 3 n [(fwSlotBase g.slot + off.toNat, data)] [] none
          (timerSet .staging 0 { s with mgmt := { s.mgmt with stage := some { g with written := g.written + data.length } } }))) ∧
      (data.length = 256 → exec (.svcConfigWrite req true data) s = .next
        (svcOp 8 n [(0xC010000, data), (0xC018000, data)] [] (some .configWritten) s)) ∧
      (off.toNat = 0 → data.length = 1024 → exec (.svcLicenceWrite req true off data) s = .next
        (svcOp 9 n [(0xC020000, data), (0xC028000, data)] [] none { s with mgmt := { s.mgmt with licBuf := data } })) ∧
      (∀ e, data.length = 8 → s.repairRec.length < 4096 → e = leNat data % 2 ^ 48 + 3 * 2 ^ 48 →
        exec (.svcRepairAdd req true data) s = .next (cfgPush ⟨2, [(0x0C030000, repairBytes (s.repairRec ++ [e]))],
          .answer 10 n [] (some .repairRequested)⟩ (modM (fun m => { m with svcBusy := some (10, n) })
            (bump Reg.MEM_REPAIR_STAT_QUEUED 1 { s with repairRec := s.repairRec ++ [e] })))) ∧
      (slot.toNat < 2 → stageRefused slot.toNat s = true → exec (.svcStageOpen req true slot) s = .next (svcAnswer 2 n 0 .refused [] s)) ∧
      (data.length ≠ 256 → exec (.svcConfigWrite req true data) s = .next (svcAnswer 8 n 0 .invalid [] s))) ∧
    (SvcOpen req s → getB Reg.FW_CFG_SERVICE_WRITE_EN s = false →
      exec (.svcStageOpen req true slot) s = .next (svcAnswer 2 n 0 .refused [] s) ∧
      exec (.svcConfigWrite req true data) s = .next (svcAnswer 8 n 0 .refused [] s))

/-- Firmware activation (R533, R537 to R542): a verified bundle is loaded, booted, shadow-loaded and committed in turn, and a failure
before COMMIT keeps the old one; in the trial partition 0 may confirm it, and an abort or the end of 600 s falls back. -/
def Obligations.Activation : Prop :=
  ∀ (a : Act) (s : State), s.frozen = false →
    exec .fwActivate s = .next (activate false s).2 ∧ exec .fwActivateCold s = .next (activate true s).2 ∧
    (actAt 0 s = some a →
      (bundleCheck a.slot s = 0 → exec .activationVerifyDone s = .next (setAct 2 (setCore (otherCore s) 2
        (setBank (otherCore s) (some (bankImage a.slot s)) (modM (fun m => { m with act := some { a with phase := 1 } }) s))))) ∧
      (bundleCheck a.slot s ≠ 0 → exec .activationVerifyDone s = .next (actAbandon (bundleCheck a.slot s) s))) ∧
    (actAt 1 s = some a →
      (newestCkpt s = none → exec .activationBootDone s = .next (modM (fun m => { m with act := some { a with phase := 2 } }) s)) ∧
      (∀ k, newestCkpt s = some k → exec .activationBootDone s = .next (if ckptReads a.slot k.fmt s
        then modM (fun m => { m with act := some { a with phase := 2 } }) s else actAbandon 6 s))) ∧
    (actAt 2 s = some a → exec (.shadowLoadDone true) s = .next (modM (fun m => { m with act := some { a with phase := 3 } }) s) ∧
      exec (.shadowLoadDone false) s = .next (actAbandon 7 s)) ∧
    (actAt 3 s = some a → exec .activationCommit s = .next (logEv .firmwareHandoverDone none none 0 (arg16 [0]) (commitRun a s))) ∧
    (s.mgmt.act = some a → getF Reg.FW_STAT_ACT_STATE s = 3 → exec .fwConfirm s = .next
      { s with mgmt := { s.mgmt with act := some { a with confirmed := true } } }) ∧
    (getF Reg.FW_STAT_ACT_STATE s = 3 → s.mgmt.up = true → exec .fwAbort s = .next (fallback 11 true s) ∧
      (s.mgmt.act = some a → a.commitAt + 600000000000 ≤ s.tb → exec .trialTimeout s = .next (fallback 10 true s)) ∧
      (s.mgmt.act = some a → s.tb < a.commitAt + 600000000000 → exec .trialTimeout s = .next s)) ∧
    (getF Reg.FW_STAT_ACT_STATE s ≠ 3 → exec .fwAbort s = .next s) ∧
    (getF Reg.FW_STAT_ACT_STATE (commitRun a s) = 3 ∧ (commitRun a s).hbm = s.hbm ∧ (commitRun a s).tiles = s.tiles)

/-- The trial of an image, and eject (R538, R539, R544, R554, R555): units and idle tiles switch once (the HBM controllers not while
the compute rails are off), and a healthy image is confirmed; an eject waits for work, then for routes that have been clear for
1 ms, then for the links, and is ready; it can be cancelled. Times are measured as log entry 75 says (the model's choice). -/
def Obligations.TrialAndEject : Prop :=
  ∀ (a : Act) (u : FwUnit) (t : TileId) (ex : Bool) (s : State), s.frozen = false →
    (s.mgmt.act = some a → a.cold = false → getF Reg.FW_STAT_ACT_STATE s = 3 → s.mgmt.unitNew.testBit (unitWord u) = false →
      (u = .hbm → railsOn s = true) → exec (.unitBankSwitch u) s = .next
        (showWord (bundleWords (manifest a.slot s)) (unitHolds u
          (modM (fun m => { m with unitNew := m.unitNew.lor (2 ^ unitWord u) }) s)) (unitWord u))) ∧
    ((getT t s).mode = .idle → getF Reg.FW_STAT_ACT_STATE s = 3 → s.mgmt.tileNew.testBit t = false →
      exec (.tileBankSwitch t) s = .next { s with mgmt := { s.mgmt with tileNew := s.mgmt.tileNew.xor (2 ^ t.val) } }) ∧
    (s.mgmt.act = some a → healthy a s = true → exec .healthConfirm s = .next
      (logEv .firmwareConfirmed none none 0 (arg16 [0]) (confirmRun a s))) ∧
    (s.powered = true → ejectRefused s = false → exec .ejectRequest s = .next (logEv .ejectRequested none none 0 (arg16 [0])
      (setF Reg.MGT_EJECT_STAT_SOURCE 2 (setEject (if getF Reg.BOOT_STAT_STATE s = 2 then 1 else 2) s)))) ∧
    (getF Reg.MGT_EJECT_STAT_STATE s ≠ 0 → getF Reg.MGT_EJECT_STAT_SOURCE s = 2 → ∀ v, v = (List.range 6).foldl ejectTrain s →
      exec .ejectCancel s = .next (logEv .ejectCancelled none none 0 (arg16 [0]) (setF Reg.MGT_EJECT_STAT_SOURCE 0
        (setEject 0 { v with mgmt := { v.mgmt with dark := 0 } })))) ∧
    (s.mgmt.up = true → getF Reg.MGT_EJECT_STAT_STATE s = 1 →
      busyCtxs s = [] → exec (.ejectDrainEnd ex) s = .next (setEject 2 s)) ∧
    (s.mgmt.up = true → getF Reg.MGT_EJECT_STAT_STATE s = 2 →
      (inflight 0 s = 0 → inflight 1 s = 0 → timerDue .passBytes 0 1000000 s = true →
        exec .ejectRoutesClear s = .next ((List.range 6).foldl ejectDark s)) ∧
      (allDark s = true → exec (.ejectQuiesceEnd ex) s = .next (logEv .ejectReady none none 0 (arg16 [0]) (setEject 3 s))) ∧
      (allDark s = false → exec (.ejectQuiesceEnd false) s = .next s)) ∧
    (s.mgmt.up = true → getF Reg.MGT_EJECT_STAT_STATE s = 1 → busyCtxs s ≠ [] →
      exec (.ejectDrainEnd false) s = .next s ∧ (drainOver s = true → exec (.ejectDrainEnd true) s = .next
        (setEject 2 ((busyCtxs s).foldl (fun s c => ctxReset c s) s)))) ∧
    (getF Reg.FW_STAT_ACT_STATE (confirmRun a s) = 0 ∧ (confirmRun a s).mgmt.act = none ∧
      getF Reg.FW_STAT_ACTIVE_SLOT (confirmRun a s) = a.slot % 2 ^ Reg.FW_STAT_ACTIVE_SLOT.w) ∧
    (s.mgmt.act = some a → a.cold = false → getF Reg.FW_STAT_ACT_STATE s = 3 →
      (u = .hbm ∧ railsOn s = false ∨ s.mgmt.unitNew.testBit (unitWord u) = true) → exec (.unitBankSwitch u) s = .next s) ∧
    (s.mgmt.act = some a → healthy a s = false → exec .healthConfirm s = .next s) ∧
    (ejectRefused s = true → exec .ejectRequest s = .next s) ∧
    (getF Reg.MGT_EJECT_STAT_STATE s = 0 → exec .ejectCancel s = .next s)
end

