-- ==== Sys2Proof/Laws/SMap.lean ====
section
/-! SUPPORT. Laws/SMap.lean: what the operations on sparse maps do to a later read, and that they keep the canonical
form. The read laws hold of every list, canonical or not. -/

namespace Sys2Proof.Machine

theorem smLook_smDel (d : α) (m : SMap α) (x y : Nat) :
    smLook d (smDel m x) y = if y = x then d else smLook d m y := by
  induction m with
  | nil => simp [smDel, smLook]
  | cons e m ih =>
    obtain ⟨k, v⟩ := e
    simp only [smDel, List.filter_cons] at ih ⊢
    by_cases h : k = x
    · subst h
      simp only [bne_self_eq_false, Bool.false_eq_true, if_false, ih, smLook]
      by_cases hy : y = k <;> simp [hy]
    · have hb : (k != x) = true := by simp [h]
      simp only [hb, if_true, smLook, ih]
      by_cases hy : y = k
      · subst hy; simp [h]
      · simp [hy]

theorem smLook_smIns (d : α) (m : SMap α) (x y : Nat) (w : α) :
    smLook d (smIns m x w) y = if y = x then w else smLook d m y := by
  induction m with
  | nil => simp [smIns, smLook]
  | cons e m ih =>
    obtain ⟨k, v⟩ := e
    simp only [smIns]
    split
    · simp [smLook]
    · split
      · next h => subst h; simp only [smLook]; split <;> rfl
      · next h =>
        simp only [smLook, ih]
        by_cases hy : y = k
        · subst hy; simp [Ne.symm h]
        · simp [hy]

/-- A read after a write: the value written at its key, and the old value at every other. -/
@[simp] theorem smLook_smPut [DecidableEq α] (d : α) (m : SMap α) (x y : Nat) (w : α) :
    smLook d (smPut d m x w) y = if y = x then w else smLook d m y := by
  unfold smPut
  split
  · next h => rw [smLook_smDel, h]
  · exact smLook_smIns d m x y w

theorem smLook_smMod [DecidableEq α] (d : α) (m : SMap α) (x y : Nat) (f : α → α) :
    smLook d (smMod d m x f) y = if y = x then f (smLook d m x) else smLook d m y := by
  simp [smMod]

theorem smLook_smClear (d : α) (m : SMap α) (lo n y : Nat) :
    smLook d (smClear m lo n) y = if lo ≤ y ∧ y < lo + n then d else smLook d m y := by
  induction m with
  | nil => simp [smClear, smLook]
  | cons e m ih =>
    obtain ⟨k, v⟩ := e
    simp only [smClear, List.filter_cons] at ih ⊢
    by_cases h : k < lo ∨ lo + n ≤ k
    · have hb : (decide (k < lo) || decide (lo + n ≤ k)) = true := by simpa using h
      simp only [hb, if_true, smLook, ih]
      by_cases hy : y = k
      · subst hy
        have : ¬(lo ≤ y ∧ y < lo + n) := by omega
        simp [this]
      · simp [hy]
    · have hb : (decide (k < lo) || decide (lo + n ≤ k)) = false := by simpa using h
      simp only [hb, Bool.false_eq_true, if_false, ih, smLook]
      by_cases hy : y = k
      · subst hy
        have : lo ≤ y ∧ y < lo + n := by omega
        simp [this]
      · simp [hy]

/-- A read after consecutive writes. -/
theorem smLook_smPutList [DecidableEq α] (d : α) (l : List α) (m : SMap α) (x y : Nat) :
    smLook d (smPutList d m x l) y = if x ≤ y ∧ y < x + l.length then l.getD (y - x) d else smLook d m y := by
  induction l generalizing m x with
  | nil => simp only [smPutList, List.length_nil]; split <;> first | omega | rfl
  | cons w l ih =>
    simp only [smPutList, ih, smLook_smPut, List.length_cons]
    by_cases h : x + 1 ≤ y ∧ y < x + 1 + l.length
    · have h2 : x ≤ y ∧ y < x + (l.length + 1) := by omega
      obtain ⟨j, hj⟩ : ∃ j, y - x = j + 1 := ⟨y - x - 1, by omega⟩
      have hj' : y - (x + 1) = j := by omega
      simp [h, h2, hj, hj']
    · by_cases hy : y = x
      · subst hy
        have h3 : ¬(y + 1 ≤ y) := by omega
        simp [h3]
      · have h2 : ¬(x ≤ y ∧ y < x + (l.length + 1)) := by omega
        rw [if_neg h, if_neg hy, if_neg h2]

/-! ### The canonical form -/

theorem smSorted_filter (p : Nat × α → Bool) (m : SMap α) (h : smSorted m = true) : smSorted (m.filter p) = true := by
  induction m with
  | nil => rfl
  | cons e m ih =>
    obtain ⟨k, v⟩ := e
    simp only [smSorted, Bool.and_eq_true, List.all_eq_true, decide_eq_true_eq] at h
    simp only [List.filter_cons]
    split
    · simp only [smSorted, Bool.and_eq_true, List.all_eq_true, decide_eq_true_eq]
      exact ⟨fun e he => h.1 e (List.mem_filter.mp he).1, ih h.2⟩
    · exact ih h.2

theorem smWf_filter [DecidableEq α] (d : α) (p : Nat × α → Bool) (m : SMap α) (h : smWf d m = true) :
    smWf d (m.filter p) = true := by
  simp only [smWf, Bool.and_eq_true, List.all_eq_true] at h ⊢
  exact ⟨smSorted_filter p m h.1, fun e he => h.2 e (List.mem_filter.mp he).1⟩

theorem mem_smIns (m : SMap α) (x : Nat) (w : α) (e : Nat × α) (h : e ∈ smIns m x w) : e = (x, w) ∨ e ∈ m := by
  induction m with
  | nil => simpa [smIns] using h
  | cons a m ih =>
    obtain ⟨k, v⟩ := a
    simp only [smIns] at h
    split at h
    · simpa using h
    · split at h
      · rcases List.mem_cons.mp h with h | h
        · exact .inl h
        · exact .inr (List.mem_cons_of_mem _ h)
      · rcases List.mem_cons.mp h with h | h
        · exact .inr (by simp [h])
        · rcases ih h with h | h
          · exact .inl h
          · exact .inr (List.mem_cons_of_mem _ h)

theorem smSorted_smIns (m : SMap α) (x : Nat) (w : α) (h : smSorted m = true) : smSorted (smIns m x w) = true := by
  induction m with
  | nil => rfl
  | cons a m ih =>
    obtain ⟨k, v⟩ := a
    simp only [smSorted, Bool.and_eq_true, List.all_eq_true, decide_eq_true_eq] at h
    simp only [smIns]
    split
    · next hx =>
      simp only [smSorted, Bool.and_eq_true, List.all_eq_true, decide_eq_true_eq, List.mem_cons, forall_eq_or_imp]
      exact ⟨⟨hx, fun e he => Nat.lt_trans hx (h.1 e he)⟩, h.1, h.2⟩
    · split
      · next hx =>
        subst hx
        simp only [smSorted, Bool.and_eq_true, List.all_eq_true, decide_eq_true_eq]
        exact h
      · next h1 h2 =>
        simp only [smSorted, Bool.and_eq_true, List.all_eq_true, decide_eq_true_eq]
        refine ⟨fun e he => ?_, ih h.2⟩
        rcases mem_smIns m x w e he with he | he
        · subst he; show k < x; omega
        · exact h.1 e he

theorem smWf_smPut [DecidableEq α] (d : α) (m : SMap α) (x : Nat) (w : α) (h : smWf d m = true) :
    smWf d (smPut d m x w) = true := by
  unfold smPut
  split
  · exact smWf_filter d _ m h
  · next hw =>
    simp only [smWf, Bool.and_eq_true, List.all_eq_true, decide_eq_true_eq] at h ⊢
    refine ⟨smSorted_smIns m x w h.1, fun e he => ?_⟩
    rcases mem_smIns m x w e he with he | he
    · subst he; exact hw
    · exact h.2 e he

theorem smWf_smPutList [DecidableEq α] (d : α) (l : List α) (m : SMap α) (x : Nat) (h : smWf d m = true) :
    smWf d (smPutList d m x l) = true := by
  induction l generalizing m x with
  | nil => exact h
  | cons w l ih => exact ih _ _ (smWf_smPut d m x w h)

theorem smWf_smClear [DecidableEq α] (d : α) (m : SMap α) (lo n : Nat) (h : smWf d m = true) :
    smWf d (smClear m lo n) = true := smWf_filter d _ m h

/-! ### Maps whose entries may be absent -/

theorem smWf_nil [DecidableEq α] (d : α) : smWf d ([] : SMap α) = true := rfl

end Sys2Proof.Machine
end

