-- ==== Sys2Proof/Laws/State.lean ====
section
/-! SUPPORT. Laws/State.lean: for each update of the state and each field that it leaves alone, one lemma. -/

namespace Sys2Proof.Machine

@[simp] theorem setF_pending (f : Fld) (v : Nat) (s : State) : (setF f v s).pending = s.pending := rfl
@[simp] theorem setF_powered (f : Fld) (v : Nat) (s : State) : (setF f v s).powered = s.powered := rfl
@[simp] theorem setF_tb (f : Fld) (v : Nat) (s : State) : (setF f v s).tb = s.tb := rfl
@[simp] theorem setF_tbFrac (f : Fld) (v : Nat) (s : State) : (setF f v s).tbFrac = s.tbFrac := rfl
@[simp] theorem setF_freeCtr (f : Fld) (v : Nat) (s : State) : (setF f v s).freeCtr = s.freeCtr := rfl
@[simp] theorem setF_stamps (f : Fld) (v : Nat) (s : State) : (setF f v s).stamps = s.stamps := rfl
@[simp] theorem setF_cyc (f : Fld) (v : Nat) (s : State) : (setF f v s).cyc = s.cyc := rfl
@[simp] theorem setF_log (f : Fld) (v : Nat) (s : State) : (setF f v s).log = s.log := rfl
@[simp] theorem setF_logLast (f : Fld) (v : Nat) (s : State) : (setF f v s).logLast = s.logLast := rfl
@[simp] theorem setF_logSel (f : Fld) (v : Nat) (s : State) : (setF f v s).logSel = s.logSel := rfl
@[simp] theorem setF_tiles (f : Fld) (v : Nat) (s : State) : (setF f v s).tiles = s.tiles := rfl
@[simp] theorem setF_kernels (f : Fld) (v : Nat) (s : State) : (setF f v s).kernels = s.kernels := rfl
@[simp] theorem setF_reqs (f : Fld) (v : Nat) (s : State) : (setF f v s).reqs = s.reqs := rfl
@[simp] theorem setF_nextReq (f : Fld) (v : Nat) (s : State) : (setF f v s).nextReq = s.nextReq := rfl
@[simp] theorem setF_hbm (f : Fld) (v : Nat) (s : State) : (setF f v s).hbm = s.hbm := rfl
@[simp] theorem setF_written (f : Fld) (v : Nat) (s : State) : (setF f v s).written = s.written := rfl
@[simp] theorem setF_blkErr (f : Fld) (v : Nat) (s : State) : (setF f v s).blkErr = s.blkErr := rfl
@[simp] theorem setF_blkHard (f : Fld) (v : Nat) (s : State) : (setF f v s).blkHard = s.blkHard := rfl
@[simp] theorem setF_rings (f : Fld) (v : Nat) (s : State) : (setF f v s).rings = s.rings := rfl
@[simp] theorem setF_ctxs (f : Fld) (v : Nat) (s : State) : (setF f v s).ctxs = s.ctxs := rfl
@[simp] theorem setF_rrc0 (f : Fld) (v : Nat) (s : State) : (setF f v s).rrc0 = s.rrc0 := rfl
@[simp] theorem setF_rrc1 (f : Fld) (v : Nat) (s : State) : (setF f v s).rrc1 = s.rrc1 := rfl
@[simp] theorem setF_fills0 (f : Fld) (v : Nat) (s : State) : (setF f v s).fills0 = s.fills0 := rfl
@[simp] theorem setF_fills1 (f : Fld) (v : Nat) (s : State) : (setF f v s).fills1 = s.fills1 := rfl
@[simp] theorem setF_routes (f : Fld) (v : Nat) (s : State) : (setF f v s).routes = s.routes := rfl
@[simp] theorem setF_mcast (f : Fld) (v : Nat) (s : State) : (setF f v s).mcast = s.mcast := rfl
@[simp] theorem setF_rtIn (f : Fld) (v : Nat) (s : State) : (setF f v s).rtIn = s.rtIn := rfl
@[simp] theorem setF_outQ (f : Fld) (v : Nat) (s : State) : (setF f v s).outQ = s.outQ := rfl
@[simp] theorem setF_fenced (f : Fld) (v : Nat) (s : State) : (setF f v s).fenced = s.fenced := rfl
@[simp] theorem setF_sameCyc (f : Fld) (v : Nat) (s : State) : (setF f v s).sameCyc = s.sameCyc := rfl
@[simp] theorem setF_kvTurn (f : Fld) (v : Nat) (s : State) : (setF f v s).kvTurn = s.kvTurn := rfl
@[simp] theorem setF_blkFate (f : Fld) (v : Nat) (s : State) : (setF f v s).blkFate = s.blkFate := rfl
@[simp] theorem setF_timers (f : Fld) (v : Nat) (s : State) : (setF f v s).timers = s.timers := rfl
@[simp] theorem setF_outbox (f : Fld) (v : Nat) (s : State) : (setF f v s).outbox = s.outbox := rfl
@[simp] theorem setF_fseq (f : Fld) (v : Nat) (s : State) : (setF f v s).fseq = s.fseq := rfl
@[simp] theorem setF_outboxFull (f : Fld) (v : Nat) (s : State) : (setF f v s).outboxFull = s.outboxFull := rfl
@[simp] theorem setF_flash (f : Fld) (v : Nat) (s : State) : (setF f v s).flash = s.flash := rfl
@[simp] theorem setF_cfgQ (f : Fld) (v : Nat) (s : State) : (setF f v s).cfgQ = s.cfgQ := rfl
@[simp] theorem setF_repairRec (f : Fld) (v : Nat) (s : State) : (setF f v s).repairRec = s.repairRec := rfl
@[simp] theorem setF_rowSuspects (f : Fld) (v : Nat) (s : State) : (setF f v s).rowSuspects = s.rowSuspects := rfl
@[simp] theorem setF_colSuspects (f : Fld) (v : Nat) (s : State) : (setF f v s).colSuspects = s.colSuspects := rfl
@[simp] theorem setF_spareRows (f : Fld) (v : Nat) (s : State) : (setF f v s).spareRows = s.spareRows := rfl
@[simp] theorem setF_spareCols (f : Fld) (v : Nat) (s : State) : (setF f v s).spareCols = s.spareCols := rfl
@[simp] theorem setF_glnPos (f : Fld) (v : Nat) (s : State) : (setF f v s).glnPos = s.glnPos := rfl
@[simp] theorem setF_glnPasses (f : Fld) (v : Nat) (s : State) : (setF f v s).glnPasses = s.glnPasses := rfl
@[simp] theorem setF_pageCount (f : Fld) (v : Nat) (s : State) : (setF f v s).pageCount = s.pageCount := rfl
@[simp] theorem setF_pageLogged (f : Fld) (v : Nat) (s : State) : (setF f v s).pageLogged = s.pageLogged := rfl
@[simp] theorem setF_qps (f : Fld) (v : Nat) (s : State) : (setF f v s).qps = s.qps := rfl
@[simp] theorem setF_ports (f : Fld) (v : Nat) (s : State) : (setF f v s).ports = s.ports := rfl
@[simp] theorem setF_sent (f : Fld) (v : Nat) (s : State) : (setF f v s).sent = s.sent := rfl
@[simp] theorem setF_chans (f : Fld) (v : Nat) (s : State) : (setF f v s).chans = s.chans := rfl
@[simp] theorem setF_snapQ (f : Fld) (v : Nat) (s : State) : (setF f v s).snapQ = s.snapQ := rfl
@[simp] theorem setF_frozen (f : Fld) (v : Nat) (s : State) : (setF f v s).frozen = s.frozen := rfl
@[simp] theorem setF_snapImage (f : Fld) (v : Nat) (s : State) : (setF f v s).snapImage = s.snapImage := rfl
@[simp] theorem setF_held (f : Fld) (v : Nat) (s : State) : (setF f v s).held = s.held := rfl
@[simp] theorem setF_waves (f : Fld) (v : Nat) (s : State) : (setF f v s).waves = s.waves := rfl
@[simp] theorem setF_bindings (f : Fld) (v : Nat) (s : State) : (setF f v s).bindings = s.bindings := rfl
@[simp] theorem setF_kernelSeq (f : Fld) (v : Nat) (s : State) : (setF f v s).kernelSeq = s.kernelSeq := rfl
@[simp] theorem setF_links (f : Fld) (v : Nat) (s : State) : (setF f v s).links = s.links := rfl
@[simp] theorem setF_nextPkt (f : Fld) (v : Nat) (s : State) : (setF f v s).nextPkt = s.nextPkt := rfl
@[simp] theorem setF_hubIn (f : Fld) (v : Nat) (s : State) : (setF f v s).hubIn = s.hubIn := rfl
@[simp] theorem setF_portArb (f : Fld) (v : Nat) (s : State) : (setF f v s).portArb = s.portArb := rfl
@[simp] theorem setF_bootAt (f : Fld) (v : Nat) (s : State) : (setF f v s).bootAt = s.bootAt := rfl
@[simp] theorem setF_bootWait (f : Fld) (v : Nat) (s : State) : (setF f v s).bootWait = s.bootWait := rfl
@[simp] theorem setF_bootHold (f : Fld) (v : Nat) (s : State) : (setF f v s).bootHold = s.bootHold := rfl
@[simp] theorem setF_groups (f : Fld) (v : Nat) (s : State) : (setF f v s).groups = s.groups := rfl
@[simp] theorem setF_groupFail (f : Fld) (v : Nat) (s : State) : (setF f v s).groupFail = s.groupFail := rfl
@[simp] theorem setF_groupDefs (f : Fld) (v : Nat) (s : State) : (setF f v s).groupDefs = s.groupDefs := rfl
@[simp] theorem setF_colls (f : Fld) (v : Nat) (s : State) : (setF f v s).colls = s.colls := rfl
@[simp] theorem setF_collSeq (f : Fld) (v : Nat) (s : State) : (setF f v s).collSeq = s.collSeq := rfl
@[simp] theorem setF_rootRevoked (f : Fld) (v : Nat) (s : State) : (setF f v s).rootRevoked = s.rootRevoked := rfl
@[simp] theorem setF_fuse (f : Fld) (v : Nat) (s : State) : (setF f v s).fuse = s.fuse := rfl
@[simp] theorem setF_hw (f : Fld) (v : Nat) (s : State) : (setF f v s).hw = s.hw := rfl
@[simp] theorem setF_pins (f : Fld) (v : Nat) (s : State) : (setF f v s).pins = s.pins := rfl
@[simp] theorem setF_pwr (f : Fld) (v : Nat) (s : State) : (setF f v s).pwr = s.pwr := rfl
@[simp] theorem setF_clk0 (f : Fld) (v : Nat) (s : State) : (setF f v s).clk0 = s.clk0 := rfl
@[simp] theorem setF_clk1 (f : Fld) (v : Nat) (s : State) : (setF f v s).clk1 = s.clk1 := rfl
@[simp] theorem setF_defects (f : Fld) (v : Nat) (s : State) : (setF f v s).defects = s.defects := rfl
@[simp] theorem setF_ladderTiles (f : Fld) (v : Nat) (s : State) : (setF f v s).ladderTiles = s.ladderTiles := rfl
@[simp] theorem setF_cfgBlk (f : Fld) (v : Nat) (s : State) : (setF f v s).cfgBlk = s.cfgBlk := rfl
@[simp] theorem setF_rerun (f : Fld) (v : Nat) (s : State) : (setF f v s).rerun = s.rerun := rfl
@[simp] theorem setF_layout (f : Fld) (v : Nat) (s : State) : (setF f v s).layout = s.layout := rfl
@[simp] theorem setF_jobs (f : Fld) (v : Nat) (s : State) : (setF f v s).jobs = s.jobs := rfl
@[simp] theorem setF_jobSeq (f : Fld) (v : Nat) (s : State) : (setF f v s).jobSeq = s.jobSeq := rfl
@[simp] theorem setF_step4 (f : Fld) (v : Nat) (s : State) : (setF f v s).step4 = s.step4 := rfl
@[simp] theorem setF_ptp (f : Fld) (v : Nat) (s : State) : (setF f v s).ptp = s.ptp := rfl
@[simp] theorem setF_mgmt (f : Fld) (v : Nat) (s : State) : (setF f v s).mgmt = s.mgmt := rfl
@[simp] theorem setF_kept (f : Fld) (v : Nat) (s : State) : (setF f v s).kept = s.kept := rfl

@[simp] theorem setT_pending (t : Nat) (x : Tile) (s : State) : (setT t x s).pending = s.pending := rfl
@[simp] theorem setT_powered (t : Nat) (x : Tile) (s : State) : (setT t x s).powered = s.powered := rfl
@[simp] theorem setT_tb (t : Nat) (x : Tile) (s : State) : (setT t x s).tb = s.tb := rfl
@[simp] theorem setT_tbFrac (t : Nat) (x : Tile) (s : State) : (setT t x s).tbFrac = s.tbFrac := rfl
@[simp] theorem setT_freeCtr (t : Nat) (x : Tile) (s : State) : (setT t x s).freeCtr = s.freeCtr := rfl
@[simp] theorem setT_stamps (t : Nat) (x : Tile) (s : State) : (setT t x s).stamps = s.stamps := rfl
@[simp] theorem setT_cyc (t : Nat) (x : Tile) (s : State) : (setT t x s).cyc = s.cyc := rfl
@[simp] theorem setT_regs (t : Nat) (x : Tile) (s : State) : (setT t x s).regs = s.regs := rfl
@[simp] theorem setT_log (t : Nat) (x : Tile) (s : State) : (setT t x s).log = s.log := rfl
@[simp] theorem setT_logLast (t : Nat) (x : Tile) (s : State) : (setT t x s).logLast = s.logLast := rfl
@[simp] theorem setT_logSel (t : Nat) (x : Tile) (s : State) : (setT t x s).logSel = s.logSel := rfl
@[simp] theorem setT_kernels (t : Nat) (x : Tile) (s : State) : (setT t x s).kernels = s.kernels := rfl
@[simp] theorem setT_reqs (t : Nat) (x : Tile) (s : State) : (setT t x s).reqs = s.reqs := rfl
@[simp] theorem setT_nextReq (t : Nat) (x : Tile) (s : State) : (setT t x s).nextReq = s.nextReq := rfl
@[simp] theorem setT_hbm (t : Nat) (x : Tile) (s : State) : (setT t x s).hbm = s.hbm := rfl
@[simp] theorem setT_written (t : Nat) (x : Tile) (s : State) : (setT t x s).written = s.written := rfl
@[simp] theorem setT_blkErr (t : Nat) (x : Tile) (s : State) : (setT t x s).blkErr = s.blkErr := rfl
@[simp] theorem setT_blkHard (t : Nat) (x : Tile) (s : State) : (setT t x s).blkHard = s.blkHard := rfl
@[simp] theorem setT_rings (t : Nat) (x : Tile) (s : State) : (setT t x s).rings = s.rings := rfl
@[simp] theorem setT_ctxs (t : Nat) (x : Tile) (s : State) : (setT t x s).ctxs = s.ctxs := rfl
@[simp] theorem setT_rrc0 (t : Nat) (x : Tile) (s : State) : (setT t x s).rrc0 = s.rrc0 := rfl
@[simp] theorem setT_rrc1 (t : Nat) (x : Tile) (s : State) : (setT t x s).rrc1 = s.rrc1 := rfl
@[simp] theorem setT_fills0 (t : Nat) (x : Tile) (s : State) : (setT t x s).fills0 = s.fills0 := rfl
@[simp] theorem setT_fills1 (t : Nat) (x : Tile) (s : State) : (setT t x s).fills1 = s.fills1 := rfl
@[simp] theorem setT_routes (t : Nat) (x : Tile) (s : State) : (setT t x s).routes = s.routes := rfl
@[simp] theorem setT_mcast (t : Nat) (x : Tile) (s : State) : (setT t x s).mcast = s.mcast := rfl
@[simp] theorem setT_rtIn (t : Nat) (x : Tile) (s : State) : (setT t x s).rtIn = s.rtIn := rfl
@[simp] theorem setT_outQ (t : Nat) (x : Tile) (s : State) : (setT t x s).outQ = s.outQ := rfl
@[simp] theorem setT_fenced (t : Nat) (x : Tile) (s : State) : (setT t x s).fenced = s.fenced := rfl
@[simp] theorem setT_sameCyc (t : Nat) (x : Tile) (s : State) : (setT t x s).sameCyc = s.sameCyc := rfl
@[simp] theorem setT_kvTurn (t : Nat) (x : Tile) (s : State) : (setT t x s).kvTurn = s.kvTurn := rfl
@[simp] theorem setT_blkFate (t : Nat) (x : Tile) (s : State) : (setT t x s).blkFate = s.blkFate := rfl
@[simp] theorem setT_timers (t : Nat) (x : Tile) (s : State) : (setT t x s).timers = s.timers := rfl
@[simp] theorem setT_outbox (t : Nat) (x : Tile) (s : State) : (setT t x s).outbox = s.outbox := rfl
@[simp] theorem setT_fseq (t : Nat) (x : Tile) (s : State) : (setT t x s).fseq = s.fseq := rfl
@[simp] theorem setT_outboxFull (t : Nat) (x : Tile) (s : State) : (setT t x s).outboxFull = s.outboxFull := rfl
@[simp] theorem setT_flash (t : Nat) (x : Tile) (s : State) : (setT t x s).flash = s.flash := rfl
@[simp] theorem setT_cfgQ (t : Nat) (x : Tile) (s : State) : (setT t x s).cfgQ = s.cfgQ := rfl
@[simp] theorem setT_repairRec (t : Nat) (x : Tile) (s : State) : (setT t x s).repairRec = s.repairRec := rfl
@[simp] theorem setT_rowSuspects (t : Nat) (x : Tile) (s : State) : (setT t x s).rowSuspects = s.rowSuspects := rfl
@[simp] theorem setT_colSuspects (t : Nat) (x : Tile) (s : State) : (setT t x s).colSuspects = s.colSuspects := rfl
@[simp] theorem setT_spareRows (t : Nat) (x : Tile) (s : State) : (setT t x s).spareRows = s.spareRows := rfl
@[simp] theorem setT_spareCols (t : Nat) (x : Tile) (s : State) : (setT t x s).spareCols = s.spareCols := rfl
@[simp] theorem setT_glnPos (t : Nat) (x : Tile) (s : State) : (setT t x s).glnPos = s.glnPos := rfl
@[simp] theorem setT_glnPasses (t : Nat) (x : Tile) (s : State) : (setT t x s).glnPasses = s.glnPasses := rfl
@[simp] theorem setT_pageCount (t : Nat) (x : Tile) (s : State) : (setT t x s).pageCount = s.pageCount := rfl
@[simp] theorem setT_pageLogged (t : Nat) (x : Tile) (s : State) : (setT t x s).pageLogged = s.pageLogged := rfl
@[simp] theorem setT_qps (t : Nat) (x : Tile) (s : State) : (setT t x s).qps = s.qps := rfl
@[simp] theorem setT_ports (t : Nat) (x : Tile) (s : State) : (setT t x s).ports = s.ports := rfl
@[simp] theorem setT_sent (t : Nat) (x : Tile) (s : State) : (setT t x s).sent = s.sent := rfl
@[simp] theorem setT_chans (t : Nat) (x : Tile) (s : State) : (setT t x s).chans = s.chans := rfl
@[simp] theorem setT_snapQ (t : Nat) (x : Tile) (s : State) : (setT t x s).snapQ = s.snapQ := rfl
@[simp] theorem setT_frozen (t : Nat) (x : Tile) (s : State) : (setT t x s).frozen = s.frozen := rfl
@[simp] theorem setT_snapImage (t : Nat) (x : Tile) (s : State) : (setT t x s).snapImage = s.snapImage := rfl
@[simp] theorem setT_held (t : Nat) (x : Tile) (s : State) : (setT t x s).held = s.held := rfl
@[simp] theorem setT_waves (t : Nat) (x : Tile) (s : State) : (setT t x s).waves = s.waves := rfl
@[simp] theorem setT_bindings (t : Nat) (x : Tile) (s : State) : (setT t x s).bindings = s.bindings := rfl
@[simp] theorem setT_kernelSeq (t : Nat) (x : Tile) (s : State) : (setT t x s).kernelSeq = s.kernelSeq := rfl
@[simp] theorem setT_links (t : Nat) (x : Tile) (s : State) : (setT t x s).links = s.links := rfl
@[simp] theorem setT_nextPkt (t : Nat) (x : Tile) (s : State) : (setT t x s).nextPkt = s.nextPkt := rfl
@[simp] theorem setT_hubIn (t : Nat) (x : Tile) (s : State) : (setT t x s).hubIn = s.hubIn := rfl
@[simp] theorem setT_portArb (t : Nat) (x : Tile) (s : State) : (setT t x s).portArb = s.portArb := rfl
@[simp] theorem setT_bootAt (t : Nat) (x : Tile) (s : State) : (setT t x s).bootAt = s.bootAt := rfl
@[simp] theorem setT_bootWait (t : Nat) (x : Tile) (s : State) : (setT t x s).bootWait = s.bootWait := rfl
@[simp] theorem setT_bootHold (t : Nat) (x : Tile) (s : State) : (setT t x s).bootHold = s.bootHold := rfl
@[simp] theorem setT_groups (t : Nat) (x : Tile) (s : State) : (setT t x s).groups = s.groups := rfl
@[simp] theorem setT_groupFail (t : Nat) (x : Tile) (s : State) : (setT t x s).groupFail = s.groupFail := rfl
@[simp] theorem setT_groupDefs (t : Nat) (x : Tile) (s : State) : (setT t x s).groupDefs = s.groupDefs := rfl
@[simp] theorem setT_colls (t : Nat) (x : Tile) (s : State) : (setT t x s).colls = s.colls := rfl
@[simp] theorem setT_collSeq (t : Nat) (x : Tile) (s : State) : (setT t x s).collSeq = s.collSeq := rfl
@[simp] theorem setT_rootRevoked (t : Nat) (x : Tile) (s : State) : (setT t x s).rootRevoked = s.rootRevoked := rfl
@[simp] theorem setT_fuse (t : Nat) (x : Tile) (s : State) : (setT t x s).fuse = s.fuse := rfl
@[simp] theorem setT_hw (t : Nat) (x : Tile) (s : State) : (setT t x s).hw = s.hw := rfl
@[simp] theorem setT_pins (t : Nat) (x : Tile) (s : State) : (setT t x s).pins = s.pins := rfl
@[simp] theorem setT_pwr (t : Nat) (x : Tile) (s : State) : (setT t x s).pwr = s.pwr := rfl
@[simp] theorem setT_clk0 (t : Nat) (x : Tile) (s : State) : (setT t x s).clk0 = s.clk0 := rfl
@[simp] theorem setT_clk1 (t : Nat) (x : Tile) (s : State) : (setT t x s).clk1 = s.clk1 := rfl
@[simp] theorem setT_defects (t : Nat) (x : Tile) (s : State) : (setT t x s).defects = s.defects := rfl
@[simp] theorem setT_ladderTiles (t : Nat) (x : Tile) (s : State) : (setT t x s).ladderTiles = s.ladderTiles := rfl
@[simp] theorem setT_cfgBlk (t : Nat) (x : Tile) (s : State) : (setT t x s).cfgBlk = s.cfgBlk := rfl
@[simp] theorem setT_rerun (t : Nat) (x : Tile) (s : State) : (setT t x s).rerun = s.rerun := rfl
@[simp] theorem setT_layout (t : Nat) (x : Tile) (s : State) : (setT t x s).layout = s.layout := rfl
@[simp] theorem setT_jobs (t : Nat) (x : Tile) (s : State) : (setT t x s).jobs = s.jobs := rfl
@[simp] theorem setT_jobSeq (t : Nat) (x : Tile) (s : State) : (setT t x s).jobSeq = s.jobSeq := rfl
@[simp] theorem setT_step4 (t : Nat) (x : Tile) (s : State) : (setT t x s).step4 = s.step4 := rfl
@[simp] theorem setT_ptp (t : Nat) (x : Tile) (s : State) : (setT t x s).ptp = s.ptp := rfl
@[simp] theorem setT_mgmt (t : Nat) (x : Tile) (s : State) : (setT t x s).mgmt = s.mgmt := rfl
@[simp] theorem setT_kept (t : Nat) (x : Tile) (s : State) : (setT t x s).kept = s.kept := rfl

@[simp] theorem setR_pending (r : Nat) (x : Ring) (s : State) : (setR r x s).pending = s.pending := rfl
@[simp] theorem setR_powered (r : Nat) (x : Ring) (s : State) : (setR r x s).powered = s.powered := rfl
@[simp] theorem setR_tb (r : Nat) (x : Ring) (s : State) : (setR r x s).tb = s.tb := rfl
@[simp] theorem setR_tbFrac (r : Nat) (x : Ring) (s : State) : (setR r x s).tbFrac = s.tbFrac := rfl
@[simp] theorem setR_freeCtr (r : Nat) (x : Ring) (s : State) : (setR r x s).freeCtr = s.freeCtr := rfl
@[simp] theorem setR_stamps (r : Nat) (x : Ring) (s : State) : (setR r x s).stamps = s.stamps := rfl
@[simp] theorem setR_cyc (r : Nat) (x : Ring) (s : State) : (setR r x s).cyc = s.cyc := rfl
@[simp] theorem setR_regs (r : Nat) (x : Ring) (s : State) : (setR r x s).regs = s.regs := rfl
@[simp] theorem setR_log (r : Nat) (x : Ring) (s : State) : (setR r x s).log = s.log := rfl
@[simp] theorem setR_logLast (r : Nat) (x : Ring) (s : State) : (setR r x s).logLast = s.logLast := rfl
@[simp] theorem setR_logSel (r : Nat) (x : Ring) (s : State) : (setR r x s).logSel = s.logSel := rfl
@[simp] theorem setR_tiles (r : Nat) (x : Ring) (s : State) : (setR r x s).tiles = s.tiles := rfl
@[simp] theorem setR_kernels (r : Nat) (x : Ring) (s : State) : (setR r x s).kernels = s.kernels := rfl
@[simp] theorem setR_reqs (r : Nat) (x : Ring) (s : State) : (setR r x s).reqs = s.reqs := rfl
@[simp] theorem setR_nextReq (r : Nat) (x : Ring) (s : State) : (setR r x s).nextReq = s.nextReq := rfl
@[simp] theorem setR_hbm (r : Nat) (x : Ring) (s : State) : (setR r x s).hbm = s.hbm := rfl
@[simp] theorem setR_written (r : Nat) (x : Ring) (s : State) : (setR r x s).written = s.written := rfl
@[simp] theorem setR_blkErr (r : Nat) (x : Ring) (s : State) : (setR r x s).blkErr = s.blkErr := rfl
@[simp] theorem setR_blkHard (r : Nat) (x : Ring) (s : State) : (setR r x s).blkHard = s.blkHard := rfl
@[simp] theorem setR_ctxs (r : Nat) (x : Ring) (s : State) : (setR r x s).ctxs = s.ctxs := rfl
@[simp] theorem setR_rrc0 (r : Nat) (x : Ring) (s : State) : (setR r x s).rrc0 = s.rrc0 := rfl
@[simp] theorem setR_rrc1 (r : Nat) (x : Ring) (s : State) : (setR r x s).rrc1 = s.rrc1 := rfl
@[simp] theorem setR_fills0 (r : Nat) (x : Ring) (s : State) : (setR r x s).fills0 = s.fills0 := rfl
@[simp] theorem setR_fills1 (r : Nat) (x : Ring) (s : State) : (setR r x s).fills1 = s.fills1 := rfl
@[simp] theorem setR_routes (r : Nat) (x : Ring) (s : State) : (setR r x s).routes = s.routes := rfl
@[simp] theorem setR_mcast (r : Nat) (x : Ring) (s : State) : (setR r x s).mcast = s.mcast := rfl
@[simp] theorem setR_rtIn (r : Nat) (x : Ring) (s : State) : (setR r x s).rtIn = s.rtIn := rfl
@[simp] theorem setR_outQ (r : Nat) (x : Ring) (s : State) : (setR r x s).outQ = s.outQ := rfl
@[simp] theorem setR_fenced (r : Nat) (x : Ring) (s : State) : (setR r x s).fenced = s.fenced := rfl
@[simp] theorem setR_sameCyc (r : Nat) (x : Ring) (s : State) : (setR r x s).sameCyc = s.sameCyc := rfl
@[simp] theorem setR_kvTurn (r : Nat) (x : Ring) (s : State) : (setR r x s).kvTurn = s.kvTurn := rfl
@[simp] theorem setR_blkFate (r : Nat) (x : Ring) (s : State) : (setR r x s).blkFate = s.blkFate := rfl
@[simp] theorem setR_timers (r : Nat) (x : Ring) (s : State) : (setR r x s).timers = s.timers := rfl
@[simp] theorem setR_outbox (r : Nat) (x : Ring) (s : State) : (setR r x s).outbox = s.outbox := rfl
@[simp] theorem setR_fseq (r : Nat) (x : Ring) (s : State) : (setR r x s).fseq = s.fseq := rfl
@[simp] theorem setR_outboxFull (r : Nat) (x : Ring) (s : State) : (setR r x s).outboxFull = s.outboxFull := rfl
@[simp] theorem setR_flash (r : Nat) (x : Ring) (s : State) : (setR r x s).flash = s.flash := rfl
@[simp] theorem setR_cfgQ (r : Nat) (x : Ring) (s : State) : (setR r x s).cfgQ = s.cfgQ := rfl
@[simp] theorem setR_repairRec (r : Nat) (x : Ring) (s : State) : (setR r x s).repairRec = s.repairRec := rfl
@[simp] theorem setR_rowSuspects (r : Nat) (x : Ring) (s : State) : (setR r x s).rowSuspects = s.rowSuspects := rfl
@[simp] theorem setR_colSuspects (r : Nat) (x : Ring) (s : State) : (setR r x s).colSuspects = s.colSuspects := rfl
@[simp] theorem setR_spareRows (r : Nat) (x : Ring) (s : State) : (setR r x s).spareRows = s.spareRows := rfl
@[simp] theorem setR_spareCols (r : Nat) (x : Ring) (s : State) : (setR r x s).spareCols = s.spareCols := rfl
@[simp] theorem setR_glnPos (r : Nat) (x : Ring) (s : State) : (setR r x s).glnPos = s.glnPos := rfl
@[simp] theorem setR_glnPasses (r : Nat) (x : Ring) (s : State) : (setR r x s).glnPasses = s.glnPasses := rfl
@[simp] theorem setR_pageCount (r : Nat) (x : Ring) (s : State) : (setR r x s).pageCount = s.pageCount := rfl
@[simp] theorem setR_pageLogged (r : Nat) (x : Ring) (s : State) : (setR r x s).pageLogged = s.pageLogged := rfl
@[simp] theorem setR_qps (r : Nat) (x : Ring) (s : State) : (setR r x s).qps = s.qps := rfl
@[simp] theorem setR_ports (r : Nat) (x : Ring) (s : State) : (setR r x s).ports = s.ports := rfl
@[simp] theorem setR_sent (r : Nat) (x : Ring) (s : State) : (setR r x s).sent = s.sent := rfl
@[simp] theorem setR_chans (r : Nat) (x : Ring) (s : State) : (setR r x s).chans = s.chans := rfl
@[simp] theorem setR_snapQ (r : Nat) (x : Ring) (s : State) : (setR r x s).snapQ = s.snapQ := rfl
@[simp] theorem setR_frozen (r : Nat) (x : Ring) (s : State) : (setR r x s).frozen = s.frozen := rfl
@[simp] theorem setR_snapImage (r : Nat) (x : Ring) (s : State) : (setR r x s).snapImage = s.snapImage := rfl
@[simp] theorem setR_held (r : Nat) (x : Ring) (s : State) : (setR r x s).held = s.held := rfl
@[simp] theorem setR_waves (r : Nat) (x : Ring) (s : State) : (setR r x s).waves = s.waves := rfl
@[simp] theorem setR_bindings (r : Nat) (x : Ring) (s : State) : (setR r x s).bindings = s.bindings := rfl
@[simp] theorem setR_kernelSeq (r : Nat) (x : Ring) (s : State) : (setR r x s).kernelSeq = s.kernelSeq := rfl
@[simp] theorem setR_links (r : Nat) (x : Ring) (s : State) : (setR r x s).links = s.links := rfl
@[simp] theorem setR_nextPkt (r : Nat) (x : Ring) (s : State) : (setR r x s).nextPkt = s.nextPkt := rfl
@[simp] theorem setR_hubIn (r : Nat) (x : Ring) (s : State) : (setR r x s).hubIn = s.hubIn := rfl
@[simp] theorem setR_portArb (r : Nat) (x : Ring) (s : State) : (setR r x s).portArb = s.portArb := rfl
@[simp] theorem setR_bootAt (r : Nat) (x : Ring) (s : State) : (setR r x s).bootAt = s.bootAt := rfl
@[simp] theorem setR_bootWait (r : Nat) (x : Ring) (s : State) : (setR r x s).bootWait = s.bootWait := rfl
@[simp] theorem setR_bootHold (r : Nat) (x : Ring) (s : State) : (setR r x s).bootHold = s.bootHold := rfl
@[simp] theorem setR_groups (r : Nat) (x : Ring) (s : State) : (setR r x s).groups = s.groups := rfl
@[simp] theorem setR_groupFail (r : Nat) (x : Ring) (s : State) : (setR r x s).groupFail = s.groupFail := rfl
@[simp] theorem setR_groupDefs (r : Nat) (x : Ring) (s : State) : (setR r x s).groupDefs = s.groupDefs := rfl
@[simp] theorem setR_colls (r : Nat) (x : Ring) (s : State) : (setR r x s).colls = s.colls := rfl
@[simp] theorem setR_collSeq (r : Nat) (x : Ring) (s : State) : (setR r x s).collSeq = s.collSeq := rfl
@[simp] theorem setR_rootRevoked (r : Nat) (x : Ring) (s : State) : (setR r x s).rootRevoked = s.rootRevoked := rfl
@[simp] theorem setR_fuse (r : Nat) (x : Ring) (s : State) : (setR r x s).fuse = s.fuse := rfl
@[simp] theorem setR_hw (r : Nat) (x : Ring) (s : State) : (setR r x s).hw = s.hw := rfl
@[simp] theorem setR_pins (r : Nat) (x : Ring) (s : State) : (setR r x s).pins = s.pins := rfl
@[simp] theorem setR_pwr (r : Nat) (x : Ring) (s : State) : (setR r x s).pwr = s.pwr := rfl
@[simp] theorem setR_clk0 (r : Nat) (x : Ring) (s : State) : (setR r x s).clk0 = s.clk0 := rfl
@[simp] theorem setR_clk1 (r : Nat) (x : Ring) (s : State) : (setR r x s).clk1 = s.clk1 := rfl
@[simp] theorem setR_defects (r : Nat) (x : Ring) (s : State) : (setR r x s).defects = s.defects := rfl
@[simp] theorem setR_ladderTiles (r : Nat) (x : Ring) (s : State) : (setR r x s).ladderTiles = s.ladderTiles := rfl
@[simp] theorem setR_cfgBlk (r : Nat) (x : Ring) (s : State) : (setR r x s).cfgBlk = s.cfgBlk := rfl
@[simp] theorem setR_rerun (r : Nat) (x : Ring) (s : State) : (setR r x s).rerun = s.rerun := rfl
@[simp] theorem setR_layout (r : Nat) (x : Ring) (s : State) : (setR r x s).layout = s.layout := rfl
@[simp] theorem setR_jobs (r : Nat) (x : Ring) (s : State) : (setR r x s).jobs = s.jobs := rfl
@[simp] theorem setR_jobSeq (r : Nat) (x : Ring) (s : State) : (setR r x s).jobSeq = s.jobSeq := rfl
@[simp] theorem setR_step4 (r : Nat) (x : Ring) (s : State) : (setR r x s).step4 = s.step4 := rfl
@[simp] theorem setR_ptp (r : Nat) (x : Ring) (s : State) : (setR r x s).ptp = s.ptp := rfl
@[simp] theorem setR_mgmt (r : Nat) (x : Ring) (s : State) : (setR r x s).mgmt = s.mgmt := rfl
@[simp] theorem setR_kept (r : Nat) (x : Ring) (s : State) : (setR r x s).kept = s.kept := rfl

@[simp] theorem setC_pending (c : Nat) (x : Ctx) (s : State) : (setC c x s).pending = s.pending := rfl
@[simp] theorem setC_powered (c : Nat) (x : Ctx) (s : State) : (setC c x s).powered = s.powered := rfl
@[simp] theorem setC_tb (c : Nat) (x : Ctx) (s : State) : (setC c x s).tb = s.tb := rfl
@[simp] theorem setC_tbFrac (c : Nat) (x : Ctx) (s : State) : (setC c x s).tbFrac = s.tbFrac := rfl
@[simp] theorem setC_freeCtr (c : Nat) (x : Ctx) (s : State) : (setC c x s).freeCtr = s.freeCtr := rfl
@[simp] theorem setC_stamps (c : Nat) (x : Ctx) (s : State) : (setC c x s).stamps = s.stamps := rfl
@[simp] theorem setC_cyc (c : Nat) (x : Ctx) (s : State) : (setC c x s).cyc = s.cyc := rfl
@[simp] theorem setC_regs (c : Nat) (x : Ctx) (s : State) : (setC c x s).regs = s.regs := rfl
@[simp] theorem setC_log (c : Nat) (x : Ctx) (s : State) : (setC c x s).log = s.log := rfl
@[simp] theorem setC_logLast (c : Nat) (x : Ctx) (s : State) : (setC c x s).logLast = s.logLast := rfl
@[simp] theorem setC_logSel (c : Nat) (x : Ctx) (s : State) : (setC c x s).logSel = s.logSel := rfl
@[simp] theorem setC_tiles (c : Nat) (x : Ctx) (s : State) : (setC c x s).tiles = s.tiles := rfl
@[simp] theorem setC_kernels (c : Nat) (x : Ctx) (s : State) : (setC c x s).kernels = s.kernels := rfl
@[simp] theorem setC_reqs (c : Nat) (x : Ctx) (s : State) : (setC c x s).reqs = s.reqs := rfl
@[simp] theorem setC_nextReq (c : Nat) (x : Ctx) (s : State) : (setC c x s).nextReq = s.nextReq := rfl
@[simp] theorem setC_hbm (c : Nat) (x : Ctx) (s : State) : (setC c x s).hbm = s.hbm := rfl
@[simp] theorem setC_written (c : Nat) (x : Ctx) (s : State) : (setC c x s).written = s.written := rfl
@[simp] theorem setC_blkErr (c : Nat) (x : Ctx) (s : State) : (setC c x s).blkErr = s.blkErr := rfl
@[simp] theorem setC_blkHard (c : Nat) (x : Ctx) (s : State) : (setC c x s).blkHard = s.blkHard := rfl
@[simp] theorem setC_rings (c : Nat) (x : Ctx) (s : State) : (setC c x s).rings = s.rings := rfl
@[simp] theorem setC_rrc0 (c : Nat) (x : Ctx) (s : State) : (setC c x s).rrc0 = s.rrc0 := rfl
@[simp] theorem setC_rrc1 (c : Nat) (x : Ctx) (s : State) : (setC c x s).rrc1 = s.rrc1 := rfl
@[simp] theorem setC_fills0 (c : Nat) (x : Ctx) (s : State) : (setC c x s).fills0 = s.fills0 := rfl
@[simp] theorem setC_fills1 (c : Nat) (x : Ctx) (s : State) : (setC c x s).fills1 = s.fills1 := rfl
@[simp] theorem setC_routes (c : Nat) (x : Ctx) (s : State) : (setC c x s).routes = s.routes := rfl
@[simp] theorem setC_mcast (c : Nat) (x : Ctx) (s : State) : (setC c x s).mcast = s.mcast := rfl
@[simp] theorem setC_rtIn (c : Nat) (x : Ctx) (s : State) : (setC c x s).rtIn = s.rtIn := rfl
@[simp] theorem setC_outQ (c : Nat) (x : Ctx) (s : State) : (setC c x s).outQ = s.outQ := rfl
@[simp] theorem setC_fenced (c : Nat) (x : Ctx) (s : State) : (setC c x s).fenced = s.fenced := rfl
@[simp] theorem setC_sameCyc (c : Nat) (x : Ctx) (s : State) : (setC c x s).sameCyc = s.sameCyc := rfl
@[simp] theorem setC_kvTurn (c : Nat) (x : Ctx) (s : State) : (setC c x s).kvTurn = s.kvTurn := rfl
@[simp] theorem setC_blkFate (c : Nat) (x : Ctx) (s : State) : (setC c x s).blkFate = s.blkFate := rfl
@[simp] theorem setC_timers (c : Nat) (x : Ctx) (s : State) : (setC c x s).timers = s.timers := rfl
@[simp] theorem setC_outbox (c : Nat) (x : Ctx) (s : State) : (setC c x s).outbox = s.outbox := rfl
@[simp] theorem setC_fseq (c : Nat) (x : Ctx) (s : State) : (setC c x s).fseq = s.fseq := rfl
@[simp] theorem setC_outboxFull (c : Nat) (x : Ctx) (s : State) : (setC c x s).outboxFull = s.outboxFull := rfl
@[simp] theorem setC_flash (c : Nat) (x : Ctx) (s : State) : (setC c x s).flash = s.flash := rfl
@[simp] theorem setC_cfgQ (c : Nat) (x : Ctx) (s : State) : (setC c x s).cfgQ = s.cfgQ := rfl
@[simp] theorem setC_repairRec (c : Nat) (x : Ctx) (s : State) : (setC c x s).repairRec = s.repairRec := rfl
@[simp] theorem setC_rowSuspects (c : Nat) (x : Ctx) (s : State) : (setC c x s).rowSuspects = s.rowSuspects := rfl
@[simp] theorem setC_colSuspects (c : Nat) (x : Ctx) (s : State) : (setC c x s).colSuspects = s.colSuspects := rfl
@[simp] theorem setC_spareRows (c : Nat) (x : Ctx) (s : State) : (setC c x s).spareRows = s.spareRows := rfl
@[simp] theorem setC_spareCols (c : Nat) (x : Ctx) (s : State) : (setC c x s).spareCols = s.spareCols := rfl
@[simp] theorem setC_glnPos (c : Nat) (x : Ctx) (s : State) : (setC c x s).glnPos = s.glnPos := rfl
@[simp] theorem setC_glnPasses (c : Nat) (x : Ctx) (s : State) : (setC c x s).glnPasses = s.glnPasses := rfl
@[simp] theorem setC_pageCount (c : Nat) (x : Ctx) (s : State) : (setC c x s).pageCount = s.pageCount := rfl
@[simp] theorem setC_pageLogged (c : Nat) (x : Ctx) (s : State) : (setC c x s).pageLogged = s.pageLogged := rfl
@[simp] theorem setC_qps (c : Nat) (x : Ctx) (s : State) : (setC c x s).qps = s.qps := rfl
@[simp] theorem setC_ports (c : Nat) (x : Ctx) (s : State) : (setC c x s).ports = s.ports := rfl
@[simp] theorem setC_sent (c : Nat) (x : Ctx) (s : State) : (setC c x s).sent = s.sent := rfl
@[simp] theorem setC_chans (c : Nat) (x : Ctx) (s : State) : (setC c x s).chans = s.chans := rfl
@[simp] theorem setC_snapQ (c : Nat) (x : Ctx) (s : State) : (setC c x s).snapQ = s.snapQ := rfl
@[simp] theorem setC_frozen (c : Nat) (x : Ctx) (s : State) : (setC c x s).frozen = s.frozen := rfl
@[simp] theorem setC_snapImage (c : Nat) (x : Ctx) (s : State) : (setC c x s).snapImage = s.snapImage := rfl
@[simp] theorem setC_held (c : Nat) (x : Ctx) (s : State) : (setC c x s).held = s.held := rfl
@[simp] theorem setC_waves (c : Nat) (x : Ctx) (s : State) : (setC c x s).waves = s.waves := rfl
@[simp] theorem setC_bindings (c : Nat) (x : Ctx) (s : State) : (setC c x s).bindings = s.bindings := rfl
@[simp] theorem setC_kernelSeq (c : Nat) (x : Ctx) (s : State) : (setC c x s).kernelSeq = s.kernelSeq := rfl
@[simp] theorem setC_links (c : Nat) (x : Ctx) (s : State) : (setC c x s).links = s.links := rfl
@[simp] theorem setC_nextPkt (c : Nat) (x : Ctx) (s : State) : (setC c x s).nextPkt = s.nextPkt := rfl
@[simp] theorem setC_hubIn (c : Nat) (x : Ctx) (s : State) : (setC c x s).hubIn = s.hubIn := rfl
@[simp] theorem setC_portArb (c : Nat) (x : Ctx) (s : State) : (setC c x s).portArb = s.portArb := rfl
@[simp] theorem setC_bootAt (c : Nat) (x : Ctx) (s : State) : (setC c x s).bootAt = s.bootAt := rfl
@[simp] theorem setC_bootWait (c : Nat) (x : Ctx) (s : State) : (setC c x s).bootWait = s.bootWait := rfl
@[simp] theorem setC_bootHold (c : Nat) (x : Ctx) (s : State) : (setC c x s).bootHold = s.bootHold := rfl
@[simp] theorem setC_groups (c : Nat) (x : Ctx) (s : State) : (setC c x s).groups = s.groups := rfl
@[simp] theorem setC_groupFail (c : Nat) (x : Ctx) (s : State) : (setC c x s).groupFail = s.groupFail := rfl
@[simp] theorem setC_groupDefs (c : Nat) (x : Ctx) (s : State) : (setC c x s).groupDefs = s.groupDefs := rfl
@[simp] theorem setC_colls (c : Nat) (x : Ctx) (s : State) : (setC c x s).colls = s.colls := rfl
@[simp] theorem setC_collSeq (c : Nat) (x : Ctx) (s : State) : (setC c x s).collSeq = s.collSeq := rfl
@[simp] theorem setC_rootRevoked (c : Nat) (x : Ctx) (s : State) : (setC c x s).rootRevoked = s.rootRevoked := rfl
@[simp] theorem setC_fuse (c : Nat) (x : Ctx) (s : State) : (setC c x s).fuse = s.fuse := rfl
@[simp] theorem setC_hw (c : Nat) (x : Ctx) (s : State) : (setC c x s).hw = s.hw := rfl
@[simp] theorem setC_pins (c : Nat) (x : Ctx) (s : State) : (setC c x s).pins = s.pins := rfl
@[simp] theorem setC_pwr (c : Nat) (x : Ctx) (s : State) : (setC c x s).pwr = s.pwr := rfl
@[simp] theorem setC_clk0 (c : Nat) (x : Ctx) (s : State) : (setC c x s).clk0 = s.clk0 := rfl
@[simp] theorem setC_clk1 (c : Nat) (x : Ctx) (s : State) : (setC c x s).clk1 = s.clk1 := rfl
@[simp] theorem setC_defects (c : Nat) (x : Ctx) (s : State) : (setC c x s).defects = s.defects := rfl
@[simp] theorem setC_ladderTiles (c : Nat) (x : Ctx) (s : State) : (setC c x s).ladderTiles = s.ladderTiles := rfl
@[simp] theorem setC_cfgBlk (c : Nat) (x : Ctx) (s : State) : (setC c x s).cfgBlk = s.cfgBlk := rfl
@[simp] theorem setC_rerun (c : Nat) (x : Ctx) (s : State) : (setC c x s).rerun = s.rerun := rfl
@[simp] theorem setC_layout (c : Nat) (x : Ctx) (s : State) : (setC c x s).layout = s.layout := rfl
@[simp] theorem setC_jobs (c : Nat) (x : Ctx) (s : State) : (setC c x s).jobs = s.jobs := rfl
@[simp] theorem setC_jobSeq (c : Nat) (x : Ctx) (s : State) : (setC c x s).jobSeq = s.jobSeq := rfl
@[simp] theorem setC_step4 (c : Nat) (x : Ctx) (s : State) : (setC c x s).step4 = s.step4 := rfl
@[simp] theorem setC_ptp (c : Nat) (x : Ctx) (s : State) : (setC c x s).ptp = s.ptp := rfl
@[simp] theorem setC_mgmt (c : Nat) (x : Ctx) (s : State) : (setC c x s).mgmt = s.mgmt := rfl
@[simp] theorem setC_kept (c : Nat) (x : Ctx) (s : State) : (setC c x s).kept = s.kept := rfl

@[simp] theorem setK_pending (k : Nat) (x : Kernel) (s : State) : (setK k x s).pending = s.pending := rfl
@[simp] theorem setK_powered (k : Nat) (x : Kernel) (s : State) : (setK k x s).powered = s.powered := rfl
@[simp] theorem setK_tb (k : Nat) (x : Kernel) (s : State) : (setK k x s).tb = s.tb := rfl
@[simp] theorem setK_tbFrac (k : Nat) (x : Kernel) (s : State) : (setK k x s).tbFrac = s.tbFrac := rfl
@[simp] theorem setK_freeCtr (k : Nat) (x : Kernel) (s : State) : (setK k x s).freeCtr = s.freeCtr := rfl
@[simp] theorem setK_stamps (k : Nat) (x : Kernel) (s : State) : (setK k x s).stamps = s.stamps := rfl
@[simp] theorem setK_cyc (k : Nat) (x : Kernel) (s : State) : (setK k x s).cyc = s.cyc := rfl
@[simp] theorem setK_regs (k : Nat) (x : Kernel) (s : State) : (setK k x s).regs = s.regs := rfl
@[simp] theorem setK_log (k : Nat) (x : Kernel) (s : State) : (setK k x s).log = s.log := rfl
@[simp] theorem setK_logLast (k : Nat) (x : Kernel) (s : State) : (setK k x s).logLast = s.logLast := rfl
@[simp] theorem setK_logSel (k : Nat) (x : Kernel) (s : State) : (setK k x s).logSel = s.logSel := rfl
@[simp] theorem setK_tiles (k : Nat) (x : Kernel) (s : State) : (setK k x s).tiles = s.tiles := rfl
@[simp] theorem setK_reqs (k : Nat) (x : Kernel) (s : State) : (setK k x s).reqs = s.reqs := rfl
@[simp] theorem setK_nextReq (k : Nat) (x : Kernel) (s : State) : (setK k x s).nextReq = s.nextReq := rfl
@[simp] theorem setK_hbm (k : Nat) (x : Kernel) (s : State) : (setK k x s).hbm = s.hbm := rfl
@[simp] theorem setK_written (k : Nat) (x : Kernel) (s : State) : (setK k x s).written = s.written := rfl
@[simp] theorem setK_blkErr (k : Nat) (x : Kernel) (s : State) : (setK k x s).blkErr = s.blkErr := rfl
@[simp] theorem setK_blkHard (k : Nat) (x : Kernel) (s : State) : (setK k x s).blkHard = s.blkHard := rfl
@[simp] theorem setK_rings (k : Nat) (x : Kernel) (s : State) : (setK k x s).rings = s.rings := rfl
@[simp] theorem setK_ctxs (k : Nat) (x : Kernel) (s : State) : (setK k x s).ctxs = s.ctxs := rfl
@[simp] theorem setK_rrc0 (k : Nat) (x : Kernel) (s : State) : (setK k x s).rrc0 = s.rrc0 := rfl
@[simp] theorem setK_rrc1 (k : Nat) (x : Kernel) (s : State) : (setK k x s).rrc1 = s.rrc1 := rfl
@[simp] theorem setK_fills0 (k : Nat) (x : Kernel) (s : State) : (setK k x s).fills0 = s.fills0 := rfl
@[simp] theorem setK_fills1 (k : Nat) (x : Kernel) (s : State) : (setK k x s).fills1 = s.fills1 := rfl
@[simp] theorem setK_routes (k : Nat) (x : Kernel) (s : State) : (setK k x s).routes = s.routes := rfl
@[simp] theorem setK_mcast (k : Nat) (x : Kernel) (s : State) : (setK k x s).mcast = s.mcast := rfl
@[simp] theorem setK_rtIn (k : Nat) (x : Kernel) (s : State) : (setK k x s).rtIn = s.rtIn := rfl
@[simp] theorem setK_outQ (k : Nat) (x : Kernel) (s : State) : (setK k x s).outQ = s.outQ := rfl
@[simp] theorem setK_fenced (k : Nat) (x : Kernel) (s : State) : (setK k x s).fenced = s.fenced := rfl
@[simp] theorem setK_sameCyc (k : Nat) (x : Kernel) (s : State) : (setK k x s).sameCyc = s.sameCyc := rfl
@[simp] theorem setK_kvTurn (k : Nat) (x : Kernel) (s : State) : (setK k x s).kvTurn = s.kvTurn := rfl
@[simp] theorem setK_blkFate (k : Nat) (x : Kernel) (s : State) : (setK k x s).blkFate = s.blkFate := rfl
@[simp] theorem setK_timers (k : Nat) (x : Kernel) (s : State) : (setK k x s).timers = s.timers := rfl
@[simp] theorem setK_outbox (k : Nat) (x : Kernel) (s : State) : (setK k x s).outbox = s.outbox := rfl
@[simp] theorem setK_fseq (k : Nat) (x : Kernel) (s : State) : (setK k x s).fseq = s.fseq := rfl
@[simp] theorem setK_outboxFull (k : Nat) (x : Kernel) (s : State) : (setK k x s).outboxFull = s.outboxFull := rfl
@[simp] theorem setK_flash (k : Nat) (x : Kernel) (s : State) : (setK k x s).flash = s.flash := rfl
@[simp] theorem setK_cfgQ (k : Nat) (x : Kernel) (s : State) : (setK k x s).cfgQ = s.cfgQ := rfl
@[simp] theorem setK_repairRec (k : Nat) (x : Kernel) (s : State) : (setK k x s).repairRec = s.repairRec := rfl
@[simp] theorem setK_rowSuspects (k : Nat) (x : Kernel) (s : State) : (setK k x s).rowSuspects = s.rowSuspects := rfl
@[simp] theorem setK_colSuspects (k : Nat) (x : Kernel) (s : State) : (setK k x s).colSuspects = s.colSuspects := rfl
@[simp] theorem setK_spareRows (k : Nat) (x : Kernel) (s : State) : (setK k x s).spareRows = s.spareRows := rfl
@[simp] theorem setK_spareCols (k : Nat) (x : Kernel) (s : State) : (setK k x s).spareCols = s.spareCols := rfl
@[simp] theorem setK_glnPos (k : Nat) (x : Kernel) (s : State) : (setK k x s).glnPos = s.glnPos := rfl
@[simp] theorem setK_glnPasses (k : Nat) (x : Kernel) (s : State) : (setK k x s).glnPasses = s.glnPasses := rfl
@[simp] theorem setK_pageCount (k : Nat) (x : Kernel) (s : State) : (setK k x s).pageCount = s.pageCount := rfl
@[simp] theorem setK_pageLogged (k : Nat) (x : Kernel) (s : State) : (setK k x s).pageLogged = s.pageLogged := rfl
@[simp] theorem setK_qps (k : Nat) (x : Kernel) (s : State) : (setK k x s).qps = s.qps := rfl
@[simp] theorem setK_ports (k : Nat) (x : Kernel) (s : State) : (setK k x s).ports = s.ports := rfl
@[simp] theorem setK_sent (k : Nat) (x : Kernel) (s : State) : (setK k x s).sent = s.sent := rfl
@[simp] theorem setK_chans (k : Nat) (x : Kernel) (s : State) : (setK k x s).chans = s.chans := rfl
@[simp] theorem setK_snapQ (k : Nat) (x : Kernel) (s : State) : (setK k x s).snapQ = s.snapQ := rfl
@[simp] theorem setK_frozen (k : Nat) (x : Kernel) (s : State) : (setK k x s).frozen = s.frozen := rfl
@[simp] theorem setK_snapImage (k : Nat) (x : Kernel) (s : State) : (setK k x s).snapImage = s.snapImage := rfl
@[simp] theorem setK_held (k : Nat) (x : Kernel) (s : State) : (setK k x s).held = s.held := rfl
@[simp] theorem setK_waves (k : Nat) (x : Kernel) (s : State) : (setK k x s).waves = s.waves := rfl
@[simp] theorem setK_bindings (k : Nat) (x : Kernel) (s : State) : (setK k x s).bindings = s.bindings := rfl
@[simp] theorem setK_kernelSeq (k : Nat) (x : Kernel) (s : State) : (setK k x s).kernelSeq = s.kernelSeq := rfl
@[simp] theorem setK_links (k : Nat) (x : Kernel) (s : State) : (setK k x s).links = s.links := rfl
@[simp] theorem setK_nextPkt (k : Nat) (x : Kernel) (s : State) : (setK k x s).nextPkt = s.nextPkt := rfl
@[simp] theorem setK_hubIn (k : Nat) (x : Kernel) (s : State) : (setK k x s).hubIn = s.hubIn := rfl
@[simp] theorem setK_portArb (k : Nat) (x : Kernel) (s : State) : (setK k x s).portArb = s.portArb := rfl
@[simp] theorem setK_bootAt (k : Nat) (x : Kernel) (s : State) : (setK k x s).bootAt = s.bootAt := rfl
@[simp] theorem setK_bootWait (k : Nat) (x : Kernel) (s : State) : (setK k x s).bootWait = s.bootWait := rfl
@[simp] theorem setK_bootHold (k : Nat) (x : Kernel) (s : State) : (setK k x s).bootHold = s.bootHold := rfl
@[simp] theorem setK_groups (k : Nat) (x : Kernel) (s : State) : (setK k x s).groups = s.groups := rfl
@[simp] theorem setK_groupFail (k : Nat) (x : Kernel) (s : State) : (setK k x s).groupFail = s.groupFail := rfl
@[simp] theorem setK_groupDefs (k : Nat) (x : Kernel) (s : State) : (setK k x s).groupDefs = s.groupDefs := rfl
@[simp] theorem setK_colls (k : Nat) (x : Kernel) (s : State) : (setK k x s).colls = s.colls := rfl
@[simp] theorem setK_collSeq (k : Nat) (x : Kernel) (s : State) : (setK k x s).collSeq = s.collSeq := rfl
@[simp] theorem setK_rootRevoked (k : Nat) (x : Kernel) (s : State) : (setK k x s).rootRevoked = s.rootRevoked := rfl
@[simp] theorem setK_fuse (k : Nat) (x : Kernel) (s : State) : (setK k x s).fuse = s.fuse := rfl
@[simp] theorem setK_hw (k : Nat) (x : Kernel) (s : State) : (setK k x s).hw = s.hw := rfl
@[simp] theorem setK_pins (k : Nat) (x : Kernel) (s : State) : (setK k x s).pins = s.pins := rfl
@[simp] theorem setK_pwr (k : Nat) (x : Kernel) (s : State) : (setK k x s).pwr = s.pwr := rfl
@[simp] theorem setK_clk0 (k : Nat) (x : Kernel) (s : State) : (setK k x s).clk0 = s.clk0 := rfl
@[simp] theorem setK_clk1 (k : Nat) (x : Kernel) (s : State) : (setK k x s).clk1 = s.clk1 := rfl
@[simp] theorem setK_defects (k : Nat) (x : Kernel) (s : State) : (setK k x s).defects = s.defects := rfl
@[simp] theorem setK_ladderTiles (k : Nat) (x : Kernel) (s : State) : (setK k x s).ladderTiles = s.ladderTiles := rfl
@[simp] theorem setK_cfgBlk (k : Nat) (x : Kernel) (s : State) : (setK k x s).cfgBlk = s.cfgBlk := rfl
@[simp] theorem setK_rerun (k : Nat) (x : Kernel) (s : State) : (setK k x s).rerun = s.rerun := rfl
@[simp] theorem setK_layout (k : Nat) (x : Kernel) (s : State) : (setK k x s).layout = s.layout := rfl
@[simp] theorem setK_jobs (k : Nat) (x : Kernel) (s : State) : (setK k x s).jobs = s.jobs := rfl
@[simp] theorem setK_jobSeq (k : Nat) (x : Kernel) (s : State) : (setK k x s).jobSeq = s.jobSeq := rfl
@[simp] theorem setK_step4 (k : Nat) (x : Kernel) (s : State) : (setK k x s).step4 = s.step4 := rfl
@[simp] theorem setK_ptp (k : Nat) (x : Kernel) (s : State) : (setK k x s).ptp = s.ptp := rfl
@[simp] theorem setK_mgmt (k : Nat) (x : Kernel) (s : State) : (setK k x s).mgmt = s.mgmt := rfl
@[simp] theorem setK_kept (k : Nat) (x : Kernel) (s : State) : (setK k x s).kept = s.kept := rfl

@[simp] theorem setL_pending (l : Nat) (x : Link) (s : State) : (setL l x s).pending = s.pending := rfl
@[simp] theorem setL_powered (l : Nat) (x : Link) (s : State) : (setL l x s).powered = s.powered := rfl
@[simp] theorem setL_tb (l : Nat) (x : Link) (s : State) : (setL l x s).tb = s.tb := rfl
@[simp] theorem setL_tbFrac (l : Nat) (x : Link) (s : State) : (setL l x s).tbFrac = s.tbFrac := rfl
@[simp] theorem setL_freeCtr (l : Nat) (x : Link) (s : State) : (setL l x s).freeCtr = s.freeCtr := rfl
@[simp] theorem setL_stamps (l : Nat) (x : Link) (s : State) : (setL l x s).stamps = s.stamps := rfl
@[simp] theorem setL_cyc (l : Nat) (x : Link) (s : State) : (setL l x s).cyc = s.cyc := rfl
@[simp] theorem setL_regs (l : Nat) (x : Link) (s : State) : (setL l x s).regs = s.regs := rfl
@[simp] theorem setL_log (l : Nat) (x : Link) (s : State) : (setL l x s).log = s.log := rfl
@[simp] theorem setL_logLast (l : Nat) (x : Link) (s : State) : (setL l x s).logLast = s.logLast := rfl
@[simp] theorem setL_logSel (l : Nat) (x : Link) (s : State) : (setL l x s).logSel = s.logSel := rfl
@[simp] theorem setL_tiles (l : Nat) (x : Link) (s : State) : (setL l x s).tiles = s.tiles := rfl
@[simp] theorem setL_kernels (l : Nat) (x : Link) (s : State) : (setL l x s).kernels = s.kernels := rfl
@[simp] theorem setL_reqs (l : Nat) (x : Link) (s : State) : (setL l x s).reqs = s.reqs := rfl
@[simp] theorem setL_nextReq (l : Nat) (x : Link) (s : State) : (setL l x s).nextReq = s.nextReq := rfl
@[simp] theorem setL_hbm (l : Nat) (x : Link) (s : State) : (setL l x s).hbm = s.hbm := rfl
@[simp] theorem setL_written (l : Nat) (x : Link) (s : State) : (setL l x s).written = s.written := rfl
@[simp] theorem setL_blkErr (l : Nat) (x : Link) (s : State) : (setL l x s).blkErr = s.blkErr := rfl
@[simp] theorem setL_blkHard (l : Nat) (x : Link) (s : State) : (setL l x s).blkHard = s.blkHard := rfl
@[simp] theorem setL_rings (l : Nat) (x : Link) (s : State) : (setL l x s).rings = s.rings := rfl
@[simp] theorem setL_ctxs (l : Nat) (x : Link) (s : State) : (setL l x s).ctxs = s.ctxs := rfl
@[simp] theorem setL_rrc0 (l : Nat) (x : Link) (s : State) : (setL l x s).rrc0 = s.rrc0 := rfl
@[simp] theorem setL_rrc1 (l : Nat) (x : Link) (s : State) : (setL l x s).rrc1 = s.rrc1 := rfl
@[simp] theorem setL_fills0 (l : Nat) (x : Link) (s : State) : (setL l x s).fills0 = s.fills0 := rfl
@[simp] theorem setL_fills1 (l : Nat) (x : Link) (s : State) : (setL l x s).fills1 = s.fills1 := rfl
@[simp] theorem setL_routes (l : Nat) (x : Link) (s : State) : (setL l x s).routes = s.routes := rfl
@[simp] theorem setL_mcast (l : Nat) (x : Link) (s : State) : (setL l x s).mcast = s.mcast := rfl
@[simp] theorem setL_rtIn (l : Nat) (x : Link) (s : State) : (setL l x s).rtIn = s.rtIn := rfl
@[simp] theorem setL_outQ (l : Nat) (x : Link) (s : State) : (setL l x s).outQ = s.outQ := rfl
@[simp] theorem setL_fenced (l : Nat) (x : Link) (s : State) : (setL l x s).fenced = s.fenced := rfl
@[simp] theorem setL_sameCyc (l : Nat) (x : Link) (s : State) : (setL l x s).sameCyc = s.sameCyc := rfl
@[simp] theorem setL_kvTurn (l : Nat) (x : Link) (s : State) : (setL l x s).kvTurn = s.kvTurn := rfl
@[simp] theorem setL_blkFate (l : Nat) (x : Link) (s : State) : (setL l x s).blkFate = s.blkFate := rfl
@[simp] theorem setL_timers (l : Nat) (x : Link) (s : State) : (setL l x s).timers = s.timers := rfl
@[simp] theorem setL_outbox (l : Nat) (x : Link) (s : State) : (setL l x s).outbox = s.outbox := rfl
@[simp] theorem setL_fseq (l : Nat) (x : Link) (s : State) : (setL l x s).fseq = s.fseq := rfl
@[simp] theorem setL_outboxFull (l : Nat) (x : Link) (s : State) : (setL l x s).outboxFull = s.outboxFull := rfl
@[simp] theorem setL_flash (l : Nat) (x : Link) (s : State) : (setL l x s).flash = s.flash := rfl
@[simp] theorem setL_cfgQ (l : Nat) (x : Link) (s : State) : (setL l x s).cfgQ = s.cfgQ := rfl
@[simp] theorem setL_repairRec (l : Nat) (x : Link) (s : State) : (setL l x s).repairRec = s.repairRec := rfl
@[simp] theorem setL_rowSuspects (l : Nat) (x : Link) (s : State) : (setL l x s).rowSuspects = s.rowSuspects := rfl
@[simp] theorem setL_colSuspects (l : Nat) (x : Link) (s : State) : (setL l x s).colSuspects = s.colSuspects := rfl
@[simp] theorem setL_spareRows (l : Nat) (x : Link) (s : State) : (setL l x s).spareRows = s.spareRows := rfl
@[simp] theorem setL_spareCols (l : Nat) (x : Link) (s : State) : (setL l x s).spareCols = s.spareCols := rfl
@[simp] theorem setL_glnPos (l : Nat) (x : Link) (s : State) : (setL l x s).glnPos = s.glnPos := rfl
@[simp] theorem setL_glnPasses (l : Nat) (x : Link) (s : State) : (setL l x s).glnPasses = s.glnPasses := rfl
@[simp] theorem setL_pageCount (l : Nat) (x : Link) (s : State) : (setL l x s).pageCount = s.pageCount := rfl
@[simp] theorem setL_pageLogged (l : Nat) (x : Link) (s : State) : (setL l x s).pageLogged = s.pageLogged := rfl
@[simp] theorem setL_qps (l : Nat) (x : Link) (s : State) : (setL l x s).qps = s.qps := rfl
@[simp] theorem setL_ports (l : Nat) (x : Link) (s : State) : (setL l x s).ports = s.ports := rfl
@[simp] theorem setL_sent (l : Nat) (x : Link) (s : State) : (setL l x s).sent = s.sent := rfl
@[simp] theorem setL_chans (l : Nat) (x : Link) (s : State) : (setL l x s).chans = s.chans := rfl
@[simp] theorem setL_snapQ (l : Nat) (x : Link) (s : State) : (setL l x s).snapQ = s.snapQ := rfl
@[simp] theorem setL_frozen (l : Nat) (x : Link) (s : State) : (setL l x s).frozen = s.frozen := rfl
@[simp] theorem setL_snapImage (l : Nat) (x : Link) (s : State) : (setL l x s).snapImage = s.snapImage := rfl
@[simp] theorem setL_held (l : Nat) (x : Link) (s : State) : (setL l x s).held = s.held := rfl
@[simp] theorem setL_waves (l : Nat) (x : Link) (s : State) : (setL l x s).waves = s.waves := rfl
@[simp] theorem setL_bindings (l : Nat) (x : Link) (s : State) : (setL l x s).bindings = s.bindings := rfl
@[simp] theorem setL_kernelSeq (l : Nat) (x : Link) (s : State) : (setL l x s).kernelSeq = s.kernelSeq := rfl
@[simp] theorem setL_nextPkt (l : Nat) (x : Link) (s : State) : (setL l x s).nextPkt = s.nextPkt := rfl
@[simp] theorem setL_hubIn (l : Nat) (x : Link) (s : State) : (setL l x s).hubIn = s.hubIn := rfl
@[simp] theorem setL_portArb (l : Nat) (x : Link) (s : State) : (setL l x s).portArb = s.portArb := rfl
@[simp] theorem setL_bootAt (l : Nat) (x : Link) (s : State) : (setL l x s).bootAt = s.bootAt := rfl
@[simp] theorem setL_bootWait (l : Nat) (x : Link) (s : State) : (setL l x s).bootWait = s.bootWait := rfl
@[simp] theorem setL_bootHold (l : Nat) (x : Link) (s : State) : (setL l x s).bootHold = s.bootHold := rfl
@[simp] theorem setL_groups (l : Nat) (x : Link) (s : State) : (setL l x s).groups = s.groups := rfl
@[simp] theorem setL_groupFail (l : Nat) (x : Link) (s : State) : (setL l x s).groupFail = s.groupFail := rfl
@[simp] theorem setL_groupDefs (l : Nat) (x : Link) (s : State) : (setL l x s).groupDefs = s.groupDefs := rfl
@[simp] theorem setL_colls (l : Nat) (x : Link) (s : State) : (setL l x s).colls = s.colls := rfl
@[simp] theorem setL_collSeq (l : Nat) (x : Link) (s : State) : (setL l x s).collSeq = s.collSeq := rfl
@[simp] theorem setL_rootRevoked (l : Nat) (x : Link) (s : State) : (setL l x s).rootRevoked = s.rootRevoked := rfl
@[simp] theorem setL_fuse (l : Nat) (x : Link) (s : State) : (setL l x s).fuse = s.fuse := rfl
@[simp] theorem setL_hw (l : Nat) (x : Link) (s : State) : (setL l x s).hw = s.hw := rfl
@[simp] theorem setL_pins (l : Nat) (x : Link) (s : State) : (setL l x s).pins = s.pins := rfl
@[simp] theorem setL_pwr (l : Nat) (x : Link) (s : State) : (setL l x s).pwr = s.pwr := rfl
@[simp] theorem setL_clk0 (l : Nat) (x : Link) (s : State) : (setL l x s).clk0 = s.clk0 := rfl
@[simp] theorem setL_clk1 (l : Nat) (x : Link) (s : State) : (setL l x s).clk1 = s.clk1 := rfl
@[simp] theorem setL_defects (l : Nat) (x : Link) (s : State) : (setL l x s).defects = s.defects := rfl
@[simp] theorem setL_ladderTiles (l : Nat) (x : Link) (s : State) : (setL l x s).ladderTiles = s.ladderTiles := rfl
@[simp] theorem setL_cfgBlk (l : Nat) (x : Link) (s : State) : (setL l x s).cfgBlk = s.cfgBlk := rfl
@[simp] theorem setL_rerun (l : Nat) (x : Link) (s : State) : (setL l x s).rerun = s.rerun := rfl
@[simp] theorem setL_layout (l : Nat) (x : Link) (s : State) : (setL l x s).layout = s.layout := rfl
@[simp] theorem setL_jobs (l : Nat) (x : Link) (s : State) : (setL l x s).jobs = s.jobs := rfl
@[simp] theorem setL_jobSeq (l : Nat) (x : Link) (s : State) : (setL l x s).jobSeq = s.jobSeq := rfl
@[simp] theorem setL_step4 (l : Nat) (x : Link) (s : State) : (setL l x s).step4 = s.step4 := rfl
@[simp] theorem setL_ptp (l : Nat) (x : Link) (s : State) : (setL l x s).ptp = s.ptp := rfl
@[simp] theorem setL_mgmt (l : Nat) (x : Link) (s : State) : (setL l x s).mgmt = s.mgmt := rfl
@[simp] theorem setL_kept (l : Nat) (x : Link) (s : State) : (setL l x s).kept = s.kept := rfl

@[simp] theorem tick1_pending (s : State) : (tick1 s).pending = s.pending := rfl
@[simp] theorem tick1_powered (s : State) : (tick1 s).powered = s.powered := rfl
@[simp] theorem tick1_tb (s : State) : (tick1 s).tb = s.tb := rfl
@[simp] theorem tick1_tbFrac (s : State) : (tick1 s).tbFrac = s.tbFrac := rfl
@[simp] theorem tick1_stamps (s : State) : (tick1 s).stamps = s.stamps := rfl
@[simp] theorem tick1_cyc (s : State) : (tick1 s).cyc = s.cyc := rfl
@[simp] theorem tick1_regs (s : State) : (tick1 s).regs = s.regs := rfl
@[simp] theorem tick1_log (s : State) : (tick1 s).log = s.log := rfl
@[simp] theorem tick1_logLast (s : State) : (tick1 s).logLast = s.logLast := rfl
@[simp] theorem tick1_logSel (s : State) : (tick1 s).logSel = s.logSel := rfl
@[simp] theorem tick1_tiles (s : State) : (tick1 s).tiles = s.tiles := rfl
@[simp] theorem tick1_kernels (s : State) : (tick1 s).kernels = s.kernels := rfl
@[simp] theorem tick1_reqs (s : State) : (tick1 s).reqs = s.reqs := rfl
@[simp] theorem tick1_nextReq (s : State) : (tick1 s).nextReq = s.nextReq := rfl
@[simp] theorem tick1_hbm (s : State) : (tick1 s).hbm = s.hbm := rfl
@[simp] theorem tick1_written (s : State) : (tick1 s).written = s.written := rfl
@[simp] theorem tick1_blkErr (s : State) : (tick1 s).blkErr = s.blkErr := rfl
@[simp] theorem tick1_blkHard (s : State) : (tick1 s).blkHard = s.blkHard := rfl
@[simp] theorem tick1_rings (s : State) : (tick1 s).rings = s.rings := rfl
@[simp] theorem tick1_ctxs (s : State) : (tick1 s).ctxs = s.ctxs := rfl
@[simp] theorem tick1_rrc0 (s : State) : (tick1 s).rrc0 = s.rrc0 := rfl
@[simp] theorem tick1_rrc1 (s : State) : (tick1 s).rrc1 = s.rrc1 := rfl
@[simp] theorem tick1_fills0 (s : State) : (tick1 s).fills0 = s.fills0 := rfl
@[simp] theorem tick1_fills1 (s : State) : (tick1 s).fills1 = s.fills1 := rfl
@[simp] theorem tick1_routes (s : State) : (tick1 s).routes = s.routes := rfl
@[simp] theorem tick1_mcast (s : State) : (tick1 s).mcast = s.mcast := rfl
@[simp] theorem tick1_rtIn (s : State) : (tick1 s).rtIn = s.rtIn := rfl
@[simp] theorem tick1_outQ (s : State) : (tick1 s).outQ = s.outQ := rfl
@[simp] theorem tick1_fenced (s : State) : (tick1 s).fenced = s.fenced := rfl
@[simp] theorem tick1_sameCyc (s : State) : (tick1 s).sameCyc = s.sameCyc := rfl
@[simp] theorem tick1_kvTurn (s : State) : (tick1 s).kvTurn = s.kvTurn := rfl
@[simp] theorem tick1_blkFate (s : State) : (tick1 s).blkFate = s.blkFate := rfl
@[simp] theorem tick1_timers (s : State) : (tick1 s).timers = s.timers := rfl
@[simp] theorem tick1_outbox (s : State) : (tick1 s).outbox = s.outbox := rfl
@[simp] theorem tick1_fseq (s : State) : (tick1 s).fseq = s.fseq := rfl
@[simp] theorem tick1_outboxFull (s : State) : (tick1 s).outboxFull = s.outboxFull := rfl
@[simp] theorem tick1_flash (s : State) : (tick1 s).flash = s.flash := rfl
@[simp] theorem tick1_cfgQ (s : State) : (tick1 s).cfgQ = s.cfgQ := rfl
@[simp] theorem tick1_repairRec (s : State) : (tick1 s).repairRec = s.repairRec := rfl
@[simp] theorem tick1_rowSuspects (s : State) : (tick1 s).rowSuspects = s.rowSuspects := rfl
@[simp] theorem tick1_colSuspects (s : State) : (tick1 s).colSuspects = s.colSuspects := rfl
@[simp] theorem tick1_spareRows (s : State) : (tick1 s).spareRows = s.spareRows := rfl
@[simp] theorem tick1_spareCols (s : State) : (tick1 s).spareCols = s.spareCols := rfl
@[simp] theorem tick1_glnPos (s : State) : (tick1 s).glnPos = s.glnPos := rfl
@[simp] theorem tick1_glnPasses (s : State) : (tick1 s).glnPasses = s.glnPasses := rfl
@[simp] theorem tick1_pageCount (s : State) : (tick1 s).pageCount = s.pageCount := rfl
@[simp] theorem tick1_pageLogged (s : State) : (tick1 s).pageLogged = s.pageLogged := rfl
@[simp] theorem tick1_qps (s : State) : (tick1 s).qps = s.qps := rfl
@[simp] theorem tick1_ports (s : State) : (tick1 s).ports = s.ports := rfl
@[simp] theorem tick1_sent (s : State) : (tick1 s).sent = s.sent := rfl
@[simp] theorem tick1_chans (s : State) : (tick1 s).chans = s.chans := rfl
@[simp] theorem tick1_snapQ (s : State) : (tick1 s).snapQ = s.snapQ := rfl
@[simp] theorem tick1_frozen (s : State) : (tick1 s).frozen = s.frozen := rfl
@[simp] theorem tick1_snapImage (s : State) : (tick1 s).snapImage = s.snapImage := rfl
@[simp] theorem tick1_held (s : State) : (tick1 s).held = s.held := rfl
@[simp] theorem tick1_waves (s : State) : (tick1 s).waves = s.waves := rfl
@[simp] theorem tick1_bindings (s : State) : (tick1 s).bindings = s.bindings := rfl
@[simp] theorem tick1_kernelSeq (s : State) : (tick1 s).kernelSeq = s.kernelSeq := rfl
@[simp] theorem tick1_links (s : State) : (tick1 s).links = s.links := rfl
@[simp] theorem tick1_nextPkt (s : State) : (tick1 s).nextPkt = s.nextPkt := rfl
@[simp] theorem tick1_hubIn (s : State) : (tick1 s).hubIn = s.hubIn := rfl
@[simp] theorem tick1_portArb (s : State) : (tick1 s).portArb = s.portArb := rfl
@[simp] theorem tick1_bootAt (s : State) : (tick1 s).bootAt = s.bootAt := rfl
@[simp] theorem tick1_bootWait (s : State) : (tick1 s).bootWait = s.bootWait := rfl
@[simp] theorem tick1_bootHold (s : State) : (tick1 s).bootHold = s.bootHold := rfl
@[simp] theorem tick1_groups (s : State) : (tick1 s).groups = s.groups := rfl
@[simp] theorem tick1_groupFail (s : State) : (tick1 s).groupFail = s.groupFail := rfl
@[simp] theorem tick1_groupDefs (s : State) : (tick1 s).groupDefs = s.groupDefs := rfl
@[simp] theorem tick1_colls (s : State) : (tick1 s).colls = s.colls := rfl
@[simp] theorem tick1_collSeq (s : State) : (tick1 s).collSeq = s.collSeq := rfl
@[simp] theorem tick1_rootRevoked (s : State) : (tick1 s).rootRevoked = s.rootRevoked := rfl
@[simp] theorem tick1_fuse (s : State) : (tick1 s).fuse = s.fuse := rfl
@[simp] theorem tick1_hw (s : State) : (tick1 s).hw = s.hw := rfl
@[simp] theorem tick1_pins (s : State) : (tick1 s).pins = s.pins := rfl
@[simp] theorem tick1_pwr (s : State) : (tick1 s).pwr = s.pwr := rfl
@[simp] theorem tick1_clk0 (s : State) : (tick1 s).clk0 = s.clk0 := rfl
@[simp] theorem tick1_clk1 (s : State) : (tick1 s).clk1 = s.clk1 := rfl
@[simp] theorem tick1_defects (s : State) : (tick1 s).defects = s.defects := rfl
@[simp] theorem tick1_ladderTiles (s : State) : (tick1 s).ladderTiles = s.ladderTiles := rfl
@[simp] theorem tick1_cfgBlk (s : State) : (tick1 s).cfgBlk = s.cfgBlk := rfl
@[simp] theorem tick1_rerun (s : State) : (tick1 s).rerun = s.rerun := rfl
@[simp] theorem tick1_layout (s : State) : (tick1 s).layout = s.layout := rfl
@[simp] theorem tick1_jobs (s : State) : (tick1 s).jobs = s.jobs := rfl
@[simp] theorem tick1_jobSeq (s : State) : (tick1 s).jobSeq = s.jobSeq := rfl
@[simp] theorem tick1_step4 (s : State) : (tick1 s).step4 = s.step4 := rfl
@[simp] theorem tick1_ptp (s : State) : (tick1 s).ptp = s.ptp := rfl
@[simp] theorem tick1_mgmt (s : State) : (tick1 s).mgmt = s.mgmt := rfl
@[simp] theorem tick1_kept (s : State) : (tick1 s).kept = s.kept := rfl

@[simp] theorem stampUse_pending (d : Dom) (s : State) : (stampUse d s).pending = s.pending := rfl
@[simp] theorem stampUse_powered (d : Dom) (s : State) : (stampUse d s).powered = s.powered := rfl
@[simp] theorem stampUse_tb (d : Dom) (s : State) : (stampUse d s).tb = s.tb := rfl
@[simp] theorem stampUse_tbFrac (d : Dom) (s : State) : (stampUse d s).tbFrac = s.tbFrac := rfl
@[simp] theorem stampUse_cyc (d : Dom) (s : State) : (stampUse d s).cyc = s.cyc := rfl
@[simp] theorem stampUse_regs (d : Dom) (s : State) : (stampUse d s).regs = s.regs := rfl
@[simp] theorem stampUse_log (d : Dom) (s : State) : (stampUse d s).log = s.log := rfl
@[simp] theorem stampUse_logLast (d : Dom) (s : State) : (stampUse d s).logLast = s.logLast := rfl
@[simp] theorem stampUse_logSel (d : Dom) (s : State) : (stampUse d s).logSel = s.logSel := rfl
@[simp] theorem stampUse_tiles (d : Dom) (s : State) : (stampUse d s).tiles = s.tiles := rfl
@[simp] theorem stampUse_kernels (d : Dom) (s : State) : (stampUse d s).kernels = s.kernels := rfl
@[simp] theorem stampUse_reqs (d : Dom) (s : State) : (stampUse d s).reqs = s.reqs := rfl
@[simp] theorem stampUse_nextReq (d : Dom) (s : State) : (stampUse d s).nextReq = s.nextReq := rfl
@[simp] theorem stampUse_hbm (d : Dom) (s : State) : (stampUse d s).hbm = s.hbm := rfl
@[simp] theorem stampUse_written (d : Dom) (s : State) : (stampUse d s).written = s.written := rfl
@[simp] theorem stampUse_blkErr (d : Dom) (s : State) : (stampUse d s).blkErr = s.blkErr := rfl
@[simp] theorem stampUse_blkHard (d : Dom) (s : State) : (stampUse d s).blkHard = s.blkHard := rfl
@[simp] theorem stampUse_rings (d : Dom) (s : State) : (stampUse d s).rings = s.rings := rfl
@[simp] theorem stampUse_ctxs (d : Dom) (s : State) : (stampUse d s).ctxs = s.ctxs := rfl
@[simp] theorem stampUse_rrc0 (d : Dom) (s : State) : (stampUse d s).rrc0 = s.rrc0 := rfl
@[simp] theorem stampUse_rrc1 (d : Dom) (s : State) : (stampUse d s).rrc1 = s.rrc1 := rfl
@[simp] theorem stampUse_fills0 (d : Dom) (s : State) : (stampUse d s).fills0 = s.fills0 := rfl
@[simp] theorem stampUse_fills1 (d : Dom) (s : State) : (stampUse d s).fills1 = s.fills1 := rfl
@[simp] theorem stampUse_routes (d : Dom) (s : State) : (stampUse d s).routes = s.routes := rfl
@[simp] theorem stampUse_mcast (d : Dom) (s : State) : (stampUse d s).mcast = s.mcast := rfl
@[simp] theorem stampUse_rtIn (d : Dom) (s : State) : (stampUse d s).rtIn = s.rtIn := rfl
@[simp] theorem stampUse_outQ (d : Dom) (s : State) : (stampUse d s).outQ = s.outQ := rfl
@[simp] theorem stampUse_fenced (d : Dom) (s : State) : (stampUse d s).fenced = s.fenced := rfl
@[simp] theorem stampUse_sameCyc (d : Dom) (s : State) : (stampUse d s).sameCyc = s.sameCyc := rfl
@[simp] theorem stampUse_kvTurn (d : Dom) (s : State) : (stampUse d s).kvTurn = s.kvTurn := rfl
@[simp] theorem stampUse_blkFate (d : Dom) (s : State) : (stampUse d s).blkFate = s.blkFate := rfl
@[simp] theorem stampUse_timers (d : Dom) (s : State) : (stampUse d s).timers = s.timers := rfl
@[simp] theorem stampUse_outbox (d : Dom) (s : State) : (stampUse d s).outbox = s.outbox := rfl
@[simp] theorem stampUse_fseq (d : Dom) (s : State) : (stampUse d s).fseq = s.fseq := rfl
@[simp] theorem stampUse_outboxFull (d : Dom) (s : State) : (stampUse d s).outboxFull = s.outboxFull := rfl
@[simp] theorem stampUse_flash (d : Dom) (s : State) : (stampUse d s).flash = s.flash := rfl
@[simp] theorem stampUse_cfgQ (d : Dom) (s : State) : (stampUse d s).cfgQ = s.cfgQ := rfl
@[simp] theorem stampUse_repairRec (d : Dom) (s : State) : (stampUse d s).repairRec = s.repairRec := rfl
@[simp] theorem stampUse_rowSuspects (d : Dom) (s : State) : (stampUse d s).rowSuspects = s.rowSuspects := rfl
@[simp] theorem stampUse_colSuspects (d : Dom) (s : State) : (stampUse d s).colSuspects = s.colSuspects := rfl
@[simp] theorem stampUse_spareRows (d : Dom) (s : State) : (stampUse d s).spareRows = s.spareRows := rfl
@[simp] theorem stampUse_spareCols (d : Dom) (s : State) : (stampUse d s).spareCols = s.spareCols := rfl
@[simp] theorem stampUse_glnPos (d : Dom) (s : State) : (stampUse d s).glnPos = s.glnPos := rfl
@[simp] theorem stampUse_glnPasses (d : Dom) (s : State) : (stampUse d s).glnPasses = s.glnPasses := rfl
@[simp] theorem stampUse_pageCount (d : Dom) (s : State) : (stampUse d s).pageCount = s.pageCount := rfl
@[simp] theorem stampUse_pageLogged (d : Dom) (s : State) : (stampUse d s).pageLogged = s.pageLogged := rfl
@[simp] theorem stampUse_qps (d : Dom) (s : State) : (stampUse d s).qps = s.qps := rfl
@[simp] theorem stampUse_ports (d : Dom) (s : State) : (stampUse d s).ports = s.ports := rfl
@[simp] theorem stampUse_sent (d : Dom) (s : State) : (stampUse d s).sent = s.sent := rfl
@[simp] theorem stampUse_chans (d : Dom) (s : State) : (stampUse d s).chans = s.chans := rfl
@[simp] theorem stampUse_snapQ (d : Dom) (s : State) : (stampUse d s).snapQ = s.snapQ := rfl
@[simp] theorem stampUse_frozen (d : Dom) (s : State) : (stampUse d s).frozen = s.frozen := rfl
@[simp] theorem stampUse_snapImage (d : Dom) (s : State) : (stampUse d s).snapImage = s.snapImage := rfl
@[simp] theorem stampUse_held (d : Dom) (s : State) : (stampUse d s).held = s.held := rfl
@[simp] theorem stampUse_waves (d : Dom) (s : State) : (stampUse d s).waves = s.waves := rfl
@[simp] theorem stampUse_bindings (d : Dom) (s : State) : (stampUse d s).bindings = s.bindings := rfl
@[simp] theorem stampUse_kernelSeq (d : Dom) (s : State) : (stampUse d s).kernelSeq = s.kernelSeq := rfl
@[simp] theorem stampUse_links (d : Dom) (s : State) : (stampUse d s).links = s.links := rfl
@[simp] theorem stampUse_nextPkt (d : Dom) (s : State) : (stampUse d s).nextPkt = s.nextPkt := rfl
@[simp] theorem stampUse_hubIn (d : Dom) (s : State) : (stampUse d s).hubIn = s.hubIn := rfl
@[simp] theorem stampUse_portArb (d : Dom) (s : State) : (stampUse d s).portArb = s.portArb := rfl
@[simp] theorem stampUse_bootAt (d : Dom) (s : State) : (stampUse d s).bootAt = s.bootAt := rfl
@[simp] theorem stampUse_bootWait (d : Dom) (s : State) : (stampUse d s).bootWait = s.bootWait := rfl
@[simp] theorem stampUse_bootHold (d : Dom) (s : State) : (stampUse d s).bootHold = s.bootHold := rfl
@[simp] theorem stampUse_groups (d : Dom) (s : State) : (stampUse d s).groups = s.groups := rfl
@[simp] theorem stampUse_groupFail (d : Dom) (s : State) : (stampUse d s).groupFail = s.groupFail := rfl
@[simp] theorem stampUse_groupDefs (d : Dom) (s : State) : (stampUse d s).groupDefs = s.groupDefs := rfl
@[simp] theorem stampUse_colls (d : Dom) (s : State) : (stampUse d s).colls = s.colls := rfl
@[simp] theorem stampUse_collSeq (d : Dom) (s : State) : (stampUse d s).collSeq = s.collSeq := rfl
@[simp] theorem stampUse_rootRevoked (d : Dom) (s : State) : (stampUse d s).rootRevoked = s.rootRevoked := rfl
@[simp] theorem stampUse_fuse (d : Dom) (s : State) : (stampUse d s).fuse = s.fuse := rfl
@[simp] theorem stampUse_hw (d : Dom) (s : State) : (stampUse d s).hw = s.hw := rfl
@[simp] theorem stampUse_pins (d : Dom) (s : State) : (stampUse d s).pins = s.pins := rfl
@[simp] theorem stampUse_pwr (d : Dom) (s : State) : (stampUse d s).pwr = s.pwr := rfl
@[simp] theorem stampUse_clk0 (d : Dom) (s : State) : (stampUse d s).clk0 = s.clk0 := rfl
@[simp] theorem stampUse_clk1 (d : Dom) (s : State) : (stampUse d s).clk1 = s.clk1 := rfl
@[simp] theorem stampUse_defects (d : Dom) (s : State) : (stampUse d s).defects = s.defects := rfl
@[simp] theorem stampUse_ladderTiles (d : Dom) (s : State) : (stampUse d s).ladderTiles = s.ladderTiles := rfl
@[simp] theorem stampUse_cfgBlk (d : Dom) (s : State) : (stampUse d s).cfgBlk = s.cfgBlk := rfl
@[simp] theorem stampUse_rerun (d : Dom) (s : State) : (stampUse d s).rerun = s.rerun := rfl
@[simp] theorem stampUse_layout (d : Dom) (s : State) : (stampUse d s).layout = s.layout := rfl
@[simp] theorem stampUse_jobs (d : Dom) (s : State) : (stampUse d s).jobs = s.jobs := rfl
@[simp] theorem stampUse_jobSeq (d : Dom) (s : State) : (stampUse d s).jobSeq = s.jobSeq := rfl
@[simp] theorem stampUse_step4 (d : Dom) (s : State) : (stampUse d s).step4 = s.step4 := rfl
@[simp] theorem stampUse_ptp (d : Dom) (s : State) : (stampUse d s).ptp = s.ptp := rfl
@[simp] theorem stampUse_mgmt (d : Dom) (s : State) : (stampUse d s).mgmt = s.mgmt := rfl
@[simp] theorem stampUse_kept (d : Dom) (s : State) : (stampUse d s).kept = s.kept := rfl

@[simp] theorem timerSet_pending (t : Timer) (n : Nat) (s : State) : (timerSet t n s).pending = s.pending := rfl
@[simp] theorem timerSet_powered (t : Timer) (n : Nat) (s : State) : (timerSet t n s).powered = s.powered := rfl
@[simp] theorem timerSet_tb (t : Timer) (n : Nat) (s : State) : (timerSet t n s).tb = s.tb := rfl
@[simp] theorem timerSet_tbFrac (t : Timer) (n : Nat) (s : State) : (timerSet t n s).tbFrac = s.tbFrac := rfl
@[simp] theorem timerSet_stamps (t : Timer) (n : Nat) (s : State) : (timerSet t n s).stamps = s.stamps := rfl
@[simp] theorem timerSet_cyc (t : Timer) (n : Nat) (s : State) : (timerSet t n s).cyc = s.cyc := rfl
@[simp] theorem timerSet_regs (t : Timer) (n : Nat) (s : State) : (timerSet t n s).regs = s.regs := rfl
@[simp] theorem timerSet_log (t : Timer) (n : Nat) (s : State) : (timerSet t n s).log = s.log := rfl
@[simp] theorem timerSet_logLast (t : Timer) (n : Nat) (s : State) : (timerSet t n s).logLast = s.logLast := rfl
@[simp] theorem timerSet_logSel (t : Timer) (n : Nat) (s : State) : (timerSet t n s).logSel = s.logSel := rfl
@[simp] theorem timerSet_tiles (t : Timer) (n : Nat) (s : State) : (timerSet t n s).tiles = s.tiles := rfl
@[simp] theorem timerSet_kernels (t : Timer) (n : Nat) (s : State) : (timerSet t n s).kernels = s.kernels := rfl
@[simp] theorem timerSet_reqs (t : Timer) (n : Nat) (s : State) : (timerSet t n s).reqs = s.reqs := rfl
@[simp] theorem timerSet_nextReq (t : Timer) (n : Nat) (s : State) : (timerSet t n s).nextReq = s.nextReq := rfl
@[simp] theorem timerSet_hbm (t : Timer) (n : Nat) (s : State) : (timerSet t n s).hbm = s.hbm := rfl
@[simp] theorem timerSet_written (t : Timer) (n : Nat) (s : State) : (timerSet t n s).written = s.written := rfl
@[simp] theorem timerSet_blkErr (t : Timer) (n : Nat) (s : State) : (timerSet t n s).blkErr = s.blkErr := rfl
@[simp] theorem timerSet_blkHard (t : Timer) (n : Nat) (s : State) : (timerSet t n s).blkHard = s.blkHard := rfl
@[simp] theorem timerSet_rings (t : Timer) (n : Nat) (s : State) : (timerSet t n s).rings = s.rings := rfl
@[simp] theorem timerSet_ctxs (t : Timer) (n : Nat) (s : State) : (timerSet t n s).ctxs = s.ctxs := rfl
@[simp] theorem timerSet_rrc0 (t : Timer) (n : Nat) (s : State) : (timerSet t n s).rrc0 = s.rrc0 := rfl
@[simp] theorem timerSet_rrc1 (t : Timer) (n : Nat) (s : State) : (timerSet t n s).rrc1 = s.rrc1 := rfl
@[simp] theorem timerSet_fills0 (t : Timer) (n : Nat) (s : State) : (timerSet t n s).fills0 = s.fills0 := rfl
@[simp] theorem timerSet_fills1 (t : Timer) (n : Nat) (s : State) : (timerSet t n s).fills1 = s.fills1 := rfl
@[simp] theorem timerSet_routes (t : Timer) (n : Nat) (s : State) : (timerSet t n s).routes = s.routes := rfl
@[simp] theorem timerSet_mcast (t : Timer) (n : Nat) (s : State) : (timerSet t n s).mcast = s.mcast := rfl
@[simp] theorem timerSet_rtIn (t : Timer) (n : Nat) (s : State) : (timerSet t n s).rtIn = s.rtIn := rfl
@[simp] theorem timerSet_outQ (t : Timer) (n : Nat) (s : State) : (timerSet t n s).outQ = s.outQ := rfl
@[simp] theorem timerSet_fenced (t : Timer) (n : Nat) (s : State) : (timerSet t n s).fenced = s.fenced := rfl
@[simp] theorem timerSet_sameCyc (t : Timer) (n : Nat) (s : State) : (timerSet t n s).sameCyc = s.sameCyc := rfl
@[simp] theorem timerSet_kvTurn (t : Timer) (n : Nat) (s : State) : (timerSet t n s).kvTurn = s.kvTurn := rfl
@[simp] theorem timerSet_blkFate (t : Timer) (n : Nat) (s : State) : (timerSet t n s).blkFate = s.blkFate := rfl
@[simp] theorem timerSet_outbox (t : Timer) (n : Nat) (s : State) : (timerSet t n s).outbox = s.outbox := rfl
@[simp] theorem timerSet_fseq (t : Timer) (n : Nat) (s : State) : (timerSet t n s).fseq = s.fseq := rfl
@[simp] theorem timerSet_outboxFull (t : Timer) (n : Nat) (s : State) : (timerSet t n s).outboxFull = s.outboxFull := rfl
@[simp] theorem timerSet_flash (t : Timer) (n : Nat) (s : State) : (timerSet t n s).flash = s.flash := rfl
@[simp] theorem timerSet_cfgQ (t : Timer) (n : Nat) (s : State) : (timerSet t n s).cfgQ = s.cfgQ := rfl
@[simp] theorem timerSet_repairRec (t : Timer) (n : Nat) (s : State) : (timerSet t n s).repairRec = s.repairRec := rfl
@[simp] theorem timerSet_rowSuspects (t : Timer) (n : Nat) (s : State) : (timerSet t n s).rowSuspects = s.rowSuspects := rfl
@[simp] theorem timerSet_colSuspects (t : Timer) (n : Nat) (s : State) : (timerSet t n s).colSuspects = s.colSuspects := rfl
@[simp] theorem timerSet_spareRows (t : Timer) (n : Nat) (s : State) : (timerSet t n s).spareRows = s.spareRows := rfl
@[simp] theorem timerSet_spareCols (t : Timer) (n : Nat) (s : State) : (timerSet t n s).spareCols = s.spareCols := rfl
@[simp] theorem timerSet_glnPos (t : Timer) (n : Nat) (s : State) : (timerSet t n s).glnPos = s.glnPos := rfl
@[simp] theorem timerSet_glnPasses (t : Timer) (n : Nat) (s : State) : (timerSet t n s).glnPasses = s.glnPasses := rfl
@[simp] theorem timerSet_pageCount (t : Timer) (n : Nat) (s : State) : (timerSet t n s).pageCount = s.pageCount := rfl
@[simp] theorem timerSet_pageLogged (t : Timer) (n : Nat) (s : State) : (timerSet t n s).pageLogged = s.pageLogged := rfl
@[simp] theorem timerSet_qps (t : Timer) (n : Nat) (s : State) : (timerSet t n s).qps = s.qps := rfl
@[simp] theorem timerSet_ports (t : Timer) (n : Nat) (s : State) : (timerSet t n s).ports = s.ports := rfl
@[simp] theorem timerSet_sent (t : Timer) (n : Nat) (s : State) : (timerSet t n s).sent = s.sent := rfl
@[simp] theorem timerSet_chans (t : Timer) (n : Nat) (s : State) : (timerSet t n s).chans = s.chans := rfl
@[simp] theorem timerSet_snapQ (t : Timer) (n : Nat) (s : State) : (timerSet t n s).snapQ = s.snapQ := rfl
@[simp] theorem timerSet_frozen (t : Timer) (n : Nat) (s : State) : (timerSet t n s).frozen = s.frozen := rfl
@[simp] theorem timerSet_snapImage (t : Timer) (n : Nat) (s : State) : (timerSet t n s).snapImage = s.snapImage := rfl
@[simp] theorem timerSet_held (t : Timer) (n : Nat) (s : State) : (timerSet t n s).held = s.held := rfl
@[simp] theorem timerSet_waves (t : Timer) (n : Nat) (s : State) : (timerSet t n s).waves = s.waves := rfl
@[simp] theorem timerSet_bindings (t : Timer) (n : Nat) (s : State) : (timerSet t n s).bindings = s.bindings := rfl
@[simp] theorem timerSet_kernelSeq (t : Timer) (n : Nat) (s : State) : (timerSet t n s).kernelSeq = s.kernelSeq := rfl
@[simp] theorem timerSet_links (t : Timer) (n : Nat) (s : State) : (timerSet t n s).links = s.links := rfl
@[simp] theorem timerSet_nextPkt (t : Timer) (n : Nat) (s : State) : (timerSet t n s).nextPkt = s.nextPkt := rfl
@[simp] theorem timerSet_hubIn (t : Timer) (n : Nat) (s : State) : (timerSet t n s).hubIn = s.hubIn := rfl
@[simp] theorem timerSet_portArb (t : Timer) (n : Nat) (s : State) : (timerSet t n s).portArb = s.portArb := rfl
@[simp] theorem timerSet_bootAt (t : Timer) (n : Nat) (s : State) : (timerSet t n s).bootAt = s.bootAt := rfl
@[simp] theorem timerSet_bootWait (t : Timer) (n : Nat) (s : State) : (timerSet t n s).bootWait = s.bootWait := rfl
@[simp] theorem timerSet_bootHold (t : Timer) (n : Nat) (s : State) : (timerSet t n s).bootHold = s.bootHold := rfl
@[simp] theorem timerSet_groups (t : Timer) (n : Nat) (s : State) : (timerSet t n s).groups = s.groups := rfl
@[simp] theorem timerSet_groupFail (t : Timer) (n : Nat) (s : State) : (timerSet t n s).groupFail = s.groupFail := rfl
@[simp] theorem timerSet_groupDefs (t : Timer) (n : Nat) (s : State) : (timerSet t n s).groupDefs = s.groupDefs := rfl
@[simp] theorem timerSet_colls (t : Timer) (n : Nat) (s : State) : (timerSet t n s).colls = s.colls := rfl
@[simp] theorem timerSet_collSeq (t : Timer) (n : Nat) (s : State) : (timerSet t n s).collSeq = s.collSeq := rfl
@[simp] theorem timerSet_rootRevoked (t : Timer) (n : Nat) (s : State) : (timerSet t n s).rootRevoked = s.rootRevoked := rfl
@[simp] theorem timerSet_fuse (t : Timer) (n : Nat) (s : State) : (timerSet t n s).fuse = s.fuse := rfl
@[simp] theorem timerSet_hw (t : Timer) (n : Nat) (s : State) : (timerSet t n s).hw = s.hw := rfl
@[simp] theorem timerSet_pins (t : Timer) (n : Nat) (s : State) : (timerSet t n s).pins = s.pins := rfl
@[simp] theorem timerSet_pwr (t : Timer) (n : Nat) (s : State) : (timerSet t n s).pwr = s.pwr := rfl
@[simp] theorem timerSet_clk0 (t : Timer) (n : Nat) (s : State) : (timerSet t n s).clk0 = s.clk0 := rfl
@[simp] theorem timerSet_clk1 (t : Timer) (n : Nat) (s : State) : (timerSet t n s).clk1 = s.clk1 := rfl
@[simp] theorem timerSet_defects (t : Timer) (n : Nat) (s : State) : (timerSet t n s).defects = s.defects := rfl
@[simp] theorem timerSet_ladderTiles (t : Timer) (n : Nat) (s : State) : (timerSet t n s).ladderTiles = s.ladderTiles := rfl
@[simp] theorem timerSet_cfgBlk (t : Timer) (n : Nat) (s : State) : (timerSet t n s).cfgBlk = s.cfgBlk := rfl
@[simp] theorem timerSet_rerun (t : Timer) (n : Nat) (s : State) : (timerSet t n s).rerun = s.rerun := rfl
@[simp] theorem timerSet_layout (t : Timer) (n : Nat) (s : State) : (timerSet t n s).layout = s.layout := rfl
@[simp] theorem timerSet_jobs (t : Timer) (n : Nat) (s : State) : (timerSet t n s).jobs = s.jobs := rfl
@[simp] theorem timerSet_jobSeq (t : Timer) (n : Nat) (s : State) : (timerSet t n s).jobSeq = s.jobSeq := rfl
@[simp] theorem timerSet_step4 (t : Timer) (n : Nat) (s : State) : (timerSet t n s).step4 = s.step4 := rfl
@[simp] theorem timerSet_ptp (t : Timer) (n : Nat) (s : State) : (timerSet t n s).ptp = s.ptp := rfl
@[simp] theorem timerSet_mgmt (t : Timer) (n : Nat) (s : State) : (timerSet t n s).mgmt = s.mgmt := rfl
@[simp] theorem timerSet_kept (t : Timer) (n : Nat) (s : State) : (timerSet t n s).kept = s.kept := rfl
@[simp] theorem timerSet_freeCtr (t : Timer) (n : Nat) (s : State) : (timerSet t n s).freeCtr = s.freeCtr := rfl

end Sys2Proof.Machine
end

