-- ==== Sys2Proof/Laws/Ops.lean ====
section
/-! SUPPORT. Laws/Ops.lean: what each shared operation over the state can do, said once. -/

namespace Sys2Proof.Machine

/-! ### Reads after writes -/

theorem smLook_smDel_ne (d : α) (m : SMap α) (x y : Nat) (h : y ≠ x) : smLook d (smDel m x) y = smLook d m y := by
  rw [smLook_smDel, if_neg h]

theorem smLook_smPut_ne [DecidableEq α] (d d' : α) (m : SMap α) (x y : Nat) (w : α) (h : y ≠ x) :
    smLook d (smPut d' m x w) y = smLook d m y := by
  unfold smPut
  split
  · exact smLook_smDel_ne d m x y h
  · rw [smLook_smIns, if_neg h]

/-- A field reads back the value written, cut to its width. -/
@[simp] theorem getF_setF_self (f : Fld) (v : Nat) (s : State) : getF f (setF f v s) = v % 2 ^ f.w := by
  simp [getF, setF]

/-- A write of a field leaves every other field as it was. -/
theorem getF_setF_ne (f g : Fld) (v : Nat) (s : State) (h : fldKey g ≠ fldKey f) : getF g (setF f v s) = getF g s := by
  simp only [getF, setF]; exact smLook_smPut_ne _ _ _ _ _ _ h

@[simp] theorem getT_setT (t u : Nat) (x : Tile) (s : State) : getT u (setT t x s) = if u = t then x else getT u s := by
  simp [getT, setT]
@[simp] theorem getR_setR (r q : Nat) (x : Ring) (s : State) : getR q (setR r x s) = if q = r then x else getR q s := by
  simp [getR, setR]
@[simp] theorem getC_setC (c d : Nat) (x : Ctx) (s : State) : getC d (setC c x s) = if d = c then x else getC d s := by
  simp [getC, setC]
@[simp] theorem getL_setL (l m : Nat) (x : Link) (s : State) : getL m (setL l x s) = if m = l then x else getL m s := by
  simp [getL, setL]

theorem modT_eq (t : Nat) (f : Tile → Tile) (s : State) : modT t f s = setT t (f (getT t s)) s := rfl
theorem modR_eq (r : Nat) (f : Ring → Ring) (s : State) : modR r f s = setR r (f (getR r s)) s := rfl
theorem modC_eq (c : Nat) (f : Ctx → Ctx) (s : State) : modC c f s = setC c (f (getC c s)) s := rfl
theorem modL_eq (l : Nat) (f : Link → Link) (s : State) : modL l f s = setL l (f (getL l s)) s := rfl

/-- An entry put in a map of entries that may be absent reads back. -/
theorem lookO_putO_self (m : SMap α) (k : Nat) (x : α) : lookO (putO m k x) k = some x := by
  unfold putO
  generalize smDel m k = m
  induction m with
  | nil => simp [smIns, lookO]
  | cons e m ih =>
    obtain ⟨j, v⟩ := e
    simp only [smIns]
    split
    · simp [lookO]
    · split
      · simp [lookO]
      · next h =>
        have hb : (j == k) = false := by simpa using fun e => h e.symm
        simpa [lookO, List.find?_cons, hb] using ih

/-- Noting an instant changes no register, tile, ring, context or link. -/
@[simp] theorem getF_timerSet (f : Fld) (t : Timer) (n : Nat) (s : State) : getF f (timerSet t n s) = getF f s := rfl
@[simp] theorem getT_timerSet (u : Nat) (t : Timer) (n : Nat) (s : State) : getT u (timerSet t n s) = getT u s := rfl
@[simp] theorem getR_timerSet (r : Nat) (t : Timer) (n : Nat) (s : State) : getR r (timerSet t n s) = getR r s := rfl
@[simp] theorem getC_timerSet (c : Nat) (t : Timer) (n : Nat) (s : State) : getC c (timerSet t n s) = getC c s := rfl
@[simp] theorem getL_timerSet (l : Nat) (t : Timer) (n : Nat) (s : State) : getL l (timerSet t n s) = getL l s := rfl

/-- What happens every `gap` ns happens when its time has come, which starts its next time. -/
theorem every_due {t : Timer} {n gap : Nat} {s : State} (h : timerDue t n gap s = true) (f : State → State) :
    every t n gap f s = f (timerSet t n s) := if_pos h
/-- Before its time it changes nothing. -/
theorem every_early {t : Timer} {n gap : Nat} {s : State} (h : timerDue t n gap s = false) (f : State → State) :
    every t n gap f s = s := if_neg (by simp [h])
/-- A time measured from now on has come when `gap` is zero, and not before otherwise. -/
theorem timerDue_timerSet (t : Timer) (n gap : Nat) (s : State) : timerDue t n gap (timerSet t n s) = decide (gap = 0) := by
  have h : lookO (timerSet t n s).timers (timerKey t n) = some s.tb := lookO_putO_self _ _ _
  unfold timerDue
  rw [h]
  have e : (s.tb + gap ≤ s.tb) = (gap = 0) := propext (by omega)
  simp [e]

/-- The state with everything that logging an event can change taken out (R481, R524). -/
def logMask (s : State) : State :=
  { s with freeCtr := 0, stamps := [], regs := [], log := [], outbox := [], fseq := 0, outboxFull := false, sent := [] }

theorem logMask_outboxPush (b : OutBody) (s : State) : logMask (outboxPush b s) = logMask s := by
  unfold outboxPush
  by_cases h : s.outbox.length < 256
  · rw [if_pos h]
    cases hm : s.mgmt.up
    · simp only [setF_mgmt, hm, Bool.false_eq_true, if_false]; rfl
    · simp only [setF_mgmt, hm, if_true]; rfl
  · rw [if_neg h]

theorem logMask_logRaw (e : Ev) (p c : Option Nat) (l : Nat) (a : List Byte) (s : State) :
    logMask (logRaw e p c l a s) = logMask s :=
  (logMask_outboxPush _ _).trans rfl

/-- Logging an event changes nothing but the log and its registers, the outbox and what is sent from it, and the record of
timestamps and free values taken. -/
theorem logMask_logEv (e : Ev) (p c : Option Nat) (l : Nat) (a : List Byte) (s : State) :
    logMask (logEv e p c l a s) = logMask s := by
  unfold logEv
  dsimp only
  split
  · exact (logMask_logRaw _ _ _ _ _ (logRaw e p c l a s)).trans (logMask_logRaw e p c l a s)
  · exact logMask_logRaw e p c l a s

/-- Two states that agree but for the log agree in every field that the log does not use. -/
theorem logMask_eq {s t : State} (f : State → α) (hf : ∀ u, f (logMask u) = f u) (h : logMask s = logMask t) : f s = f t := by
  rw [← hf s, ← hf t, h]

@[simp] theorem logEv_pending (e : Ev) (p c : Option Nat) (l : Nat) (a : List Byte) (s : State) :
    (logEv e p c l a s).pending = s.pending :=
  logMask_eq State.pending (fun _ => rfl) (logMask_logEv e p c l a s)
@[simp] theorem logEv_powered (e : Ev) (p c : Option Nat) (l : Nat) (a : List Byte) (s : State) :
    (logEv e p c l a s).powered = s.powered :=
  logMask_eq State.powered (fun _ => rfl) (logMask_logEv e p c l a s)
@[simp] theorem logEv_tb (e : Ev) (p c : Option Nat) (l : Nat) (a : List Byte) (s : State) :
    (logEv e p c l a s).tb = s.tb :=
  logMask_eq State.tb (fun _ => rfl) (logMask_logEv e p c l a s)
@[simp] theorem logEv_tbFrac (e : Ev) (p c : Option Nat) (l : Nat) (a : List Byte) (s : State) :
    (logEv e p c l a s).tbFrac = s.tbFrac :=
  logMask_eq State.tbFrac (fun _ => rfl) (logMask_logEv e p c l a s)
@[simp] theorem logEv_cyc (e : Ev) (p c : Option Nat) (l : Nat) (a : List Byte) (s : State) :
    (logEv e p c l a s).cyc = s.cyc :=
  logMask_eq State.cyc (fun _ => rfl) (logMask_logEv e p c l a s)
@[simp] theorem logEv_logLast (e : Ev) (p c : Option Nat) (l : Nat) (a : List Byte) (s : State) :
    (logEv e p c l a s).logLast = s.logLast :=
  logMask_eq State.logLast (fun _ => rfl) (logMask_logEv e p c l a s)
@[simp] theorem logEv_logSel (e : Ev) (p c : Option Nat) (l : Nat) (a : List Byte) (s : State) :
    (logEv e p c l a s).logSel = s.logSel :=
  logMask_eq State.logSel (fun _ => rfl) (logMask_logEv e p c l a s)
@[simp] theorem logEv_tiles (e : Ev) (p c : Option Nat) (l : Nat) (a : List Byte) (s : State) :
    (logEv e p c l a s).tiles = s.tiles :=
  logMask_eq State.tiles (fun _ => rfl) (logMask_logEv e p c l a s)
@[simp] theorem logEv_kernels (e : Ev) (p c : Option Nat) (l : Nat) (a : List Byte) (s : State) :
    (logEv e p c l a s).kernels = s.kernels :=
  logMask_eq State.kernels (fun _ => rfl) (logMask_logEv e p c l a s)
@[simp] theorem logEv_reqs (e : Ev) (p c : Option Nat) (l : Nat) (a : List Byte) (s : State) :
    (logEv e p c l a s).reqs = s.reqs :=
  logMask_eq State.reqs (fun _ => rfl) (logMask_logEv e p c l a s)
@[simp] theorem logEv_nextReq (e : Ev) (p c : Option Nat) (l : Nat) (a : List Byte) (s : State) :
    (logEv e p c l a s).nextReq = s.nextReq :=
  logMask_eq State.nextReq (fun _ => rfl) (logMask_logEv e p c l a s)
@[simp] theorem logEv_hbm (e : Ev) (p c : Option Nat) (l : Nat) (a : List Byte) (s : State) :
    (logEv e p c l a s).hbm = s.hbm :=
  logMask_eq State.hbm (fun _ => rfl) (logMask_logEv e p c l a s)
@[simp] theorem logEv_written (e : Ev) (p c : Option Nat) (l : Nat) (a : List Byte) (s : State) :
    (logEv e p c l a s).written = s.written :=
  logMask_eq State.written (fun _ => rfl) (logMask_logEv e p c l a s)
@[simp] theorem logEv_blkErr (e : Ev) (p c : Option Nat) (l : Nat) (a : List Byte) (s : State) :
    (logEv e p c l a s).blkErr = s.blkErr :=
  logMask_eq State.blkErr (fun _ => rfl) (logMask_logEv e p c l a s)
@[simp] theorem logEv_blkHard (e : Ev) (p c : Option Nat) (l : Nat) (a : List Byte) (s : State) :
    (logEv e p c l a s).blkHard = s.blkHard :=
  logMask_eq State.blkHard (fun _ => rfl) (logMask_logEv e p c l a s)
@[simp] theorem logEv_rings (e : Ev) (p c : Option Nat) (l : Nat) (a : List Byte) (s : State) :
    (logEv e p c l a s).rings = s.rings :=
  logMask_eq State.rings (fun _ => rfl) (logMask_logEv e p c l a s)
@[simp] theorem logEv_ctxs (e : Ev) (p c : Option Nat) (l : Nat) (a : List Byte) (s : State) :
    (logEv e p c l a s).ctxs = s.ctxs :=
  logMask_eq State.ctxs (fun _ => rfl) (logMask_logEv e p c l a s)
@[simp] theorem logEv_rrc0 (e : Ev) (p c : Option Nat) (l : Nat) (a : List Byte) (s : State) :
    (logEv e p c l a s).rrc0 = s.rrc0 :=
  logMask_eq State.rrc0 (fun _ => rfl) (logMask_logEv e p c l a s)
@[simp] theorem logEv_rrc1 (e : Ev) (p c : Option Nat) (l : Nat) (a : List Byte) (s : State) :
    (logEv e p c l a s).rrc1 = s.rrc1 :=
  logMask_eq State.rrc1 (fun _ => rfl) (logMask_logEv e p c l a s)
@[simp] theorem logEv_fills0 (e : Ev) (p c : Option Nat) (l : Nat) (a : List Byte) (s : State) :
    (logEv e p c l a s).fills0 = s.fills0 :=
  logMask_eq State.fills0 (fun _ => rfl) (logMask_logEv e p c l a s)
@[simp] theorem logEv_fills1 (e : Ev) (p c : Option Nat) (l : Nat) (a : List Byte) (s : State) :
    (logEv e p c l a s).fills1 = s.fills1 :=
  logMask_eq State.fills1 (fun _ => rfl) (logMask_logEv e p c l a s)
@[simp] theorem logEv_routes (e : Ev) (p c : Option Nat) (l : Nat) (a : List Byte) (s : State) :
    (logEv e p c l a s).routes = s.routes :=
  logMask_eq State.routes (fun _ => rfl) (logMask_logEv e p c l a s)
@[simp] theorem logEv_mcast (e : Ev) (p c : Option Nat) (l : Nat) (a : List Byte) (s : State) :
    (logEv e p c l a s).mcast = s.mcast :=
  logMask_eq State.mcast (fun _ => rfl) (logMask_logEv e p c l a s)
@[simp] theorem logEv_rtIn (e : Ev) (p c : Option Nat) (l : Nat) (a : List Byte) (s : State) :
    (logEv e p c l a s).rtIn = s.rtIn :=
  logMask_eq State.rtIn (fun _ => rfl) (logMask_logEv e p c l a s)
@[simp] theorem logEv_outQ (e : Ev) (p c : Option Nat) (l : Nat) (a : List Byte) (s : State) :
    (logEv e p c l a s).outQ = s.outQ :=
  logMask_eq State.outQ (fun _ => rfl) (logMask_logEv e p c l a s)
@[simp] theorem logEv_fenced (e : Ev) (p c : Option Nat) (l : Nat) (a : List Byte) (s : State) :
    (logEv e p c l a s).fenced = s.fenced :=
  logMask_eq State.fenced (fun _ => rfl) (logMask_logEv e p c l a s)
@[simp] theorem logEv_sameCyc (e : Ev) (p c : Option Nat) (l : Nat) (a : List Byte) (s : State) :
    (logEv e p c l a s).sameCyc = s.sameCyc :=
  logMask_eq State.sameCyc (fun _ => rfl) (logMask_logEv e p c l a s)
@[simp] theorem logEv_kvTurn (e : Ev) (p c : Option Nat) (l : Nat) (a : List Byte) (s : State) :
    (logEv e p c l a s).kvTurn = s.kvTurn :=
  logMask_eq State.kvTurn (fun _ => rfl) (logMask_logEv e p c l a s)
@[simp] theorem logEv_blkFate (e : Ev) (p c : Option Nat) (l : Nat) (a : List Byte) (s : State) :
    (logEv e p c l a s).blkFate = s.blkFate :=
  logMask_eq State.blkFate (fun _ => rfl) (logMask_logEv e p c l a s)
@[simp] theorem logEv_timers (e : Ev) (p c : Option Nat) (l : Nat) (a : List Byte) (s : State) :
    (logEv e p c l a s).timers = s.timers :=
  logMask_eq State.timers (fun _ => rfl) (logMask_logEv e p c l a s)
@[simp] theorem logEv_flash (e : Ev) (p c : Option Nat) (l : Nat) (a : List Byte) (s : State) :
    (logEv e p c l a s).flash = s.flash :=
  logMask_eq State.flash (fun _ => rfl) (logMask_logEv e p c l a s)
@[simp] theorem logEv_cfgQ (e : Ev) (p c : Option Nat) (l : Nat) (a : List Byte) (s : State) :
    (logEv e p c l a s).cfgQ = s.cfgQ :=
  logMask_eq State.cfgQ (fun _ => rfl) (logMask_logEv e p c l a s)
@[simp] theorem logEv_repairRec (e : Ev) (p c : Option Nat) (l : Nat) (a : List Byte) (s : State) :
    (logEv e p c l a s).repairRec = s.repairRec :=
  logMask_eq State.repairRec (fun _ => rfl) (logMask_logEv e p c l a s)
@[simp] theorem logEv_rowSuspects (e : Ev) (p c : Option Nat) (l : Nat) (a : List Byte) (s : State) :
    (logEv e p c l a s).rowSuspects = s.rowSuspects :=
  logMask_eq State.rowSuspects (fun _ => rfl) (logMask_logEv e p c l a s)
@[simp] theorem logEv_colSuspects (e : Ev) (p c : Option Nat) (l : Nat) (a : List Byte) (s : State) :
    (logEv e p c l a s).colSuspects = s.colSuspects :=
  logMask_eq State.colSuspects (fun _ => rfl) (logMask_logEv e p c l a s)
@[simp] theorem logEv_spareRows (e : Ev) (p c : Option Nat) (l : Nat) (a : List Byte) (s : State) :
    (logEv e p c l a s).spareRows = s.spareRows :=
  logMask_eq State.spareRows (fun _ => rfl) (logMask_logEv e p c l a s)
@[simp] theorem logEv_spareCols (e : Ev) (p c : Option Nat) (l : Nat) (a : List Byte) (s : State) :
    (logEv e p c l a s).spareCols = s.spareCols :=
  logMask_eq State.spareCols (fun _ => rfl) (logMask_logEv e p c l a s)
@[simp] theorem logEv_glnPos (e : Ev) (p c : Option Nat) (l : Nat) (a : List Byte) (s : State) :
    (logEv e p c l a s).glnPos = s.glnPos :=
  logMask_eq State.glnPos (fun _ => rfl) (logMask_logEv e p c l a s)
@[simp] theorem logEv_glnPasses (e : Ev) (p c : Option Nat) (l : Nat) (a : List Byte) (s : State) :
    (logEv e p c l a s).glnPasses = s.glnPasses :=
  logMask_eq State.glnPasses (fun _ => rfl) (logMask_logEv e p c l a s)
@[simp] theorem logEv_pageCount (e : Ev) (p c : Option Nat) (l : Nat) (a : List Byte) (s : State) :
    (logEv e p c l a s).pageCount = s.pageCount :=
  logMask_eq State.pageCount (fun _ => rfl) (logMask_logEv e p c l a s)
@[simp] theorem logEv_pageLogged (e : Ev) (p c : Option Nat) (l : Nat) (a : List Byte) (s : State) :
    (logEv e p c l a s).pageLogged = s.pageLogged :=
  logMask_eq State.pageLogged (fun _ => rfl) (logMask_logEv e p c l a s)
@[simp] theorem logEv_qps (e : Ev) (p c : Option Nat) (l : Nat) (a : List Byte) (s : State) :
    (logEv e p c l a s).qps = s.qps :=
  logMask_eq State.qps (fun _ => rfl) (logMask_logEv e p c l a s)
@[simp] theorem logEv_ports (e : Ev) (p c : Option Nat) (l : Nat) (a : List Byte) (s : State) :
    (logEv e p c l a s).ports = s.ports :=
  logMask_eq State.ports (fun _ => rfl) (logMask_logEv e p c l a s)
@[simp] theorem logEv_chans (e : Ev) (p c : Option Nat) (l : Nat) (a : List Byte) (s : State) :
    (logEv e p c l a s).chans = s.chans :=
  logMask_eq State.chans (fun _ => rfl) (logMask_logEv e p c l a s)
@[simp] theorem logEv_snapQ (e : Ev) (p c : Option Nat) (l : Nat) (a : List Byte) (s : State) :
    (logEv e p c l a s).snapQ = s.snapQ :=
  logMask_eq State.snapQ (fun _ => rfl) (logMask_logEv e p c l a s)
@[simp] theorem logEv_frozen (e : Ev) (p c : Option Nat) (l : Nat) (a : List Byte) (s : State) :
    (logEv e p c l a s).frozen = s.frozen :=
  logMask_eq State.frozen (fun _ => rfl) (logMask_logEv e p c l a s)
@[simp] theorem logEv_snapImage (e : Ev) (p c : Option Nat) (l : Nat) (a : List Byte) (s : State) :
    (logEv e p c l a s).snapImage = s.snapImage :=
  logMask_eq State.snapImage (fun _ => rfl) (logMask_logEv e p c l a s)
@[simp] theorem logEv_held (e : Ev) (p c : Option Nat) (l : Nat) (a : List Byte) (s : State) :
    (logEv e p c l a s).held = s.held :=
  logMask_eq State.held (fun _ => rfl) (logMask_logEv e p c l a s)
@[simp] theorem logEv_waves (e : Ev) (p c : Option Nat) (l : Nat) (a : List Byte) (s : State) :
    (logEv e p c l a s).waves = s.waves :=
  logMask_eq State.waves (fun _ => rfl) (logMask_logEv e p c l a s)
@[simp] theorem logEv_bindings (e : Ev) (p c : Option Nat) (l : Nat) (a : List Byte) (s : State) :
    (logEv e p c l a s).bindings = s.bindings :=
  logMask_eq State.bindings (fun _ => rfl) (logMask_logEv e p c l a s)
@[simp] theorem logEv_kernelSeq (e : Ev) (p c : Option Nat) (l : Nat) (a : List Byte) (s : State) :
    (logEv e p c l a s).kernelSeq = s.kernelSeq :=
  logMask_eq State.kernelSeq (fun _ => rfl) (logMask_logEv e p c l a s)
@[simp] theorem logEv_links (e : Ev) (p c : Option Nat) (l : Nat) (a : List Byte) (s : State) :
    (logEv e p c l a s).links = s.links :=
  logMask_eq State.links (fun _ => rfl) (logMask_logEv e p c l a s)
@[simp] theorem logEv_nextPkt (e : Ev) (p c : Option Nat) (l : Nat) (a : List Byte) (s : State) :
    (logEv e p c l a s).nextPkt = s.nextPkt :=
  logMask_eq State.nextPkt (fun _ => rfl) (logMask_logEv e p c l a s)
@[simp] theorem logEv_hubIn (e : Ev) (p c : Option Nat) (l : Nat) (a : List Byte) (s : State) :
    (logEv e p c l a s).hubIn = s.hubIn :=
  logMask_eq State.hubIn (fun _ => rfl) (logMask_logEv e p c l a s)
@[simp] theorem logEv_portArb (e : Ev) (p c : Option Nat) (l : Nat) (a : List Byte) (s : State) :
    (logEv e p c l a s).portArb = s.portArb :=
  logMask_eq State.portArb (fun _ => rfl) (logMask_logEv e p c l a s)
@[simp] theorem logEv_bootAt (e : Ev) (p c : Option Nat) (l : Nat) (a : List Byte) (s : State) :
    (logEv e p c l a s).bootAt = s.bootAt :=
  logMask_eq State.bootAt (fun _ => rfl) (logMask_logEv e p c l a s)
@[simp] theorem logEv_bootWait (e : Ev) (p c : Option Nat) (l : Nat) (a : List Byte) (s : State) :
    (logEv e p c l a s).bootWait = s.bootWait :=
  logMask_eq State.bootWait (fun _ => rfl) (logMask_logEv e p c l a s)
@[simp] theorem logEv_bootHold (e : Ev) (p c : Option Nat) (l : Nat) (a : List Byte) (s : State) :
    (logEv e p c l a s).bootHold = s.bootHold :=
  logMask_eq State.bootHold (fun _ => rfl) (logMask_logEv e p c l a s)
@[simp] theorem logEv_groups (e : Ev) (p c : Option Nat) (l : Nat) (a : List Byte) (s : State) :
    (logEv e p c l a s).groups = s.groups :=
  logMask_eq State.groups (fun _ => rfl) (logMask_logEv e p c l a s)
@[simp] theorem logEv_groupFail (e : Ev) (p c : Option Nat) (l : Nat) (a : List Byte) (s : State) :
    (logEv e p c l a s).groupFail = s.groupFail :=
  logMask_eq State.groupFail (fun _ => rfl) (logMask_logEv e p c l a s)
@[simp] theorem logEv_groupDefs (e : Ev) (p c : Option Nat) (l : Nat) (a : List Byte) (s : State) :
    (logEv e p c l a s).groupDefs = s.groupDefs :=
  logMask_eq State.groupDefs (fun _ => rfl) (logMask_logEv e p c l a s)
@[simp] theorem logEv_colls (e : Ev) (p c : Option Nat) (l : Nat) (a : List Byte) (s : State) :
    (logEv e p c l a s).colls = s.colls :=
  logMask_eq State.colls (fun _ => rfl) (logMask_logEv e p c l a s)
@[simp] theorem logEv_collSeq (e : Ev) (p c : Option Nat) (l : Nat) (a : List Byte) (s : State) :
    (logEv e p c l a s).collSeq = s.collSeq :=
  logMask_eq State.collSeq (fun _ => rfl) (logMask_logEv e p c l a s)
@[simp] theorem logEv_rootRevoked (e : Ev) (p c : Option Nat) (l : Nat) (a : List Byte) (s : State) :
    (logEv e p c l a s).rootRevoked = s.rootRevoked :=
  logMask_eq State.rootRevoked (fun _ => rfl) (logMask_logEv e p c l a s)
@[simp] theorem logEv_fuse (e : Ev) (p c : Option Nat) (l : Nat) (a : List Byte) (s : State) :
    (logEv e p c l a s).fuse = s.fuse :=
  logMask_eq State.fuse (fun _ => rfl) (logMask_logEv e p c l a s)
@[simp] theorem logEv_hw (e : Ev) (p c : Option Nat) (l : Nat) (a : List Byte) (s : State) :
    (logEv e p c l a s).hw = s.hw :=
  logMask_eq State.hw (fun _ => rfl) (logMask_logEv e p c l a s)
@[simp] theorem logEv_pins (e : Ev) (p c : Option Nat) (l : Nat) (a : List Byte) (s : State) :
    (logEv e p c l a s).pins = s.pins :=
  logMask_eq State.pins (fun _ => rfl) (logMask_logEv e p c l a s)
@[simp] theorem logEv_pwr (e : Ev) (p c : Option Nat) (l : Nat) (a : List Byte) (s : State) :
    (logEv e p c l a s).pwr = s.pwr :=
  logMask_eq State.pwr (fun _ => rfl) (logMask_logEv e p c l a s)
@[simp] theorem logEv_clk0 (e : Ev) (p c : Option Nat) (l : Nat) (a : List Byte) (s : State) :
    (logEv e p c l a s).clk0 = s.clk0 :=
  logMask_eq State.clk0 (fun _ => rfl) (logMask_logEv e p c l a s)
@[simp] theorem logEv_clk1 (e : Ev) (p c : Option Nat) (l : Nat) (a : List Byte) (s : State) :
    (logEv e p c l a s).clk1 = s.clk1 :=
  logMask_eq State.clk1 (fun _ => rfl) (logMask_logEv e p c l a s)
@[simp] theorem logEv_defects (e : Ev) (p c : Option Nat) (l : Nat) (a : List Byte) (s : State) :
    (logEv e p c l a s).defects = s.defects :=
  logMask_eq State.defects (fun _ => rfl) (logMask_logEv e p c l a s)
@[simp] theorem logEv_ladderTiles (e : Ev) (p c : Option Nat) (l : Nat) (a : List Byte) (s : State) :
    (logEv e p c l a s).ladderTiles = s.ladderTiles :=
  logMask_eq State.ladderTiles (fun _ => rfl) (logMask_logEv e p c l a s)
@[simp] theorem logEv_cfgBlk (e : Ev) (p c : Option Nat) (l : Nat) (a : List Byte) (s : State) :
    (logEv e p c l a s).cfgBlk = s.cfgBlk :=
  logMask_eq State.cfgBlk (fun _ => rfl) (logMask_logEv e p c l a s)
@[simp] theorem logEv_rerun (e : Ev) (p c : Option Nat) (l : Nat) (a : List Byte) (s : State) :
    (logEv e p c l a s).rerun = s.rerun :=
  logMask_eq State.rerun (fun _ => rfl) (logMask_logEv e p c l a s)
@[simp] theorem logEv_layout (e : Ev) (p c : Option Nat) (l : Nat) (a : List Byte) (s : State) :
    (logEv e p c l a s).layout = s.layout :=
  logMask_eq State.layout (fun _ => rfl) (logMask_logEv e p c l a s)
@[simp] theorem logEv_jobs (e : Ev) (p c : Option Nat) (l : Nat) (a : List Byte) (s : State) :
    (logEv e p c l a s).jobs = s.jobs :=
  logMask_eq State.jobs (fun _ => rfl) (logMask_logEv e p c l a s)
@[simp] theorem logEv_jobSeq (e : Ev) (p c : Option Nat) (l : Nat) (a : List Byte) (s : State) :
    (logEv e p c l a s).jobSeq = s.jobSeq :=
  logMask_eq State.jobSeq (fun _ => rfl) (logMask_logEv e p c l a s)
@[simp] theorem logEv_step4 (e : Ev) (p c : Option Nat) (l : Nat) (a : List Byte) (s : State) :
    (logEv e p c l a s).step4 = s.step4 :=
  logMask_eq State.step4 (fun _ => rfl) (logMask_logEv e p c l a s)
@[simp] theorem logEv_ptp (e : Ev) (p c : Option Nat) (l : Nat) (a : List Byte) (s : State) :
    (logEv e p c l a s).ptp = s.ptp :=
  logMask_eq State.ptp (fun _ => rfl) (logMask_logEv e p c l a s)
@[simp] theorem logEv_mgmt (e : Ev) (p c : Option Nat) (l : Nat) (a : List Byte) (s : State) :
    (logEv e p c l a s).mgmt = s.mgmt :=
  logMask_eq State.mgmt (fun _ => rfl) (logMask_logEv e p c l a s)
@[simp] theorem logEv_kept (e : Ev) (p c : Option Nat) (l : Nat) (a : List Byte) (s : State) :
    (logEv e p c l a s).kept = s.kept :=
  logMask_eq State.kept (fun _ => rfl) (logMask_logEv e p c l a s)

end Sys2Proof.Machine
end

