-- ==== Sys2Proof/Laws/Hbm.lean ====
section
/-! SUPPORT. Laws/Hbm.lean: reading HBM leaves its contents, and every operation that changes them keeps their canonical
form. -/

namespace Sys2Proof.Machine

theorem hbmWf_of_eq {s t : State} (h : t.hbm = s.hbm) (hw : HbmWf s) : HbmWf t := by
  show smWf 0 t.hbm = true
  rw [h]; exact hw

theorem hbmWf_reset : HbmWf State.reset := rfl

/-- Putting bytes keeps the form. -/
theorem hbmWf_hbmPut (o : Nat) (l : List Byte) {s : State} (h : HbmWf s) : HbmWf (hbmPut o l s) :=
  smWf_smPutList 0 l s.hbm o h

theorem logLimited_hbm (k p : Nat) (e : Ev) (a b : Option Nat) (l : Nat) (x : List Byte) (s : State) :
    (logLimited k p e a b l x s).hbm = s.hbm := by
  unfold logLimited
  repeat' split
  all_goals first | rfl | simp

theorem cfgPush_hbm (op : CfgOp) (s : State) : (cfgPush op s).hbm = s.hbm := by
  unfold cfgPush; split <;> rfl

theorem ite_hbm {p : Prop} [Decidable p] {s : State} {x y : State} (hx : x.hbm = s.hbm) (hy : y.hbm = s.hbm) :
    (if p then x else y).hbm = s.hbm := by split <;> assumption

theorem queueRepair_hbm (k loc kind src : Nat) (s : State) : (queueRepair k loc kind src s).hbm = s.hbm := by
  unfold queueRepair
  refine ite_hbm rfl (ite_hbm (logEv_hbm ..) (ite_hbm (logEv_hbm ..) ?_))
  exact (logEv_hbm ..).trans (cfgPush_hbm ..)

theorem flag_hbm (f : Fld) (b : Bool) (s : State) : (setB f b s).hbm = s.hbm := setF_hbm ..

theorem bump_hbm (f : Fld) (n : Nat) (s : State) : (bump f n s).hbm = s.hbm := rfl

theorem setSame_hbm (f : Fld) (n : Nat) (s : State) : (setSame f n s).hbm = s.hbm := rfl

theorem noteCe_hbm (o n : Nat) (s : State) : (noteCe o n s).hbm = s.hbm :=
  (setSame_hbm ..).trans ((setSame_hbm ..).trans (setSame_hbm ..))

theorem noteUe_hbm (o : Nat) (b : Bool) (s : State) : (noteUe o b s).hbm = s.hbm :=
  (setSame_hbm ..).trans ((setSame_hbm ..).trans (setSame_hbm ..))

theorem repairOnUe_hbm (o : Nat) (s : State) : (repairOnUe o s).hbm = s.hbm := queueRepair_hbm ..

theorem ueDemand_hbm (o q : Nat) (s : State) : (ueDemand o q s).hbm = s.hbm := by
  unfold ueDemand
  extract_lets k s1 s2
  have h1 : s1.hbm = s.hbm := noteUe_hbm o false (bump (stkF k Reg.MEM_STK_UE_DEMAND) 1 s)
  have h2 : s2.hbm = s1.hbm := logLimited_hbm _ _ _ _ _ _ _ s1
  exact (repairOnUe_hbm o s2).trans (h2.trans h1)

theorem blockFate_hbm (o : Nat) (s : State) : (blockFate o s).2.hbm = s.hbm := by
  unfold blockFate; split <;> rfl

/-- A read of a block leaves the contents. -/
theorem blockRead_hbm (o q : Nat) (s : State) : (blockRead o q s).2.hbm = s.hbm := by
  unfold blockRead
  split
  · rfl
  · dsimp only
    split
    · rfl
    · split
      · exact (noteCe_hbm _ _ _).trans (bump_hbm _ _ _)
      · have e := blockFate_hbm o s
        split
        · rename_i u hu; rw [hu] at e; exact (ueDemand_hbm o q u).trans e
        · rename_i f u _ hu; rw [hu] at e; exact ((noteCe_hbm _ _ _).trans (bump_hbm _ _ _)).trans e

/-- A write within a block keeps the form. -/
theorem hbmWf_blockWrite (o : Nat) (l : List Byte) (q : Nat) {s : State} (h : HbmWf s) : HbmWf (blockWrite o l q s).2 := by
  unfold blockWrite
  dsimp only
  split
  · refine hbmWf_hbmPut _ _ ?_
    refine hbmWf_of_eq (s := { s with hbm := smClear s.hbm (o / 4096 * 4096) 4096 }) ?_ (smWf_smClear 0 s.hbm _ _ h)
    unfold granuleMark; dsimp only; split <;> rfl
  · split
    · exact hbmWf_hbmPut _ _ (hbmWf_of_eq rfl h)
    · have e := blockRead_hbm (o / 512 * 512) q s
      split
      · rename_i t ht; rw [ht] at e; exact hbmWf_of_eq e h
      · rename_i old t ht; rw [ht] at e
        exact hbmWf_hbmPut _ _ (hbmWf_hbmPut _ _ (hbmWf_of_eq (s := t) rfl (hbmWf_of_eq e h)))

/-- A read of a range leaves the contents. -/
theorem hbmRead_hbm (o n q : Nat) (s : State) : (hbmRead o n q s).2.hbm = s.hbm := by
  unfold hbmRead
  suffices H : ∀ (l : List (Nat × Nat)) (a : Except Nat (List Byte) × State), a.2.hbm = s.hbm →
      (l.foldl (fun acc p =>
        match acc with
        | (.error e, s) => (.error e, s)
        | (.ok l, s) =>
          match blockRead (p.1 / 512 * 512) q s with
          | (none, s) => (.error (p.1 / 512 * 512), s)
          | (some b, s) => (.ok (l ++ sliceB b (p.1 % 512) p.2), s)) a).2.hbm = s.hbm from H _ _ rfl
  intro l
  induction l with
  | nil => exact fun _ h => h
  | cons p l ih =>
    intro a h
    rw [List.foldl_cons]
    apply ih
    obtain ⟨r, t⟩ := a
    cases r with
    | error e => exact h
    | ok b =>
      have e := blockRead_hbm (p.1 / 512 * 512) q t
      dsimp only at h ⊢
      split <;> (rename_i u hu; rw [hu] at e; exact e.trans h)

/-- A write of a range keeps the form. -/
theorem hbmWf_hbmWrite (o : Nat) (d : List Byte) (q : Nat) {s : State} (h : HbmWf s) : HbmWf (hbmWrite o d q s).2 := by
  unfold hbmWrite
  suffices H : ∀ (l : List (Nat × Nat)) (a : Option Nat × State), HbmWf a.2 →
      HbmWf (l.foldl (fun acc p =>
        match acc with
        | (some e, s) => (some e, s)
        | (none, s) =>
          match blockWrite p.1 (sliceB d (p.1 - o) p.2) q s with
          | (true, s) => (none, s)
          | (false, s) => (some (p.1 / 512 * 512), s)) a).2 from H _ _ h
  intro l
  induction l with
  | nil => exact fun _ h => h
  | cons p l ih =>
    intro a h
    rw [List.foldl_cons]
    apply ih
    obtain ⟨r, t⟩ := a
    cases r with
    | some e => exact h
    | none =>
      have e := hbmWf_blockWrite p.1 (sliceB d (p.1 - o) p.2) q (s := t) h
      dsimp only at h ⊢
      split <;> (rename_i u hu; rw [hu] at e; exact e)

/-- An atomic keeps the form. -/
theorem hbmWf_hbmAtomic (o op : Nat) (w u : Bool) (b c : B64) (q : Nat) {s : State} (h : HbmWf s) :
    HbmWf (hbmAtomic o op w u b c q s).2 := by
  unfold hbmAtomic
  dsimp only
  have e := blockRead_hbm (o / 512 * 512) q s
  split
  · rename_i x t ht; rw [ht] at e; exact hbmWf_of_eq e h
  · rename_i x t ht; rw [ht] at e
    exact hbmWf_blockWrite _ _ _ (hbmWf_of_eq e h)

/-- A trimmed granule keeps the form. -/
theorem hbmWf_granuleTrim (g : Nat) {s : State} (h : HbmWf s) : HbmWf (granuleTrim g s) := by
  unfold granuleTrim
  split
  · exact smWf_smClear 0 s.hbm _ _ h
  · exact h

/-- With the compute dies off nothing is listed. -/
theorem hbmWf_diesOff (s : State) : HbmWf (diesOff s) := rfl

end Sys2Proof.Machine
end

