-- ==== Sys2Proof/Laws/Tile.lean ====
section
/-! SUPPORT. Laws/Tile.lean: what issuing an instruction can do, said once (R130, R132, R134). -/

namespace Sys2Proof.Machine

/-- A ready instruction runs: it faults, waits or goes on, as its own meaning says. -/
theorem issueAt_ready {op : TOp} {t : Nat} {k : Kernel} {w : B64} {i : TileWord} {s : State} (h : TileReady op t k w i s) :
    issueAt op t s = match opRun op t (tileEnv t k w s) i s with
      | .fault c info => tileFault t c (getT t s).pc info s
      | .late c info u => tileFault t c (getT t s).pc info u
      | .wait _ => s
      | .go u => afterIssue t i (getT t s) u := by
  have h5 : ¬(k.len ≤ (getT t s).pc) := Nat.not_le.mpr h.inside
  simp only [issueAt, h.kern, h.running, h.going, h.issuing, h5, h.fetched, h.split, h.isOp, h.legal, h.guarded, h.free,
    ne_eq, not_true_eq_false, Bool.false_eq_true, or_self, if_false, Bool.not_true] <;> rfl

/-- With no error in the scratchpad, an instruction other than MFSR ends as it issued. -/
theorem afterIssue_clean (t : Nat) (w : TileWord) (old : Tile) (s : State) (h : (getT t s).spErr = []) (hm : w.op ≠ .mfsr) :
    afterIssue t w old s = s := by
  have : checkReads t (newReads w old (getT t s)) s = (none, s) := by
    cases newReads w old (getT t s) <;> simp [checkReads, h]
  have h2 : checkStore t w old s = (none, s) := by
    unfold checkStore
    split
    · split
      · simp [h]
      · rfl
    · rfl
  simp [afterIssue, hm, this, h2]

/-- An instruction other than ST that reads no scratchpad bytes at issue ends as it issued. -/
theorem afterIssue_noReads (t : Nat) (w : TileWord) (old : Tile) (s : State) (h : newReads w old (getT t s) = [])
    (hm : w.op ≠ .mfsr) (hs : w.op ≠ .st) : afterIssue t w old s = s := by
  have h2 : checkStore t w old s = (none, s) := by
    unfold checkStore
    split
    · exact absurd ‹_› hs
    · rfl
  simp [afterIssue, hm, h, checkReads, h2]

/-- A ready instruction that goes on. -/
theorem issueAt_go {op : TOp} {t : Nat} {k : Kernel} {w : B64} {i : TileWord} {s u : State} (h : TileReady op t k w i s)
    (hr : opRun op t (tileEnv t k w s) i s = .go u) : issueAt op t s = afterIssue t i (getT t s) u := by
  rw [issueAt_ready h, hr]

/-- A ready instruction of one tile that goes on. -/
theorem issueAt_lift {op : TOp} {t : Nat} {k : Kernel} {w : B64} {i : TileWord} {s : State} {x : Tile}
    {f : TEnv → TileWord → Tile → TIss} (h : TileReady op t k w i s) (hf : opRun op = liftTile f)
    (hr : f (tileEnv t k w s) i (getT t s) = .go x) : issueAt op t s = afterIssue t i (getT t s) (setT t x s) :=
  issueAt_go h (by simp only [hf, liftTile, hr])

/-- A ready instruction of one tile that faults. -/
theorem issueAt_lift_fault {op : TOp} {t : Nat} {k : Kernel} {w : B64} {i : TileWord} {s : State} {c : TCause} {n : Nat}
    {f : TEnv → TileWord → Tile → TIss} (h : TileReady op t k w i s) (hf : opRun op = liftTile f)
    (hr : f (tileEnv t k w s) i (getT t s) = .fault c n) : issueAt op t s = tileFault t c (getT t s).pc n s := by
  rw [issueAt_ready h]; simp only [hf, liftTile, hr]

/-- A ready instruction that waits changes nothing. -/
theorem issueAt_wait {op : TOp} {t : Nat} {k : Kernel} {w : B64} {i : TileWord} {s : State} {n : Nat}
    (h : TileReady op t k w i s) (hr : opRun op t (tileEnv t k w s) i s = .wait n) : issueAt op t s = s := by
  rw [issueAt_ready h, hr]

/-- Writing a scalar register leaves the scratchpad's errors as they were. -/
@[simp] theorem wrS_spErr (x : Tile) (i : Nat) (v : B64) : (wrS x i v).spErr = x.spErr := by
  unfold wrS wrSAt; split <;> rfl
@[simp] theorem wrP_spErr (x : Tile) (i : Nat) (b : Bool) : (wrP x i b).spErr = x.spErr := by
  unfold wrP; split <;> rfl
@[simp] theorem wrA_spErr (x : Tile) (i : Nat) (v : B64) : (wrA x i v).spErr = x.spErr := rfl
@[simp] theorem retire_spErr (x : Tile) : (retire x).spErr = x.spErr := rfl
@[simp] theorem spPut_spErr (x : Tile) (o : Nat) (l : List Byte) : (spPut x o l).spErr = x.spErr := by
  unfold spPut; split <;> rfl

end Sys2Proof.Machine
end

