-- ==== Sys2Proof/Tests/WitnessTile.lean ====
section
/-! SUPPORT. Tests/WitnessTile.lean: for the statements about tiles, states and operands that meet their hypotheses. -/

namespace Sys2Proof.Tests

set_option Elab.async false
open Sys2Proof Sys2Proof.Machine

/-- A running kernel of one tile. -/
def wk : Kernel :=
  { ring := 0, idx := 0, ctx := 0, part := 0, prog := 0, len := 512, arg := 0, prec := 0, demoted := false, report := 0, bindings := 0, nbind := 0, table := [], count := 1, place := 0, phase := .running, since := 0, waitAt := 0, tiles := [0] }

/-- Tile 0 at PC 0 of that kernel, with `i` there in its instruction cache, changed by `f`. -/
def wt (i : TileWord) (f : Tile → Tile := id) : State :=
  { powered := true, kernels := [(1, wk)],
    tiles := [(0, f { mode := .running, ran := true, kern := some 1, icache := [(0, leBytes 8 (tileEncode i).toNat)] })] }

/-- The parts of TileReady as one decision. -/
def readyB (i : TileWord) (s : State) : Bool :=
  let x := getT 0 s
  decide (x.kern.bind (getK · s) = some wk) && decide (x.mode = .running) && !x.stopping && !x.draining &&
  decide (x.pc < wk.len) && decide (fetchWord x = some (tileEncode i)) && decide (tileSplit (tileEncode i) = some i) &&
  decide (tileWordFault (tileEncode i) = none) && guardOn x i && !operandHeld x i

theorem ready_of {i : TileWord} {s : State} (h : readyB i s = true) : TileReady i.op 0 wk (tileEncode i) i s := by
  simp only [readyB, Bool.and_eq_true, decide_eq_true_eq, Bool.not_eq_true'] at h
  obtain ⟨⟨⟨⟨⟨⟨⟨⟨⟨h1, h2⟩, h3⟩, h4⟩, h5⟩, h6⟩, h7⟩, h8⟩, h9⟩, h10⟩ := h
  exact ⟨h1, h2, h3, h4, h5, h6, h7, h8, rfl, h9, h10⟩

/-- Words of forms G and I with the guard on. -/
def wG (o : TOp) (d a b c : BitVec 6) (fn : BitVec 8) : TileWord := ⟨o, 0, false, .g d a b c fn⟩
def wI (o : TOp) (d a : BitVec 6) (fn : BitVec 8) (imm : BitVec 32) : TileWord := ⟨o, 0, false, .i d a fn imm⟩

theorem wit_ready (l : List TileWord) (f : Tile → Tile) (h : (l.all fun i => readyB i (wt i f)) = true) :
    ∀ i ∈ l, TileReady i.op 0 wk (tileEncode i) i (wt i f) := fun i hi => ready_of (List.all_eq_true.mp h i hi)

theorem wit_ScalarArithmetic : ∀ i ∈ [wG .alu 1 2 3 0 12, wG .cmp 1 2 3 0 5, wG .plog 1 2 3 0 3, wG .fpu 1 2 3 4 3, wG .fcmp 1 2 3 0 3,
    wI .alui 1 2 12 0xFFFFFFFF, wI .cmpi 1 2 5 7], TileReady i.op 0 wk (tileEncode i) i (wt i) := wit_ready _ _ (by decide +kernel)

theorem wit_Moves : ∀ i ∈ [wI .movi 31 0 0 0x80000000, wI .movhi 1 0 0 5, wI .adda 15 1 0 8, wG .amov 15 31 0 0 0, wG .mova 31 15 0 0 0],
    TileReady i.op 0 wk (tileEncode i) i (wt i) := wit_ready _ _ (by decide +kernel)

theorem wit_SequencerControl : ∀ i ∈ [wI .nop 0 0 0 0, wI .endOp 0 0 0 0, wI .br 0 0 0 63, wI .br 0 0 0 64, wI .br 0 0 0 0xFFFFFFFF,
    wG .lfsrld 0 1 0 0 0], TileReady i.op 0 wk (tileEncode i) i (wt i) := wit_ready _ _ (by decide +kernel)

/-- Branches to the last word of the image, to its end and to before it. -/
theorem wit_SequencerControl_targets : (∀ i ∈ [wI .br 0 0 0 63, wI .br 0 0 0 64, wI .br 0 0 0 0xFFFFFFFF], (getT 0 (wt i)).pc = 0) ∧ wk.len = 64 * 8 := by
  decide +kernel

/-- A word with a reserved index, one whose guard is off, and one whose operand is still to be written. -/
theorem wit_SequencerControl_held : tileWordFault (tileEncode (wG .alu 32 0 0 0 0)) = some .reservedNonzero ∧
    tileSplit (tileEncode (wG .alu 32 0 0 0 0)) = some (wG .alu 32 0 0 0 0) ∧
    guardOn (getT 0 (wt ⟨.alu, 1, false, .g 1 2 3 0 0⟩)) ⟨.alu, 1, false, .g 1 2 3 0 0⟩ = false ∧
    tileWordFault (tileEncode ⟨.alu, 1, false, .g 1 2 3 0 0⟩) = none ∧
    operandHeld (getT 0 (wt (wG .alu 1 2 3 0 0) fun x => { x with vecQ := [⟨[(2, 0, true)], [], [], 0, 0, 1, [], [], 0, 0⟩] }))
      (wG .alu 1 2 3 0 0) = true := by decide +kernel

theorem wit_RegisterFiles : ∀ i ∈ [wI .mfsr 1 0 0 0, wI .mfsr 1 0 0 9], TileReady i.op 0 wk (tileEncode i) i (wt i) :=
  wit_ready _ _ (by decide +kernel)

/-- LD and ST at the last byte of the scratchpad, and one byte past it. -/
theorem wit_ScalarLoadStore : (∀ i ∈ [wI .ld 1 1 0 0, wI .st 1 1 0 0, wI .ld 1 1 0 1, wI .st 1 1 0 1],
    TileReady i.op 0 wk (tileEncode i) i (wt i fun x => wrA x 1 0x17FFFF)) ∧
    SpClean 0 (wt (wI .ld 1 1 0 0) fun x => wrA x 1 0x17FFFF) ∧
    (rdA (getT 0 (wt (wI .ld 1 1 0 0) fun x => wrA x 1 0x17FFFF)) 1).extractLsb' 21 11 = 0 ∧
    (rdA (getT 0 (wt (wI .ld 1 1 0 0) fun x => wrA x 1 0x17FFFF)) 1).extractLsb' 52 12 = 0 ∧
    lineHeld (getT 0 (wt (wI .ld 1 1 0 0) fun x => wrA x 1 0x17FFFF)) [(0x17FFFF, 1)] [] = false ∧
    lineHeld (getT 0 (wt (wI .st 1 1 0 0) fun x => wrA x 1 0x17FFFF)) [] [(0x17FFFF, 1)] = false :=
  ⟨wit_ready _ _ (by decide +kernel), by decide +kernel⟩

theorem wit_VectorIssue : ∀ i ∈ [wG .valu 63 1 2 0 2, wG .valu 0 1 2 3 15, wG .valus 0 1 2 0 1, wG .vsfu 0 1 0 0 3, wG .vbcast 0 1 0 0 0,
    wG .vcvt 0 62 0 0 0, wG .vcvt 62 0 0 0 3, wG .vred 31 1 0 0 2, wG .smxu 0 1 29 0 0, wG .smxm 28 30 1 0 0],
    TileReady i.op 0 wk (tileEncode i) i (wt i) := wit_ready _ _ (by decide +kernel)

theorem wit_VectorMemory : (∀ i ∈ [wI .vld 0 1 0 512, wI .vst 0 1 0 512, wG .vdq 0 1 2 0 0, wG .vqnt 0 1 2 0 0],
    TileReady i.op 0 wk (tileEncode i) i (wt i)) ∧ (vecOffset (rdA (getT 0 (wt (wI .vld 0 1 0 512))) 1) 512).toOption = some 512 ∧
    lineHeld (getT 0 (wt (wI .vld 0 1 0 512))) [(512, 512)] [] = false ∧ lineHeld (getT 0 (wt (wI .vst 0 1 0 512))) [] [(512, 512)] = false ∧
    (vqPtrs (tileEnv 0 wk 0 (wt (wG .vdq 0 1 2 0 0))) (getT 0 (wt (wG .vdq 0 1 2 0 0))) 1 2 0 vdqFmt).isOk = true ∧
    (vqPtrs (tileEnv 0 wk 0 (wt (wG .vqnt 0 1 2 0 0))) (getT 0 (wt (wG .vqnt 0 1 2 0 0))) 1 2 0 vqntFmt).isOk = true :=
  ⟨wit_ready _ _ (by decide +kernel), by decide +kernel⟩

/-- MMUL, QMMUL and ACCRD of 16 rows, the first two in the middle of a run of work. -/
def wM (o : TOp) (ofmt : BitVec 4) : TileWord := ⟨o, 0, false, .m 1 (if o = .accrd then 0 else 2) 0 0 0 0 false ofmt (if o = .accrd then 0 else 0) false⟩

theorem wit_MatrixAndDma : (∀ i ∈ [wM .mmul 0, wM .qmmul 0, wM .accrd 7],
      TileReady i.op 0 wk (tileEncode i) i (wt i fun x => { x with lastStep := some 0 })) ∧
    isStart 0 (wt (wM .mmul 0) fun x => { x with lastStep := some 0 }) = false ∧
    isStart 0 (wt (wM .mmul 0)) = true ∧ drillOffset (wt (wM .mmul 0)) = 0 ∧
    getF (drillHeld 0) (wt (wM .mmul 0)) = 0 ∧ drillRoom 0 (wt (wM .mmul 0)) = true ∧
    drillRoom 0 (setF Reg.PWR_DRILL_CTL_WAVE_SIZE 0 (wt (wM .mmul 0))) = false ∧
    (match issMat false (tileEnv 0 wk 0 (wt (wM .mmul 0))) (wM .mmul 0) (getT 0 (wt (wM .mmul 0))) with
      | .go m => !m.skipped | _ => false) = true ∧
    (match issMat true (tileEnv 0 wk 0 (wt (wM .qmmul 0))) (wM .qmmul 0) (getT 0 (wt (wM .qmmul 0))) with
      | .go m => !m.skipped | _ => false) = true ∧
    (match issAccrd (tileEnv 0 wk 0 (wt (wM .accrd 7))) (wM .accrd 7) (getT 0 (wt (wM .accrd 7))) with
      | .go _ => true | _ => false) = true :=
  ⟨wit_ready _ _ (by decide +kernel), by decide +kernel⟩

def dd0 : DmaDesc := ⟨0, 0, 1, 1, 1, 1, 0, 0, 0, 0, 0, 0⟩

/-- The tile of WAITD with group 0 busy, of WAITS for a count not reached, and the others. -/
theorem wit_TransfersAndSignals : (∀ i ∈ [wI .dma 0 1 8 0, wI .waitd 0 0 0 1, wI .signal 0 0 0 0xFF0F, wG .waits 0 1 0 0 15],
      TileReady i.op 0 wk (tileEncode i) i (wt i)) ∧
    spPtr (rdA (getT 0 (wt (wI .dma 0 1 8 0))) 1) = some (0, 0) ∧ lineHeld (getT 0 (wt (wI .dma 0 1 8 0))) [(0, 64)] [] = false ∧
    dmaDesc (List.replicate 64 0) = some dd0 ∧ dmaInRange dd0 = true ∧ groupBusy (getT 0 (wt (wI .waitd 0 0 0 1))) 1 = false ∧
    groupBusy (getT 0 (wt (wI .waitd 0 0 0 1) fun x => { x with xfers := [⟨0, 0, false, false, false, dd0, 0, 0, 0, 1, true, [], []⟩] })) 1 = true ∧
    (rdS (getT 0 (wt (wG .waits 0 1 0 0 15))) 1).toNat % 2 ^ 32 ≤ signalCtr 0 15 (wt (wG .waits 0 1 0 0 15)) ∧
    signalCtr 0 15 (wt (wG .waits 0 1 0 0 15) fun x => wrS x 1 1) < (rdS (getT 0 (wt (wG .waits 0 1 0 0 15) fun x => wrS x 1 1)) 1).toNat % 2 ^ 32 :=
  ⟨wit_ready _ _ (by decide +kernel), by decide +kernel⟩

/-- Memory that a tile's instructions may use, or may not. -/
theorem wit_MemoryInstructions : (∀ i ∈ [wG .acq 0 0 0 0 0, wG .waitf 0 1 2 3 2, wG .atom 1 2 3 0 8], TileReady i.op 0 wk (tileEncode i) i (wt i)) ∧
    addrOk 0 0 8 false (setF Reg.MEM_USABLE (2 ^ 20) (setB Reg.PWR_RAILS_ON true (wt (wG .waitf 0 1 2 3 2)))) = true ∧
    hbmBacked 0 8 (setF Reg.MEM_USABLE (2 ^ 20) (wt (wG .atom 1 2 3 0 8))) = true ∧ gChip 0 = ownChip (wt (wG .atom 1 2 3 0 8)) ∧
    winOk 0 0 8 true true (wt (wG .atom 1 2 3 0 8)) = true :=
  ⟨wit_ready _ _ (by decide +kernel), by decide +kernel⟩

/-- A poll whose time has come, on memory that is there and on memory that is not, and an ATOM's answer. -/
theorem wit_MemoryInstructions_events :
    (getT 0 (wt (wI .nop 0 0 0 0) fun x => { x with waitf := some ⟨0, 0, 0, 0, none⟩ })).waitf = some ⟨0, 0, 0, 0, none⟩ ∧
    timerDue .pollFlag 0 256 (wt (wI .nop 0 0 0 0)) = true ∧
    addrOk 0 0 8 false (setF Reg.MEM_USABLE (2 ^ 20) (setB Reg.PWR_RAILS_ON true (wt (wI .nop 0 0 0 0)))) = true ∧
    addrOk 0 (2 ^ 55) 8 false (wt (wI .nop 0 0 0 0)) = false ∧
    (getT 0 (wt (wI .nop 0 0 0 0) fun x => { x with atoms := [⟨7, some 1, true, 0, 0⟩] })).atoms.find? (·.req = 7) = some ⟨7, some 1, true, 0, 0⟩ := by
  decide +kernel

end Sys2Proof.Tests
end

