-- ==== Sys2Proof/Tests/WitnessRings.lean ====
section
/-! SUPPORT. Tests/WitnessRings.lean: for the statements about a tile's units, rings, kernels, walkers and hosts, states and
operands that meet their hypotheses. -/

namespace Sys2Proof.Tests

set_option Elab.async false
open Sys2Proof Sys2Proof.Machine

/-- A module that runs, with all of its units, 1 MiB of memory in use and context 0 active. -/
def wb : State :=
  setF Reg.BOOT_STAT_STATE 2 <| setF Reg.BOOT_STAT_STEP 13 <| setB Reg.PWR_RAILS_ON true <| setF Reg.MEM_USABLE (2 ^ 20) <|
  setF Reg.LIC_CAP0_LINKS 63 <| setF Reg.LIC_CAP0_PORTS 15 <| setB Reg.LIC_CAP0_WALKERS true <| setF Reg.FP_TILES 3 <|
  { powered := true, mgmt := { up := true }, ctxs := [(0, { st := .active })] }

/-- Tile 0 of that module. -/
def wx (x : Tile) : State := { wb with tiles := [(0, x)] }

def op0 : MatOp :=
  { seq := 0, row0 := 0, m := 16, writes := [], partials := [], copy := [], satQuant := 0, nanZ := 0, macs := 0, cycles := 0, stall := 0,
    reads := [], wrs := [], blk := 0, drill := .none, pc := 0, load := 0, idle := false, begun := 0, cut := (0, 0, 0) }
def rd0 : RdOp := ⟨0, 0, 16, [], 0, 0, [], 0⟩
def vec0 : VecOp := ⟨[], [], [], 0, 0, 1, [], [], 0, 0⟩
def xf0 : DmaXfer := ⟨0, 0, false, false, false, ⟨0, 0, 64, 1, 1, 1, 0, 0, 0, 0, 0, 0⟩, 0, 0, 0, 0, false, [], []⟩

theorem wit_EnginesComplete : (getT 0 (wx { mode := .running, matQ := [op0] })).matQ = op0 :: [] ∧ op0.drill = .none ∧ op0.copy = [] ∧
    op0.cut = (0, 0, 0) ∧ (getT 0 (wx { mode := .running, rdQ := [rd0] })).rdQ = rd0 :: [] ∧
    (getT 0 (wx { mode := .running, vecQ := [vec0] })).vecQ = vec0 :: [] ∧
    rdWaits (getT 0 (wx { mode := .running, rdQ := [rd0] })) rd0 = false ∧
    rdWaits (getT 0 (wx { mode := .running, matQ := [op0], rdQ := [{ rd0 with seq := 1 }] })) { rd0 with seq := 1 } = true ∧
    (getT 0 (wx { mode := .running, spFix := [49151] })).spFix.contains 49151 = true := by decide +kernel

/-- Three bit errors in one word cannot be corrected, two can (R231). -/
theorem wit_EnginesComplete_flips : (getT 0 (spUpset 0 5 3 (wx { mode := .running }))).spErr = [(5, 3)] ∧ spGood 3 = false ∧
    spGood 2 = true := by decide +kernel

def cs0 : CSample := ⟨0, 0, 16, false, [], [], [], [], false, (0, 0)⟩

/-- A tile whose start was requested at cycle `c`. -/
def tw (c : Nat) : Tile := { mode := .running, matQ := [{ op0 with drill := .admission c }] }

theorem wit_DrillAndCrema :
    drillAsked (getT 0 (wx (tw 5))) = some 5 ∧ drillFirst 0 5 (wx (tw 5)) = true ∧ drillRoom 0 (wx (tw 5)) = true ∧
    drillRoom 0 (setF Reg.PWR_DRILL_CTL_WAVE_SIZE 0 (wx (tw 5))) = false ∧
    drillFirst 1 5 { wb with tiles := [(0, tw 5), (1, tw 5)] } = false ∧
    drillFirst 1 4 { wb with tiles := [(0, tw 5), (1, tw 4)] } = true ∧
    drillFirst 136 5 { wb with tiles := [(0, tw 4), (136, tw 5)] } = true ∧
    (getT 0 (wx { ramp := 1 })).ramp = 1 ∧ (getT 0 (wx { ramp := 2 })).ramp = 2 ∧ cycleOf 0 { wx {} with cyc := [(0, 12800)] } = 0 + 128 ∧
    cycleOf 0 { wx {} with cyc := [(0, 25600)] } = 0 + 256 ∧ cycleOf 0 { wx {} with cyc := [(0, 12799)] } < 0 + 128 ∧
    (getT 0 (wx { mode := .running, crema := [cs0] })).crema.find? (fun c => !c.excursion) = some cs0 ∧
    isExcursion (getT 0 (wx { mode := .running, crema := [cs0] })).prec (sampleError (sampleResults cs0).1 (sampleResults cs0).2) = false ∧
    (getT 0 (wx { mode := .running, crema := [{ cs0 with excursion := true }] })).crema.find? (·.excursion) = some { cs0 with excursion := true } ∧
    ((getT 0 (wx { mode := .running, crema := [{ cs0 with excursion := true }] })).matQ.any fun o => o.blk = cs0.blk) = false := by
  decide +kernel

/-- An answered request of a unit. -/
def rq (u : RUnit) (k : RKind) (st : RStage) : Req := ⟨u, k, 0, 8, false, false, 0, st, []⟩

/-- An instruction block that has come, for a tile with and without a kernel, and one that was refused. -/
theorem wit_EnginesComplete_fetch :
    lookO { wx { mode := .running, fetching := some 0 } with reqs := [(0, rq (.icache 0 0) .read (.done .ok []))] }.reqs 0 =
      some (rq (.icache 0 0) .read (.done .ok [])) ∧
    lookO { wx { mode := .running, fetching := some 0 } with reqs := [(0, rq (.icache 0 0) .read (.done .refused []))] }.reqs 0 =
      some (rq (.icache 0 0) .read (.done .refused [])) ∧
    (getT 0 (wt (wI .nop 0 0 0 0) fun x => { x with fetching := some 0 })).kern.bind
      (getK · (wt (wI .nop 0 0 0 0) fun x => { x with fetching := some 0 })) = some wk := by decide +kernel

/-- A tile that drains, one that has been cleared for 1,024 cycles and one that has not, and one that stops. -/
theorem wit_KernelsAndTileEnds_ends : drained (getT 0 (wx { mode := .running, kern := some 1, draining := true })) = true ∧
    (getT 0 (wx { mode := .clearing })).clearAt + 1024 ≤ cycleOf 0 { wx { mode := .clearing } with cyc := [(0, 102400)] } ∧
    cycleOf 0 { wx { mode := .clearing } with cyc := [(0, 102399)] } < (getT 0 (wx { mode := .clearing })).clearAt + 1024 ∧
    (getT 0 (wx { mode := .clearing, kern := some 1 })).kern = some 1 ∧ (getT 0 (wx { mode := .running, stopping := true })).kern = none ∧
    (getT 0 (wx { mode := .running, stopping := true, waitKind := 15 })).waitKind = 15 := by decide +kernel

theorem wit_TransfersAndSignals_increment : (getT 0 (wx { mode := .running, kern := some 1, sigQ := [⟨0, []⟩] })).sigQ = ⟨0, []⟩ :: [] := by
  decide +kernel

theorem wit_MatrixAndDma_parity : (dmaTileRequest 0 0 (wx { mode := .running, xfers := [xf0] })).nextReq ≠
    (wx { mode := .running, xfers := [xf0] }).nextReq := by decide +kernel

theorem wit_MatrixAndDma_pieces : (getT 0 (wx { mode := .running, xfers := [xf0] })).xfers.find? (·.id = 0) = some xf0 ∧
    dmaStarted (getT 0 (wx { mode := .running, xfers := [xf0] })) 0 = true ∧ dmaOut (getT 0 (wx { mode := .running, xfers := [xf0] })) < 128 ∧
    addrOk 0 (dmaPiece xf0).1 (dmaPiece xf0).2.2 false (wx { mode := .running, xfers := [xf0] }) = true ∧
    addrOk 0 (2 ^ 55) 64 false (wx { mode := .running, xfers := [xf0] }) = false ∧
    (dmaPiece { xf0 with desc := { xf0.desc with gaddr := 2 ^ 55 } }).1 = 2 ^ 55 ∧
    lookO { wx { mode := .running, xfers := [xf0] } with reqs := [(3, rq (.dma 0 0 0) .read (.done .ok [1]))] }.reqs 3 =
      some (rq (.dma 0 0 0) .read (.done .ok [1])) := by decide +kernel

/-- Ring 0 of context 0, of 64 commands at offset 0. -/
def wr (x : Ring → Ring := id) (s : State := wb) : State := { s with rings := [(0, x { log2 := 6, enable := true, cqLog2 := 6, cqAddr := 4096, producer := 1 })] }

theorem wit_Doorbells : wr.frozen = false ∧ (getR 0 wb).enable = false ∧ (getR 0 wr).enable = true ∧
    (64 + 2 ^ 32 - (getR 0 wr).producer) % 2 ^ 32 = 63 ∧ (64 + 2 ^ 32 - (getR 0 wr).consumed) % 2 ^ 32 ≤ 2 ^ (getR 0 wr).log2 ∧
    2 ^ (getR 0 wr).log2 < (65 + 2 ^ 32 - (getR 0 wr).consumed) % 2 ^ 32 ∧ (2 ^ 31 + 2 ^ 32 - (getR 0 wr).producer) % 2 ^ 32 = 2 ^ 31 - 1 ∧
    2 ^ 31 ≤ (0 + 2 ^ 32 - (getR 0 wr).producer) % 2 ^ 32 ∧
    ((getR 0 (wr fun x => { x with cqProduced := 2 })).cqProduced + 2 ^ 32 - (getR 0 wr).cqConsumed) % 2 ^ 32 = 2 ∧
    (getR 0 (wr fun x => { x with halted := true })).halted = true := by decide +kernel

/-- Ring 0 with descriptor `d` at its next index, in memory that has been written. -/
def wd (d : List Nat) (s : State := wb) : State :=
  let l := (d.map (BitVec.ofNat 8) ++ List.replicate 64 0).take 64
  wr id { s with hbm := smPutList 0 [] 0 l, written := [(0, true)] }

def cmdReadyB (op : Nat) (d : List Byte) (s : State) : Bool :=
  ringReady 0 s && (match readDesc 0 (getR 0 s).next s with | (.ok e, u) => decide (e = d) && decide (u = s) | _ => false) &&
  decide (dField d 1 1 % 2 = 0) && decide (dField d 0 1 = op) && headerOk d

theorem cmdReady_of {op : Nat} {d : List Byte} {s : State} (h : cmdReadyB op d s = true) : CmdReady op 0 d s s := by
  simp only [cmdReadyB, Bool.and_eq_true, decide_eq_true_eq] at h
  obtain ⟨⟨⟨⟨h1, h2⟩, h3⟩, h4⟩, h5⟩ := h
  refine ⟨h1, ?_, .inl h3, h4, h5⟩
  split at h2
  · rename_i e u he
    simp only [Bool.and_eq_true, decide_eq_true_eq] at h2
    rw [he, h2.1, h2.2]
  · exact absurd h2 (by decide)

def bytes64 (d : List Nat) : List Byte := (d.map (BitVec.ofNat 8) ++ List.replicate 64 0).take 64

/-- One descriptor of each opcode that a ring with memory at 0 can start. -/
theorem wit_Commands : ∀ d ∈ ([[0], [0, 0, 0, 0, 0, 0, 0, 0, 1], [3], [4], [5], [6], [2], [7], [8], [1], [9], [0x10], [0x20]] : List (List Nat)),
    CmdReady (d.headD 0) 0 (bytes64 d) (wd d) (wd d) := by
  intro d hd
  apply cmdReady_of
  have : (([[0], [0, 0, 0, 0, 0, 0, 0, 0, 1], [3], [4], [5], [6], [2], [7], [8], [1], [9], [0x10], [0x20]] : List (List Nat)).all fun d =>
    cmdReadyB (d.headD 0) (bytes64 d) (wd d)) = true := by decide +kernel
  exact List.all_eq_true.mp this d hd


def zs (n : Nat) : List Nat := List.replicate n 0

/-- A module with group 0 of two members, its slots and its quota. -/
def wcg : State := setF (slotsF 0) 4 <| setF (quotaF 0) 96 <|
  { wb with groups := [(0, ⟨[0, 1], 0, 0, 0⟩)] }

/-- Descriptors that pass the checks of their opcodes. -/
def dDma : List Nat := [2] ++ zs 23 ++ [64]
def dTrim : List Nat := [6] ++ zs 16 ++ [0x10]
def dKern : List Nat := [1] ++ zs 23 ++ [0xD5, 1, 0, 0x10, 0x1F, 5, 0, 0] ++ zs 18 ++ [1] ++ zs 5 ++ [8]
def dColl : List Nat := [0x10] ++ zs 15 ++ [1] ++ zs 16 ++ [4] ++ zs 6 ++ [8]

theorem wit_SimpleCommands : dZero (bytes64 [0]) 8 56 = true ∧ dField (bytes64 [3]) 8 8 % 8 = 0 ∧ dZero (bytes64 [3]) 24 40 = true ∧
    addrOk (ringPart 0 (taken 0 (bytes64 [3]) (wd [3]))) (dField (bytes64 [3]) 8 8) 8 true (taken 0 (bytes64 [3]) (wd [3])) = true ∧
    dField (bytes64 [4]) 32 1 ≤ 2 ∧ dZero (bytes64 [4]) 33 31 = true ∧
    addrOk (ringPart 0 (taken 0 (bytes64 [4]) (wd [4]))) (dField (bytes64 [4]) 8 8) 8 false (taken 0 (bytes64 [4]) (wd [4])) = true ∧
    acquireBad (bytes64 [5]) = false ∧ dZero (bytes64 [5]) 24 8 = true ∧ dZero (bytes64 [5]) 33 31 = true ∧
    trimWaits 0 0 (wd dTrim) = false ∧ trimCheck (ringPart 0 (wd dTrim)) (bytes64 dTrim) (taken 0 (bytes64 dTrim) (wd dTrim)) = none ∧
    (getR 0 (taken 0 (bytes64 [4]) (wd [4]))).cmds.length = 1 ∧
    (∀ c ∈ (getR 0 (taken 0 (bytes64 [4]) (wd [4]))).cmds, c.idx = 0) := by decide +kernel

theorem wit_DataCommands : dmaCheck (ringPart 0 (wd dDma)) (bytes64 dDma) (taken 0 (bytes64 dDma) (wd dDma)) = none ∧
    blockCheck (bytes64 [7]) (taken 0 (bytes64 [7]) (wd [7])) = none ∧ getB Reg.LIC_CAP0_WALKERS (taken 0 (bytes64 [7]) (wd [7])) = true ∧
    blockCheck (bytes64 [8]) (taken 0 (bytes64 [8]) (wd [8])) = none ∧
    kernelLayout (bytes64 dKern) (taken 0 (bytes64 dKern) (wd dKern)) = none ∧
    kernelCaps (bytes64 dKern) (taken 0 (bytes64 dKern) (wd dKern)) = none ∧ dField (bytes64 dKern) 48 2 = 0 ∧
    kernelAccess 0 0 (bytes64 dKern) (taken 0 (bytes64 dKern) (wd dKern)) = none ∧
    snapDestBad (dField (bytes64 [9]) 8 8) (taken 0 (bytes64 [9]) (wd [9])) = false ∧ dZero (bytes64 [9]) 16 48 = true ∧
    addrOk 0 (dField (bytes64 [9]) 8 8) snapSize true (taken 0 (bytes64 [9]) (wd [9])) = true ∧
    collCheck (ringPart 0 (taken 0 (bytes64 dColl) (wd dColl wcg))) (bytes64 dColl) (taken 0 (bytes64 dColl) (wd dColl wcg)) = none ∧
    ringPart 0 (taken 0 (bytes64 [0x20]) (wd [0x20])) = 0 ∧ dField (bytes64 [0x20]) 10 1 = 0 ∧ dZero (bytes64 [0x20]) 11 53 = true := by
  decide +kernel

theorem wit_DataCommands_ready : ∀ d ∈ [dDma, dTrim, dKern], CmdReady (d.headD 0) 0 (bytes64 d) (wd d) (wd d) := by
  intro d hd
  apply cmdReady_of
  have : ([dDma, dTrim, dKern].all fun d => cmdReadyB (d.headD 0) (bytes64 d) (wd d)) = true := by decide +kernel
  exact List.all_eq_true.mp this d hd

/-- An opcode that is not assigned. -/
theorem wit_SimpleCommands_refused : ringReady 0 (wd [0xFF]) = true ∧ dField (bytes64 [0xFF]) 1 1 % 2 = 0 ∧ opAssigned (dField (bytes64 [0xFF]) 0 1) = false ∧
    ringReady 0 wb = false ∧ dZero (bytes64 [0, 0, 0, 0, 0, 0, 0, 0, 1]) 8 56 = false := by decide +kernel

def rc0 : RCmd := ⟨0, bytes64 [4], .running, .poll 0 0 0 0 false, true, none, false, []⟩

/-- Ring 0 with that command, whose timeout has run out. -/
def wrt0 : State := wr fun x => { x with cmds := [rc0], timer := some (0, 1000000000, 1000) }

theorem wit_RingLifecycle : (getR 0 wrt0).cmds = rc0 :: [] ∧ getF Reg.BOOT_STAT_STATE wrt0 = 2 ∧ (getR 0 wrt0).blocked = false ∧
    rc0.st = .running ∧ (getC 0 wrt0).st ≠ .resetting ∧ timedOut (getR 0 wrt0) 0 = true ∧ (getR 0 wrt0).halted = false ∧
    timerDue .postRetry 0 900000 wrt0 = true ∧ timerDue .pollValue (cmdKey 0 0) 256 wrt0 = true ∧
    ({ wrt0 with frozen := true } : State).frozen = true := by decide +kernel

/-- Writes of CMD_RING_CFG0 that pass the checks of R259 and that fail them, and of an enabled ring that is IDLE or runs. -/
theorem wit_RingLifecycle_enable :
    ringOk (cfg0Put (6 * 2 ^ 40) { cqLog2 := 6, cqAddr := 4096 })
      { wb with rings := [(0, { cqLog2 := 6, cqAddr := 4096 })] } = true ∧
    ringOk (cfg0Put 0 {}) wb = false ∧ cfg0Put (6 * 2 ^ 40) (getR 0 wr) = getR 0 wr ∧
    cfg0Put 0 (getR 0 wr) ≠ getR 0 wr ∧ ringState 0 (wr fun x => { x with producer := 0 }) = .idle ∧ ringState 0 wrt0 ≠ .idle ∧
    ringState 0 wrt0 ≠ .halted := by decide +kernel

theorem wit_CompletionLayout : (3 : Nat) < 4 := by decide

/-- A kernel of ring 0 that waits for one tile, with tile 0 free, and with none free. -/
def wkw : State := { wr with kernels := [(5, { wk with tiles := [], phase := .waiting })], tiles := [(0, { mode := .idle })], tb := 1000000 }

theorem wit_KernelsAndTileEnds : waitingKernel 0 wkw = some (5, { wk with tiles := [], phase := .waiting }) ∧
    pickTiles 5 { wk with tiles := [], phase := .waiting } wkw = some [0] ∧
    pickTiles 5 { wk with tiles := [], phase := .waiting } { wkw with tiles := [] } = none ∧ wk.waitAt + 1000000 ≤ wkw.tb ∧
    { wkw with tb := 999999 }.tb < wk.waitAt + 1000000 := by decide +kernel

def wbind (p : BPhase) : Binding :=
  { walker := 0, tile := 0, part := 0, seqAddr := 0, length := 16, layer := 0, head0 := 0, nheads := 1, parts := 1, vt := false, cached := false,
    sift := false, selOut := false, gated := false, depth := 2, ringBase := 0, page0 := 0, pageEnd := 1, stride := 1, siftK := 1, sink := 0,
    recent := 0, selAddr := 0, phase := p, desc := some ⟨0, 0, 0, 1, 1, 1, 64, .bf16, false, false, false⟩, plan := [0] }

/-- The module with that binding, and tile 0 with zeros or with `sp` in its scratchpad. -/
def wkv (b : Binding) (sp : SMap Byte := []) : State := { wb with bindings := [(bindKey 0 0 0, b)], tiles := [(0, { mode := .running, sp := sp })] }

/-- Bindings in the phases named; GO at zero and not; a slot that is consumed and one that is not; a delivery. -/
theorem wit_Walkers : (activeOf 0 (wkv (wbind .waiting))).length < 16 ∧
    ((wkv (wbind .waiting)).bindings.find? fun e => e.2.walker = 0 && e.2.phase = BPhase.waiting && !ringsPending e.1 (wkv (wbind .waiting))) =
      some (bindKey 0 0 0, wbind .waiting) ∧
    getB' (bindKey 0 0 0) (wkv (wbind .ready)) = some (wbind .ready) ∧ walkTurn 0 (wkv (wbind .ready)) = some (bindKey 0 0 0) ∧
    (∃ l u, spRead 0 8 8 (wkv (wbind .ready)) = (.ok l, u) ∧ slotFree (wbind .ready) (leNat l) = true) ∧
    (∃ l u, spRead 0 8 8 (wkv { wbind .ready with n := 2 }) = (.ok l, u) ∧ slotFree { wbind .ready with n := 2 } (leNat l) = false) ∧
    (∃ l u, spRead 0 16 8 (wkv { wbind .gate with gated := true }) = (.ok l, u) ∧ leNat l = 0) ∧
    (∃ l u, spRead 0 16 8 (wkv { wbind .gate with gated := true } [(16, 1)]) = (.ok l, u) ∧ leNat l ≠ 0) ∧
    (wbind .scored).selOut = false ∧ (∃ l u, spRead 0 64 128 (wkv (wbind .scored)) = (.ok l, u)) := by
  refine ⟨by decide +kernel, by decide +kernel, by decide +kernel, by decide +kernel, ⟨_, _, rfl, by decide +kernel⟩, ⟨_, _, rfl, by decide +kernel⟩,
    ⟨_, _, rfl, by decide +kernel⟩, ⟨_, _, rfl, by decide +kernel⟩, by decide +kernel, ⟨_, _, rfl⟩⟩

/-- A write of a whole scratchpad line passes. -/
theorem wit_Walkers_deliver : (spWrite 0 128 (List.replicate 64 0) (wkv (wbind .ready))).1 = none ∧
    (spWrite 0 0 (leBytes 8 1) (wkv (wbind .ready))).1 = none := by decide +kernel

/-! ### Hosts -/

/-- Queue pair 2 of partition 0 on port 0, whose half a is up, with R_Key 0. -/
def wq (f : Qp → Qp := id) (s : State := wb) : State :=
  setB (ethF 0 Reg.ETH_STAT_UP_A) true { s with qps := [(2, f { conn := true })] }

/-- Frames that the port takes: without a tag, and with one. -/
theorem wit_RdmaMemory : qpLive 2 wq = true ∧ frameOk ⟨9216, 1⟩ 2 wq = true ∧ frameOk ⟨64, 0⟩ 2 wq = true ∧ wq.frozen = false ∧ rkeyOk 2 0 0 wq = true ∧ rkeyOk 2 0 1 wq = false ∧ isReg 0 = false ∧
    hostMem 0 0 8 true wq = true ∧ (homeWrite 0 (List.replicate 8 1) 0 wq).1 = .ok ∧ qpLive 2 (homeWrite 0 (List.replicate 8 1) 0 wq).2 = true ∧
    hostMem 0 0 8 false wq = true ∧ (homeRead 0 8 0 wq).1 = .ok ∧ winOk 0 0 8 true true wq = true ∧
    (hbmAtomic 0 4 true false 0 0 0 wq).1.isSome = true ∧ (hbmAtomic 0 1 true false 0 0 0 wq).1.isSome = true := by decide +kernel

theorem wit_RegisterAccess : isReg regWin = true ∧ qpLive 2 wq = true ∧ wq.frozen = false ∧ frameOk ⟨64, 0⟩ 2 wq = true ∧ rkeyOk 2 regWin 0 wq = true ∧ regWin % 8 = 0 ∧ regSpaceBacked (regWin - regWin) = true ∧
    (getQ 2 (wq fun x => { x with part := 1 })).part ≠ 0 ∧ rkeyOk 2 regWin 0 (wq fun x => { x with part := 1 }) = true ∧
    hubOn wb = true ∧ hubOn State.reset = false ∧ regSpaceBacked 0x4000 = false ∧ regFrozen 0x2E000 = true ∧ regSpaceBacked 0x2E000 = true ∧
    wGet Reg.MEM_GLN_CTL_PERIOD (168 * 2 ^ Reg.MEM_GLN_CTL_PERIOD.lo) = 168 ∧
    wGet Reg.MEM_GLN_CTL_PERIOD (169 * 2 ^ Reg.MEM_GLN_CTL_PERIOD.lo) = 169 ∧
    wGet Reg.MEM_GLN_CTL_PAGE_THRESH (169 * 2 ^ Reg.MEM_GLN_CTL_PERIOD.lo) = 0 := by decide +kernel

def wqe0 (rnr : Nat) : Wqe := ⟨0, none, [], 0, rnr⟩

theorem wit_QueuePairs : halfUp 0 wq = true ∧ qpInUse (getQ 3 wq) = false ∧ partOfKey 1 wq = none ∧ (partOfKey 0xFFFF (setF (partF 0 Reg.PART_CFG_PKEY) 0xFFFF wq)).isSome = true ∧
    (wq.qps.filter fun e => qpInUse e.2).length < 65536 ∧ (getQ 2 (wq fun x => { x with unacked := [wqe0 0] })).retries < 7 ∧
    (getQ 2 (wq fun x => { x with unacked := [wqe0 0], retries := 7 })).retryMax ≤ 7 ∧
    (getQ 2 (wq fun x => { x with unacked := [wqe0 6], rnrWait := true })).unacked = wqe0 6 :: [] ∧ (wqe0 6).rnr < 7 ∧ 7 ≤ (wqe0 7).rnr := by
  decide +kernel

theorem wit_CongestionAndPorts : ecnOn 2 (setB (ethF 0 Reg.ETH_CFG_ECN_EN) true wq) = true ∧
    qpLive 2 (setB (ethF 0 Reg.ETH_CFG_ECN_EN) true wq) = true ∧
    (getQ 2 (wq fun x => { x with cnpTx := some 0, cnpRx := some 0 })).cnpTx = some 0 ∧ wq.tb < 0 + 50000 ∧
    (getQ 2 wq).cnpTx = none ∧ (getQ 2 wq).rateAt + 55000 ≤ { wq with tb := 55000 }.tb ∧ ethMay wb = true ∧ ethPresent 3 wb = true ∧
    (getEth 3 { wb with ports := [(3, { plugged := true, managed := true })] }).plugged = true ∧
    getB (ethF 3 Reg.ETH_STAT_CMIS_FAULT) wb = false ∧ getB (ethF 3 Reg.ETH_CFG_SPLIT) wb = false ∧
    (1 : B64).getLsbD 0 ≠ getB (ethF 3 Reg.ETH_CFG_SPLIT) wb := by decide +kernel

/-- Port 0 with PTP in use, and a clock that waits for the answer to its Delay_Req. -/
def wp (p : Ptp := {}) : State := setB (ethF 0 Reg.ETH_PTP_CFG_EN) true { wq with ptp := p, tb := 100 }

theorem wit_PtpMessages : ptpTaken 0 0 wp = true ∧ ptpTaken 1 0 wp = false ∧ (wp { wantFollow := true }).ptp.wantFollow = true ∧
    (wp { t1 := some 0, t2 := some 5, t3 := some 10, annAt := some 0 }).ptp.annAt.isSome = true ∧
    getF Reg.SYS_TIME_STAT_EVER_LOCKED wp ≠ 1 ∧ getF Reg.SYS_TIME_STAT_EVER_LOCKED (setF Reg.SYS_TIME_STAT_EVER_LOCKED 1 wp) = 1 ∧
    0 + 3 * (wp { annAt := some 0, annIv := 33 }).ptp.annIv ≤ (wp { annAt := some 0, annIv := 33 }).tb ∧
    (wp { annAt := some 0, annIv := 34 }).tb < 0 + 3 * (wp { annAt := some 0, annIv := 34 }).ptp.annIv := by decide +kernel

end Sys2Proof.Tests
end

