-- ==== Sys2Proof/Tests/WitnessFabric.lean ====
section
/-! SUPPORT. Tests/WitnessFabric.lean: for the statements about partitions, memory, links, the router and collectives, states
and operands that meet their hypotheses. -/

namespace Sys2Proof.Tests

set_option Elab.async false
open Sys2Proof Sys2Proof.Machine

theorem wit_PartitionsAndContexts : partOn 1 wb = false ∧ partOn 1 (setB (partF 1 Reg.PART_CFG_ENABLE) true wb) = true ∧
    tilesClash 1 (setKeys 1 5 0 wb) = false ∧ pkeyClash 1 5 (setKeys 1 5 0 wb) = false ∧ pkeyClash 1 0 (setKeys 1 0 0 wb) = true ∧
    (getC 1 wb).st = .free ∧ (getC 0 wb).st ≠ .free ∧ ctxRings 0 wb = [] ∧ ctxRings 0 wr ≠ [] := by decide +kernel

/-- A register that a clear of stack 0 covers, and one that it does not. -/
theorem wit_CounterClears : (0x71000 + 0x08) * 64 ≤ 0x71040 * 64 ∧ 0x71040 * 64 < (0x71000 + 0x40 + 8) * 64 ∧
    (0x71000 + 0x40 + 8) * 64 ≤ 0x71048 * 64 := by decide

def wfill (inst : Bool) : RrcFill := ⟨0, 0, 0, inst, []⟩
def wfs (inst : Bool) : State := { wb with fills0 := [wfill inst], reqs := [(0, rq (.fill 0 0) .read (.done .ok []))] }

theorem wit_CachesAndGleaner_fills : (fillsOf 0 (wfs true)).find? (·.id = 0) = some (wfill true) ∧ (wfill true).waiters = [] ∧
    lookO (wfs true).reqs 0 = some (rq (.fill 0 0) .read (.done .ok [])) ∧ (fillsOf 0 (wfs false)).find? (·.id = 0) = some (wfill false) := by
  decide +kernel

/-- A queued request of a command for the first bytes of memory: granule 0 written or not. -/
def wh (k : RKind) (w : SMap Bool := [(0, true)]) : State := { wb with reqs := [(0, rq (.command 0 0 0 0) k .queued)], written := w }

theorem wit_HbmAccesses : mayPerform 0 (rq (.command 0 0 0 0) .read .queued) (wh .read) = true ∧ gOff 0 < hbmEnd ∧ destOk 0 8 (wh .read) = true ∧
    granuleWritten 0 (wh .read) = true ∧ smLook 0 (wh .read).blkErr (0 / 512) = 0 ∧ granuleWritten 0 (wh .read []) = false ∧
    destOk 0 (List.replicate 512 (1 : Byte)).length (wh (.write (List.replicate 512 1))) = true ∧
    mayPerform 0 (rq (.command 0 0 0 0) (.write [1]) .queued) (wh (.write [1]) []) = true ∧
    destOk 0 8 (setB Reg.PWR_RAILS_ON false (wh .read)) = false ∧
    mayPerform 0 (rq (.command 0 0 0 0) .read .queued) (setB Reg.PWR_RAILS_ON false (wh .read)) = true := by decide +kernel

/-- Stack 0 with one region of 1 GiB at level 2, its first block written and its position there or at its last block. -/
def wgl (w : SMap Bool := [(0, true)]) (p : SMap Nat := []) : State :=
  setF Reg.MEM_STATUS_STACKS_PRESENT 1 <| setF (fldNth Reg.MEM_REGION_VALID 0) 1 <| setF (fldNth Reg.MEM_REGION_LEVEL 0) 2 <|
  setF (fldNth Reg.MEM_REGION_RAW_GIB 0) 1 <| { wb with written := w, glnPos := p }

theorem wit_CachesAndGleaner : (stacksPresent wgl).testBit 0 = true ∧ (stacksPresent wgl).testBit 1 = false ∧
    gleanOffset 0 (smLook 0 wgl.glnPos 0) wgl = some 0 ∧ smLook 0 wgl.glnPos 0 + 1 < gleanPlaces ∧
    granuleWritten 0 wgl = true ∧ granuleWritten 0 (wgl []) = false ∧ smLook 0 (blockDecay 0 0 wgl).blkErr 0 = 0 ∧
    smLook 0 (blockDecay 0 1 wgl).blkErr 0 = 1 ∧ 1 ≤ codeT 0 (blockDecay 0 1 wgl) ∧
    gleanPlaces ≤ smLook 0 (wgl [] [(0, gleanPlaces - 1)]).glnPos 0 + 1 ∧ gleanOffset 0 (gleanPlaces - 1) wgl = none := by
  decide +kernel

theorem wit_HbmFormKept : HbmWf { State.reset with pending := [.powerOn] } := by decide +kernel

theorem wit_TileWordRoundTrip : (wG .alu 63 63 63 63 255).wf = true ∧ tileWordFault (tileEncode (wG .alu 31 31 31 0 12)) = none := by decide +kernel

/-! ### Links -/

/-- Link 0 in state `st`, changed by `f`. -/
def wl (st : LSt) (f : Link → Link := id) : State := { wb with links := [(0, f { st := st })] }

theorem wit_TrainingStart : (∀ st ∈ ([.powerUp, .clockDetect, .eqCoarse, .restore, .blockLock, .eqFine, .identify, .retrain, .failed, .test, .legacyIdle] : List LSt),
      linkPresent 0 (wl st) = true ∧ (wl st).frozen = false ∧ (getL 0 (wl st)).st = st) ∧
    getLF 0 Reg.LNK_CFG_ENABLE (setLF 0 Reg.LNK_CFG_ENABLE 0 wb) ≠ 1 ∧ (getL 0 (wl .clockDetect)).want = 0 ∧
    timerDue .linkRate 0 100000000 (wl .clockDetect) = true ∧ timerDue .linkState 0 1000000000 (wl .clockDetect) = true ∧
    timerDue .linkState 0 1000000000 (timerSet .linkState 0 (wl .clockDetect)) = false := by decide +kernel

theorem wit_TrainingStages : ([1] ++ (List.range 24).drop 1) ≠ List.range 24 ∧ ([1] ++ (List.range 24).drop 1) ≠ (List.range 24).reverse ∧
    (List.replicate 24 (List.replicate 64 (1 : BitVec 2))).all lockGained = true ∧
    (∃ e ∈ [20001], 20000 < e) ∧ (1 : Nat) = Nat.xor 0 1 ∧ (getL 0 (notePartner 0 0 true 1 false 0 (wl .identify))).fast = false ∧
    (getL 0 (notePartner 0 0 true 1 false 0 (wl .identify fun x => { x with want := 1, fast := true }))).want = 1 ∧
    linkRecSerial 0 (notePartner 0 0 true 1 false 0 (wl .identify fun x => { x with fast := true })) = (0xFFFFFFFFFFFFFFFF : B64).toNat ∧
    stateBound .identify false = some 1000000 ∧ timerDue .linkState 0 1000000 (wl .identify) = true := by decide +kernel

theorem wit_Discovery : getF Reg.BOOT_STAT_STEP (setF Reg.BOOT_STAT_STEP 8 wb) = 8 ∧
    trainingOver (setLF 0 Reg.LNK_CFG_ENABLE 1 { wb with tb := 1000000000 }) = true ∧
    trainingOver (setLF 0 Reg.LNK_CFG_ENABLE 1 { wb with tb := 999999999 }) = false ∧
    getF Reg.BOOT_STAT_STEP (setF Reg.BOOT_STAT_STEP 9 wb) = 9 ∧ getF Reg.SYS_CHIP_CONFIRMED wb = 0 ∧
    wb.bootAt + discoveryWait wb ≤ { wb with tb := 2000000000 }.tb ∧ wb.mgmt.up = true ∧
    ctrlOf 0x10 { wb with hubIn := [{ packet0 with typ := 7, ctrl := 0x10 }] } = some { packet0 with typ := 7, ctrl := 0x10 } ∧
    ctrlOf 0x10 wb = none ∧ ctrlOf 0x11 { wb with hubIn := [{ packet0 with typ := 7, ctrl := 0x11, data := [0, 0, 0] }] } =
      some { packet0 with typ := 7, ctrl := 0x11, data := [0, 0, 0] } ∧ timerDue .probe 0 1000000 wb = true ∧
    timerDue .probe 0 1000000 (timerSet .probe 0 wb) = false ∧
    0 < (getL 0 (wl .active fun x => { x with probes := 2 })).probes ∧ 3 ≤ (getL 0 (wl .active fun x => { x with probes := 3 })).probes := by
  decide +kernel

theorem wit_LinkUpkeep : (getL 0 (wl .active)).st = .active ∧ linkPresent 0 (wl .active) = true ∧ getLF 0 Reg.LNK_STATE_FALLOW_RX (wl .active) = 0 ∧
    getLF 0 Reg.LNK_STATE_FALLOW_RX (setLF 0 Reg.LNK_STATE_FALLOW_RX 1 (wl .active)) = 1 ∧ lockLost (List.replicate 64 (0 : BitVec 2)) = true ∧
    (getL 0 (wl .active fun x => { x with locked := 1 })).locked.testBit 0 = true ∧ (1000000 : Nat) < 11 * 100000 ∧
    timerDue .degraded 0 1000000000 (wl .active) = true ∧
    getLF 0 Reg.LNK_STATE_CLOCK_LANES (setLF 0 Reg.LNK_STATE_CLOCK_LANES 3 (wl .active)) = 3 ∧ (3 : Nat).testBit 0 = true ∧ (3 : Nat) ≠ 2 ^ 0 ∧
    getLF 0 Reg.LNK_STATE_CLOCK_LANES (setLF 0 Reg.LNK_STATE_CLOCK_LANES 2 (wl .active)) = 2 ^ 1 ∧ knownControl 0 = false ∧
    crc16 ((leBytes 8 (0x8C + crc16 (leBytes 6 0x8C) * 2 ^ 48)).take 6) = leNat ((leBytes 8 (0x8C + crc16 (leBytes 6 0x8C) * 2 ^ 48)).drop 6) := by
  decide +kernel

theorem wit_TestsAndLegacy : getLF 0 Reg.LNK_CFG_ALLOW_FAR (setLF 0 Reg.LNK_CFG_ALLOW_FAR 1 (wl .active)) = 1 ∧
    getLF 0 Reg.LNK_CFG_ALLOW_FAR (wl .active) = 0 ∧ getLF 0 Reg.LNK_TEST_STAT_RUNNING (setLF 0 Reg.LNK_TEST_STAT_RUNNING 1 (wl .test)) = 1 ∧
    getLF 0 Reg.LNK_STATE_LX7 (setLF 0 Reg.LNK_STATE_LX7 1 (wl .active fun x => { x with legacyReq := true, idle := 65535 })) = 1 ∧
    idleLong 0 (setLF 0 Reg.LNK_STATE_LX7 1 (wl .active fun x => { x with idle := 65535 })) = true ∧ idleLong 0 (wl .active) = false ∧
    timerDue .legacyAsk 0 10000 (wl .active) = true ∧ (getL 0 (wl .legacyIdle)).st = .legacyIdle := by decide +kernel

theorem wit_Fallow : getLF 0 Reg.LNK_CFG_FALLOW_EN (setLF 0 Reg.LNK_CFG_FALLOW_EN 1 (wl .active)) = 1 ∧ getLF 0 Reg.LNK_STATE_LX7 (wl .active) = 0 ∧
    getLF 0 Reg.LNK_STATE_FALLOW_TX (wl .active) = 0 ∧ (getL 0 (wl .active)).awake = false ∧ (getL 0 (wl .active)).wakeIn = 0 ∧
    idleLong 0 (wl .active fun x => { x with idle := 65535 }) = true ∧ idleLong 0 (wl .active fun x => { x with idle := 65535, nakDue := true }) = false ∧
    wakeForData 0 (setLF 0 Reg.LNK_STATE_FALLOW_TX 1 (wl .active fun x => { x with resend := some 0 })) = true ∧
    wakeForData 0 (setLF 0 Reg.LNK_STATE_FALLOW_TX 1 (wl .active fun x => { x with nakDue := true })) = false ∧
    (getL 0 (wl .active)).sleepAt + 100000000 ≤ { wl .active with tb := 100000000 }.tb ∧
    { wl .active with tb := 99999999 }.tb < (getL 0 (wl .active)).sleepAt + 100000000 ∧ timerDue .wakeRows 0 1000 (wl .active) = true ∧
    (wl .active).mgmt.dark.testBit 0 = false := by decide +kernel

def grp0 (null rel : Bool) (seq : Nat) : Group := ⟨null, seq, 0, (0, 0), (0, 0), false, false, rel, [], []⟩

theorem wit_LinkGroups : (getL 0 (wl .active fun x => { x with kept := [grp0 false true 0], resend := some 0 })).kept[0]? = some (grp0 false true 0) ∧
    256 ≤ (getL 0 (wl .active fun x => { x with kept := List.replicate 256 (grp0 false true 0) })).kept.length ∧
    seqDiff 0 0 = 0 ∧ (getL 0 (takeControl 0 (grp0 false true 0) (wl .active fun x => { x with peerReleased := true, released := true }))).peerReleased = true ∧
    0 < seqDiff 1 0 ∧ seqDiff 1 0 < 32768 ∧ 32768 ≤ seqDiff 0 1 ∧ (getL 0 (wl .active fun x => { x with missing := true })).missing = true ∧
    4 ≤ (getL 0 (wl .active fun x => { x with resends := 3 })).resends + 1 ∧ (getL 0 (wl .active)).brief = false ∧ (getL 0 (wl .active)).resume = false ∧
    timerDue .nakRepeat 0 2000 (wl .active) = true ∧
    replayDue (getL 0 (wl .active fun x => { x with kept := [grp0 false true 0], sentAt := [0] })) { wl .active with tb := 10000 } = true := by
  decide +kernel

/-! A group of zeros whose first and last four bytes are 0xFF, as its lanes arrive: its CRC is right. -/

def wd0 : List Byte := List.replicate 4 0xFF ++ List.replicate 124 0
def wd23 : List Byte := List.replicate 124 0 ++ List.replicate 4 0xFF
def wlanes : List (List LBlock) := (laneCode 0 wd0).1 :: List.replicate 22 (laneCode 0 (List.replicate 128 0)).1 ++ [(laneCode 0 wd23).1]

theorem lane_first : laneDecode 0 (laneCode 0 wd0).1 = (some 0, wd0, (laneCode 0 wd0).2) := by decide +kernel
theorem lane_mid : laneDecode 0 (laneCode 0 (List.replicate 128 0)).1 = (some 0, List.replicate 128 0, 0) := by decide +kernel
theorem lane_last : laneDecode 0 (laneCode 0 wd23).1 = (some 0, wd23, (laneCode 0 wd23).2) := by decide +kernel

theorem wlanes_decode : (List.range 24).map (fun i => laneDecode (smLook 0 [] i) (wlanes.getD i [])) =
    (some 0, wd0, (laneCode 0 wd0).2) :: List.replicate 22 (some 0, List.replicate 128 0, 0) ++ [(some 0, wd23, (laneCode 0 wd23).2)] := by
  rw [← lane_first, ← lane_mid, ← lane_last]; rfl

theorem wlanes_bytes : (groupDecode wlanes false []).bytes = List.replicate 4 0xFF ++ List.replicate 3064 0 ++ List.replicate 4 0xFF := by
  unfold groupDecode
  simp only [wlanes_decode, Bool.false_eq_true, if_false]
  decide +kernel

theorem crc_zeros (n : Nat) : (List.replicate n (0 : Byte)).foldl (fun (c : Nat) (b : Byte) => (List.range 8).foldl (fun c _ =>
    if c % 2 = 1 then (c / 2).xor 0x82F63B78 else c / 2) (c.xor b.toNat)) 0 = 0 := by
  induction n with
  | zero => rfl
  | succ n ih => rw [List.replicate_succ, List.foldl_cons]; exact ih

theorem crc_wlanes (n : Nat) : crc32c (List.replicate 4 0xFF ++ List.replicate n 0) = 0xFFFFFFFF := by
  unfold crc32c
  rw [List.foldl_append, show List.foldl _ 0xFFFFFFFF (List.replicate 4 (0xFF : Byte)) = 0 from by decide +kernel, crc_zeros]; rfl

theorem wlanes_crc : (groupDecode wlanes false []).crcBad = false := by
  unfold RxWord.crcBad
  rw [wlanes_bytes, List.take_left' (by rw [List.length_append, List.length_replicate, List.length_replicate]),
    List.drop_left' (by rw [List.length_append, List.length_replicate, List.length_replicate]), crc_wlanes]
  decide +kernel

/-- Groups that arrive: no blocks at all, and that group. -/
theorem wit_LinkGroups_received : (groupDecode [] false []).bad = true ∧ (groupDecode wlanes false []).bad = false := by
  refine ⟨by decide +kernel, ?_⟩
  have u : (groupDecode wlanes false []).uncorr = 0 := by
    unfold RxWord.uncorr groupDecode
    simp only [wlanes_decode]; rfl
  unfold RxWord.bad; rw [u, wlanes_crc]; rfl

/-- A packet that waits for a link whose partner has room, so that a slot sends it. -/
theorem wit_LinkGroups_data : (fillGroup 0 200 3056 { wl .active fun x => { x with peerReleased := true, released := true } with
    outQ := [(0, [⟨0, { packet0 with typ := 4, vc := 1, dst := 5 }, 0, 0, 0⟩])] }).1.2 ≠ [] := by decide +kernel

/-! ### The router -/

def pk (typ vc dst : Nat) : Packet := { packet0 with typ := typ, vc := vc, dst := dst, rlen := if typ = 1 then 8 else 0 }
def wrt (l : List Packet) : State := { wb with rtIn := [(0, l)] }
def qp0 (vc : Nat) : QPkt := ⟨0, pk 4 vc 5, 0, 0, 65535⟩

theorem wit_Routing : smLook [] (wrt [pk 4 1 5]).rtIn 0 = pk 4 1 5 :: [] ∧ smLook [] wb.rtIn 0 = [] ∧ malformed (pk 0 0 0) = true ∧
    malformed (pk 4 1 5) = false ∧ (pk 4 1 0).dst = ownChip wb ∧ (pk 4 1 5).dst ≠ ownChip wb ∧ routePort (routeCode (pk 4 1 5) wb) wb = none ∧
    routePort (routeCode (pk 4 1 5) { wb with routes := [(5, 0)] }) { wb with routes := [(5, 0)] } = some 0 ∧
    malformed { pk 6 2 0 with mcast := true } = false ∧ (smLook 0 wb.mcast 0).testBit 7 = false ∧
    (smLook [] { wb with outQ := [(0, [qp0 1])] }.outQ 0).find? (fun q => q.p.vc < 5 && getF Reg.FAB_CFG_HL_WAIT_NS wb ≤ q.wait) = some (qp0 1) ∧
    routePort (routeEntry 0 5 { wb with routes := [(5, 0)] } / 8 % 8) { wb with routes := [(5, 0)] } = some 0 ∧
    lnkActive 0 wb = false ∧ lnkActive 0 (wl .active) = true ∧
    getF Reg.FAB_CFG_DOWN_HOLD_MS wb * 1000000 ≤ downFor 0 { wb with tb := 2 ^ 40 } ∧
    downFor 0 wb < getF Reg.FAB_CFG_DOWN_HOLD_MS wb * 1000000 := by decide +kernel

theorem wit_TablesAndQuotas :
    (let r := rq (.command 0 0 0 0) .read .queued; (r.fence && fenceHeld 0 r { wb with reqs := [(0, r)], fenced := [0] } ||
      orderHeld r { wb with reqs := [(0, r)], fenced := [0] }) = false) ∧
    (let r : Req := { rq (.command 0 0 0 0) .read .queued with fence := true }
     let e : Req := rq (.command 0 0 0 0) .read .sent
     (r.fence && fenceHeld 1 r { wb with reqs := [(0, e), (1, r)], fenced := [1] } ||
      orderHeld r { wb with reqs := [(0, e), (1, r)], fenced := [1] }) = true) ∧
    getF Reg.FAB_RT_SEL_VERSION wb = getF Reg.FAB_EPOCH_CURRENT wb ∧
    getF Reg.FAB_RT_SEL_VERSION (setF Reg.FAB_RT_SEL_VERSION 1 wb) ≠ getF Reg.FAB_EPOCH_CURRENT (setF Reg.FAB_RT_SEL_VERSION 1 wb) ∧
    getB Reg.FAB_RT_SEL_MCAST wb = false ∧ getB Reg.FAB_RT_SEL_MCAST (setB Reg.FAB_RT_SEL_MCAST true wb) = true ∧ getB Reg.FAB_EPOCH_CURRENT wb = false ∧
    ((List.range 8).map fun p => (96 : B64).toNat / 2 ^ (8 * p) % 128).sum ≤ 96 ∧ 96 < ((List.range 8).map fun p => (97 : B64).toNat / 2 ^ (8 * p) % 128).sum ∧
    ((List.range 4).map fun p => (4097 : B64).toNat / 2 ^ (16 * p) % 8192).sum = 4097 := by decide +kernel

/-! ### Collectives -/

/-- A collective of two members, this module the first. -/
def wcoll (op : Nat) (st : CollSt) : Coll := {
  ring := 0, idx := 0, tag := 0, ctx := 0, part := 0, group := 0, seq := 1, op := op, ctl := 0
  dtype := 0, src := 0, dst := 4096, count := 8, rowBytes := 16, cap := 8, mta := 0, mine := [], members := [0, 1], pos := 0, hash := 0
  window := 100, st := st }
def wcs (c : Coll) (h : List Packet := []) : State := { wcg with
  colls := [(0, c)], hubIn := h, rings := [(0, { log2 := 6, enable := true, cmds := [⟨0, bytes64 [0x10], .running, .elsewhere, false, none, false, []⟩] })] }
def cpk (typ ph : Nat) (data : List Byte) : Packet := { packet0 with typ := typ, src := 1, tag := 1, addr := ph * 2 ^ 36, data := data, len := data.length }

theorem wit_GroupsAndAdmission : wb.groupDefs = [] ∧ (groupRead 0 1 wb).1.toOption = none ∧ groupBusyC 0 (wcs (wcoll 0 .running)) = true ∧
    groupBusyC 0 wb = false ∧
    collHead 0 (wcs (wcoll 0 .waiting)) = some (0, wcoll 0 .waiting) ∧
    collTurn (wcoll 0 .waiting) (wcs (wcoll 0 .waiting)) = true ∧
    getF (fldNth Reg.COL_LAST_SEQ 0) (wcs (wcoll 0 .waiting)) < (wcoll 0 .waiting).seq ∧
    (wcoll 0 .waiting).seq ≤ getF (fldNth Reg.COL_LAST_SEQ 0) (setF (fldNth Reg.COL_LAST_SEQ 0) 1 (wcs (wcoll 0 .waiting))) ∧
    (let m := collMode 0 8 2 4 (getF (quotaF 0) (wcs (wcoll 0 .waiting)) * 2 ^ 20)
     gristUsed 0 (wcs (wcoll 0 .waiting)) + m.2 ≤ getF (quotaF 0) (wcs (wcoll 0 .waiting)) * 2 ^ 20 ∧ m.2 ≠ 0 ∧ m.1 = 0) ∧
    collTurn (wcoll 0 .waiting) { wcs (wcoll 0 .waiting) with rings := [(0, { cmds := [⟨7, [], .running, .nothing, true, none, false, []⟩] })] } = false ∧
    (collRead 0 32 (wcs (wcoll 0 .waiting))).1.toOption.isSome = true := by decide +kernel

/-- A record of group 0 with one member, this module, in memory at 0 (R383). -/
def wgd : State :=
  let h := bytes64 [1]
  { setF Reg.FAB_TOPO_SX 1 (setF Reg.FAB_TOPO_SY 1 (setF Reg.FAB_TOPO_SZ 1 wb)) with
    hbm := smPutList 0 [] 0 (h.take 12 ++ leBytes 4 (crc32 (h.take 12 ++ [0, 0])) ++ h.drop 16 ++ [0, 0]), written := [(0, true)] }

theorem wit_GroupsAndAdmission_define : (groupRead 0 0 wgd).1.toOption = some ⟨[0], 0, 0, crc32 ((bytes64 [1]).take 12 ++ [0, 0])⟩ := by decide +kernel

/-- Packets that a running collective's first member gets from the other. -/
theorem wit_ReductionPackets : (∀ ph ∈ [0, 1], collPkt 5 ph (wcs (wcoll 0 .running) [cpk 5 ph [0, 0, 0, 0]]) = some (cpk 5 ph [0, 0, 0, 0])) ∧
    collFor (cpk 5 0 []) (hubTook (cpk 5 0 []) (wcs (wcoll 0 .running) [cpk 5 0 []])) = some (0, wcoll 0 .running) ∧
    collFor { cpk 5 0 [] with group := 1 } (hubTook { cpk 5 0 [] with group := 1 } (wcs (wcoll 0 .running) [{ cpk 5 0 [] with group := 1 }])) = none ∧
    (wcoll 0 .running).members.contains (cpk 5 0 []).src = true ∧ isReduce 0 = true ∧ (wcoll 0 .running).members.idxOf 1 = (wcoll 0 .running).back 1 ∧
    collPkt 6 0 (wcs { wcoll 5 .running with members := [1, 0], pos := 1 } [cpk 6 0 []]) = some (cpk 6 0 []) ∧ [1, 0].idxOf 1 = 0 := by
  decide +kernel

theorem wit_AllToAllPackets : (∀ ph ∈ [2, 3, 4, 5], collPkt 5 ph (wcs (wcoll 4 .running) [cpk 5 ph []]) = some (cpk 5 ph []) ∧
      collFor (cpk 5 ph []) (hubTook (cpk 5 ph []) (wcs (wcoll 4 .running) [cpk 5 ph []])) = some (0, wcoll 4 .running)) ∧
    0 + ([] : List Byte).length ≤ writeLen 4 8 2 0 4 16 8 ∧
    dField (List.replicate 16 (0xFF : Byte)) 8 8 = 2 ^ 64 - 1 := by decide +kernel

/-- A readiness with the right HASH and fingerprint, whatever the fingerprint, and one without. -/
theorem wit_AllToAllPackets_ready : (∀ v, v < 2 ^ 64 → dField (leBytes 8 0 ++ leBytes 8 v) 8 8 = v) ∧
    2 ^ 64 - 1 ≠ (wcoll 0 .running).hash + collPrint (wcoll 0 .running) * 2 ^ 32 := by
  refine ⟨fun v h => ?_, by have : (wcoll 0 .running).hash = 0 := rfl; omega⟩
  simp [dField, sliceB, leBytes]
  simp [leNat]
  omega

theorem wit_CollectiveRevocation : collOf 0 1 (wcs (wcoll 0 .running)) = some (0, wcoll 0 .running) ∧
    collOf 0 1 (wcs (wcoll 0 (.resulted 0))) = some (0, wcoll 0 (.resulted 0)) ∧ (wcoll 0 (.resulted 0)).sends = [] ∧
    0 + (wcoll 0 (.resulted 0)).window ≤ { wcs (wcoll 0 (.resulted 0)) with tb := 100 }.tb ∧ (wcs (wcoll 0 (.resulted 0))).tb < 0 + 100 ∧
    collOf 0 1 (wcs (wcoll 0 (.revoked 0))) = some (0, wcoll 0 (.revoked 0)) ∧
    (let p : Packet := { packet0 with typ := 7, ctrl := 2, group := 0 }; ctrlOf 2 (wcs (wcoll 0 .running) [p]) = some p ∧
      (lookO (ctrlTake p (wcs (wcoll 0 .running) [p])).groups 0).map (·.members.headD 0) = some (ownChip (wcs (wcoll 0 .running) [p]))) ∧
    (let p : Packet := { packet0 with typ := 7, ctrl := 1, group := 0, data := [1, 0, 0, 0, 0, 0, 0, 0, 0, 0] }
     ctrlOf 1 (wcs (wcoll 0 .running) [p]) = some p ∧ collOf p.group (dField p.data 0 8) (wcs (wcoll 0 .running) [p]) = some (0, wcoll 0 .running) ∧
      collOf p.group (dField p.data 0 8) wb = none ∧ lookO wb.groups p.group = none) := by decide +kernel

end Sys2Proof.Tests
end

