-- ==== Sys2Proof/Tests/WitnessModule.lean ====
section
/-! SUPPORT. Tests/WitnessModule.lean: for the statements about power, heat, coolant, resets, records and management, states
and operands that meet their hypotheses. -/

namespace Sys2Proof.Tests

set_option Elab.async false
open Sys2Proof Sys2Proof.Machine

theorem wit_PowerCaps : wb.frozen = false ∧ 900 ≤ tdp wb ∧ ({ wb with pwr := { hostWin := true } }).pwr.hostWin = true ∧ hostCap wb = none ∧
    hostCap wb ≠ some 1000 ∧ (capHeld .host wb).1 = false ∧ capHeld .host { wb with pwr := { hostWin := true } } = (true, []) ∧
    capHeld .rack { wb with pwr := { rackWin := true, rackHeld := [some 1000] } } = (true, [some 1000]) ∧
    capVal .rack { wb with pwr := { rackWin := true, rackHeld := [some 1000] } } ≠ some 1000 ∧ wb.mgmt.up = true ∧ State.reset.mgmt.up = false ∧
    wb.powered = true ∧ wb.pwr.hubDown = false ∧ (900 : B16).toNat = 900 ∧
    { wb with pwr := { refreshDue := true, orphanDue := true } }.pwr.refreshDue = true ∧ rackCap { wb with pwr := { orphanDue := true } } = none ∧
    rackCap (setB Reg.PWR_CAP_RACK_ORPHAN true { wb with pwr := { orphanDue := false } }) = none ∧ capWindowOver .host wb = false ∧
    capWindowOver .host { wb with pwr := { hostWin := true } } = true ∧ capWindowOver .rack { wb with pwr := { rackWin := true } } = true ∧
    timerDue .refresh 0 3000000000 wb = true ∧ timerDue .orphan 0 10000000000 wb = true := by decide +kernel

theorem wit_PowerControl : railsOn wb = true ∧ wb.pwr.skip = false ∧ timerDue .estimate 0 4000 wb = true ∧ timerDue .gain 0 1000000 wb = true ∧
    timerDue .limiter 0 4000 wb = true ∧ timerDue .allocate 0 1000000 wb = true ∧ nextGain 1000000 0 0 = 1000000 := by decide +kernel

theorem wit_PowerControl_shares : (50 : Nat) < (([⟨1, 100, 1, 100⟩] : List Claim).map Claim.need).sum ∧
    (([⟨1, 100, 1, 100⟩] : List Claim).map Claim.need).sum ≤ 100 ∧
    (∀ c ∈ ([⟨1, 100, 1, 100⟩] : List Claim), c.need ≤ c.demand ∧ 0 < c.weight) := by decide +kernel

/-- A module whose sensor `n` reads `t` in eighths of a degree. -/
def wth (n t : Nat) : State := setF (thmF n Reg.THM_SENSOR_READING) t wb

/-- A die at rest, one that rises, one whose voltage is not there yet, and one that falls. -/
theorem wit_ClocksAndHeat : railsOn wb = true ∧ wb.mgmt.up = true ∧ dieHot 0 (wth 0 840) = true ∧ dieHot 0 wb = false ∧
    loopMayRise 0 { wb with clk0 := { rising := true, loop := 600 } } = true ∧ 840 ≤ effTemp 0 (wth 0 840) ∧
    840 ≤ effTemp 39 (wth 39 840) ∧ effTemp 0 wb < 840 ∧ getB Reg.THM_STAT_TRIPPED (wth 0 840) = false ∧
    droopOver 0 { wb with clk0 := { f := 600, waiting := true, stretchAt := some 0 }, tb := 50000 } = true ∧
    (clkOf 0 { wb with clk0 := { f := 600, want := 1000, moving := true, vmax := 700 } }).moving = true ∧
    600 < clkTarget 0 (setF Reg.PWR_AGEING_FMAX_D0 1250 { wb with clk0 := { f := 600, want := 1000, moving := true, vmax := 700 } }) ∧ 600 + 25 ≤ 700 ∧
    (clkOf 0 { wb with clk0 := { f := 600, want := 1000, moving := true, vmax := 600 } }).vmax < 600 + 25 ∧
    clkTarget 0 { wb with clk0 := { f := 1000, want := 600, moving := true, vmax := 1000 } } ≤ 1000 ∧
    timerDue .thermal 0 1000000 wb = true ∧ timerDue .ageing 0 82800000000000 wb = true ∧ timerDue .loopDown 0 100000 wb = true ∧
    timerDue .loopUp 0 1000000 wb = true ∧ timerDue .freq 0 1000 wb = true := by decide +kernel

theorem wit_BrakeAndRails : { wb with pins := { brake := true } }.pins.brake = true ∧ wb.pins.brake = false ∧ wb.pins.resetN = false ∧
    (List.replicate 25 (0 : Nat)).length = 25 ∧ tdp wb * 25 * 105 < estAverage { wb with pwr := { estHist := List.replicate 25 4000 } } * 100 ∧
    estAverage { wb with pwr := { estHist := List.replicate 25 0 } } ≤ tdp wb * 25 ∧
    tdp wb * 25 < estAverage { wb with pwr := { estHist := List.replicate 25 (tdp wb + 1) } } ∧
    estAverage { wb with pwr := { estHist := List.replicate 25 (tdp wb + 1) } } * 100 ≤ tdp wb * 25 * 105 ∧
    railsOn wb = true ∧ railsOn State.reset = false ∧ (∀ e ∈ wr.rings, e.2.enable = true ∨ e.2.cmds = []) := by decide +kernel

theorem wit_BrakeAndRails_open : SbOpen wb := by constructor <;> decide +kernel

theorem wit_CoolantAndLeaks : railsOn (showCoolant (modPins (fun p => { p with coolantOk := false }) wb)) = true ∧
    (showCoolant (modPins (fun p => { p with coolantOk := false }) wb)).pwr.lost = false ∧
    (showCoolant (modPins (fun p => { p with coolantOk := true }) { wb with pwr := { lost := true } })).pwr.lost = true ∧
    delayOver (some 0) wb = true ∧ wb.pwr.graceEnd = none ∧ wb.pins.coolantOk = false ∧ timerDue .rise 0 10000000 wb = true ∧
    railsOn { wb with pwr := { leakEnd := none, leakOff := true } } = true ∧ timerDue .crossCheck 0 10000000000 (wth 58 200) = true ∧
    crossOff (setF Reg.PWR_EST_INPUT_W 901 (wth 58 200)) = true ∧
    loopState 10000 = 0 ∧ loopState 0 ≠ 0 ∧ (∃ o ∈ [0, 1000, 100000], loopState o = 1) ∧ (∃ o ∈ [0, 1000, 100000], 2 ≤ loopState o) ∧
    getB Reg.CLN_STAT_INLET_LOW (setF (thmF 58 Reg.THM_SENSOR_READING) 200 wb) = false ∧
    getB Reg.CLN_STAT_INLET_HIGH (setF (thmF 58 Reg.THM_SENSOR_READING) 200 wb) = false ∧
    getB Reg.CLN_STAT_INLET_SEVERE (setF (thmF 58 Reg.THM_SENSOR_READING) 200 wb) = false ∧ (200 : Int) < (201 : B16).toInt ∧
    getB Reg.CLN_STAT_EXCESS_RISE wb = false ∧ (wth 58 200).pwr.cSensor = false := by decide +kernel

theorem wit_ModuleResets : wb.powered = true ∧ State.reset.powered = false ∧ wb.frozen = false ∧ 5 ≤ getF Reg.BOOT_STAT_STEP wb ∧
    getF Reg.BOOT_STAT_STATE wb ≠ 1 ∧ { wb with pins := { resetN := true } }.pins.resetN = true ∧ getB Reg.PWR_RAILS_RACK_OFF wb = false ∧
    getB Reg.PWR_RAILS_RACK_OFF (setB Reg.PWR_RAILS_RACK_OFF true wb) = true ∧ wb.pwr.cycle = false ∧
    (cycleRecord { logEv .powerCycleRequested none none 0 [] wb with pwr := { cycle := true } }).isSome = true ∧
    timerDue .cycleReport 0 30000000000 wb = true := by decide +kernel

def wctx (st : CtxSt) : State := { wb with ctxs := [(0, { st := st, autoMs := 1 })] }
def wjob : RJob := ⟨1, 0, [0], [.collective], false, false⟩

theorem wit_ContextResets : (getC 0 (wctx .free)).st = .free ∧ (getC 0 (wctx .resetting)).st = .resetting ∧ (getC 0 (wctx .active)).st = .active ∧
    (getC 0 (wctx .faulted)).st = .faulted ∧ (getC 0 (wctx .faulted)).autoMs ≠ 0 ∧ (getC 0 wb).autoMs = 0 ∧ railsOn (wctx .active) = true ∧ timerDue .autoReset 0 1000000 (wctx .faulted) = true ∧
    timerDue .ladder 0 (stepLimit 1) wb = true ∧ timerDue .step4 0 10000000000 wb = true ∧
    railsOn (setB Reg.PWR_RAILS_ON false wb) = false ∧ jobOf 0 wb = none ∧ jobOf 0 { wctx .resetting with jobs := [(0, wjob)] } = some (0, wjob) ∧
    wjob.wait.contains .collective = true ∧ mayReport .collective { wctx .resetting with jobs := [(0, wjob)] } = true ∧
    lookO { wctx .resetting with jobs := [(0, wjob)] }.jobs 0 = some wjob ∧
    getB Reg.RST_CFG_AUTO_ESCALATE (bump Reg.RST_STEP_TIMEOUTS 1 (setB Reg.RST_CFG_AUTO_ESCALATE true wb)) = true ∧
    getB Reg.RST_CFG_AUTO_ESCALATE (bump Reg.RST_STEP_TIMEOUTS 1 (setB Reg.RST_CFG_AUTO_ESCALATE false wb)) = false ∧
    getF Reg.BOOT_STAT_STATE (setF Reg.BOOT_STAT_STATE 4 { wb with step4 := true }) = 4 := by decide +kernel

def wlog : State := logEv .ringHalted (some 0) (some 0) 0 [] wb
def wop : CfgOp := ⟨2, [(0, [1])], .none⟩

theorem wit_RecordsAndSnapshots : (lookO wlog.log 0).isSome = true ∧ getF Reg.LOG_HEAD (setF Reg.LOG_SEL 0 wlog) ≤ 0 ∧
    0 < getF Reg.LOG_HEAD (setF Reg.LOG_HEAD 1 wlog) ∧ lookO wlog.log 1 = none ∧
    (271 : Nat) ≤ 271 ∧ 271 < (272 : Nat) ∧ snapDestBad (getF Reg.SYS_SNAP_DEST (setF Reg.SYS_SNAP_DEST 1 wb)) wb = true ∧
    snapDestBad (getF Reg.SYS_SNAP_DEST wb) wb = false ∧ wb.snapQ = [] ∧
    snapTime { wb with frozen := true, snapImage := List.replicate 16384 0, tb := 100 } + 100 ≤ 100 ∧
    { wb with tb := 99, frozen := true }.tb < snapTime { wb with frozen := true, snapImage := List.replicate 16384 0, tb := 99 } + 100 ∧
    { wb with snapQ := [⟨0, 0, none⟩] }.snapQ = ⟨0, 0, none⟩ :: [] ∧ wb.cfgQ = [] ∧ { wb with cfgQ := [wop] }.cfgQ = wop :: [] := by
  decide +kernel

def wm (f : Mgmt → Mgmt) : State := { wb with mgmt := f wb.mgmt }

theorem wit_ManagementCores : (wm fun m => { m with up := false }).mgmt.up = false ∧ wb.mgmt.up = true ∧ wb.mgmt.missBox = false ∧
    wb.mgmt.missWire = false ∧ wb.pwr.cycle = false ∧
    (wm fun m => { m with up := false, gapAt := some 0 }).mgmt.gapAt.isSome = true ∧
    coreState (otherCore (wm fun m => { m with up := false, gapAt := some 0 })) (setCore (otherCore wb) 1 (wm fun m => { m with up := false, gapAt := some 0 })) = 1 ∧
    otherCore wb ≠ activeCore wb ∧ coreState (otherCore wb) (setCore (otherCore wb) 2 wb) = 2 ∧ getF Reg.FW_STAT_ACT_STATE wb ≠ 2 ∧
    (wm fun m => { m with fails0 := 1, fails1 := 1 }).mgmt.fails1 + 1 = 2 ∧
    timerDue .heartbeat 0 950000 wb = true ∧ timerDue .checkpoint 0 9000000 wb = true ∧ timerDue .boxBeat 0 2900000 wb = true ∧
    timerDue .wireBeat 0 2900000 wb = true ∧ timerDue .recovery 0 4000000 wb = true ∧
    getF Reg.BOOT_STAT_STATE (setF Reg.BOOT_STAT_STATE 5 wb) = 5 ∧ getF Reg.BOOT_STAT_STATE wb ≠ 5 := by decide +kernel

theorem wit_SideBandBase : SbOpen wb ∧ ((sbObjects wb)[max 0 1 - 1]?).isSome = true ∧ ((sbObjects wb)[max 4294967295 1 - 1]?) = none ∧
    (wm fun m => { m with up := false }).mgmt.sbHeld.length < 256 ∧ (wm fun m => { m with up := false }).mgmt.up = false :=
  ⟨by constructor <;> decide +kernel, by decide +kernel⟩

theorem wit_SideBandObjects : SbOpen wb ∧
    (∃ n ∈ (List.range 1024), (numericSensor n wb).isSome = true) ∧ (∃ n ∈ (List.range 4096), (stateSensor n wb).isSome = true) ∧
    (∃ n ∈ (List.range 1024), (numericEffecter n wb).isSome = true) ∧ numericSensor 65535 wb = none ∧ stateSensor 65535 wb = none ∧
    numericEffecter 65535 wb = none ∧ getF Reg.FW_STAT_ACT_STATE wb = 0 ∧ getF Reg.FW_STAT_ACT_STATE (setF Reg.FW_STAT_ACT_STATE 1 wb) ≠ 0 ∧
    wb.mgmt.stage = none ∧ { wb with outbox := [⟨0, 1, .sensor 1 1 0⟩] }.outbox = [⟨0, 1, .sensor 1 1 0⟩] :=
  ⟨by constructor <;> decide +kernel, by decide +kernel⟩

theorem wit_ServiceReads : SvcOpen 1 wb :=
  ⟨by decide +kernel, by decide +kernel, by decide +kernel, by decide +kernel, by decide +kernel,
    fun l h => absurd h (by show ¬ (none = some l); simp), by decide +kernel⟩

theorem wit_ServiceReads_parts : (wm fun m => { m with svcLast := some (1, []) }).mgmt.svcLast = some (1, []) ∧ wb.mgmt.svcBusy = none ∧
    wb.mgmt.stage = none ∧ (lookO wlog.log 0).isSome = true ∧ lookO wb.log 0 = none ∧ pieceOk 0 1024 = true ∧
    getB Reg.FW_CFG_SERVICE_ACTIVATE (setB Reg.FW_CFG_SERVICE_ACTIVATE true wb) = true ∧ getB Reg.FW_CFG_SERVICE_ACTIVATE wb = false := by
  decide +kernel

/-- An open port that may write: see ServiceReads for the rest of it. -/
theorem wit_ServiceWrites : SvcOpen 1 (setB Reg.FW_CFG_SERVICE_WRITE_EN true wb) ∧ SvcOpen 1 (setB Reg.FW_CFG_SERVICE_WRITE_EN false wb) := by
  constructor <;> exact ⟨by decide +kernel, by decide +kernel, by decide +kernel, by decide +kernel, by decide +kernel,
    fun l h => absurd h (by show ¬ (none = some l); simp), by decide +kernel⟩

theorem wit_ServiceWrites_parts : getB Reg.FW_CFG_SERVICE_WRITE_EN (setB Reg.FW_CFG_SERVICE_WRITE_EN true wb) = true ∧
    getB Reg.FW_CFG_SERVICE_WRITE_EN (setB Reg.FW_CFG_SERVICE_WRITE_EN false wb) = false ∧
    (∃ s ∈ [0, 1], stageRefused s wb = false) ∧ (∃ s ∈ [0, 1], stageRefused s wb = true) ∧ (List.replicate 256 (0 : Byte)).length = 256 ∧
    wb.repairRec.length < 4096 ∧ (wm fun m => { m with stage := some ⟨0, true, 0⟩ }).mgmt.stage = some ⟨0, true, 0⟩ ∧
    timerDue .staging 0 10000000000 wb = true := by decide +kernel

def wact (ph st : Nat) (cold : Bool := false) : State := setF Reg.FW_STAT_ACT_STATE st (wm fun m => { m with act := some { slot := 0, cold := cold, phase := ph } })

theorem wit_Activation : (∃ st ∈ [1, 2, 3], actAt 0 (wact 0 st) = some { slot := 0, cold := false, phase := 0 }) ∧
    (∃ st ∈ [1, 2, 3], actAt 1 (wact 1 st) = some { slot := 0, cold := false, phase := 1 }) ∧
    (∃ st ∈ [1, 2, 3], actAt 2 (wact 2 st) = some { slot := 0, cold := false, phase := 2 }) ∧
    (∃ st ∈ [1, 2, 3], actAt 3 (wact 3 st) = some { slot := 0, cold := false, phase := 3 }) ∧ bundleCheck 0 wb ≠ 0 ∧ newestCkpt wb = none ∧
    (newestCkpt (wm fun m => { m with ck0 := ⟨1, 5, true⟩ })).isSome = true ∧ ckptReads 0 5 wb = false ∧
    getF Reg.FW_STAT_ACT_STATE (wact 3 3) = 3 ∧ (0 : Nat) + 600000000000 ≤ { wact 3 3 with tb := 600000000000 }.tb := by decide +kernel

theorem wit_TrialAndEject : getF Reg.FW_STAT_ACT_STATE (wact 3 3) = 3 ∧
    (wact 3 3).mgmt.unitNew.testBit (unitWord .power) = false ∧ (getT 0 (wx { mode := .idle })).mode = .idle ∧
    (wact 3 3).mgmt.tileNew.testBit 0 = false ∧ healthy { slot := 0, cold := true } (wact 3 3) = false ∧
    healthy { slot := 0, cold := true } (setB Reg.PWR_RAILS_ON true { wact 3 3 true with tb := 30000000000 }) = true ∧
    (wact 3 3).mgmt.unitNew.testBit (unitWord .hbm) = false ∧ railsOn (setB Reg.PWR_RAILS_ON false (wact 3 3)) = false ∧
    ejectRefused wb = false ∧ ejectRefused (wact 0 1) = true ∧
    getF Reg.MGT_EJECT_STAT_STATE wb = 0 ∧ getF Reg.MGT_EJECT_STAT_STATE (setEject 1 wb) = 1 ∧
    getF Reg.MGT_EJECT_STAT_SOURCE (setF Reg.MGT_EJECT_STAT_SOURCE 2 (setEject 1 wb)) = 2 ∧ busyCtxs wb = [] ∧
    busyCtxs (wr fun x => { x with cmds := [rc0] }) ≠ [] ∧ drainOver { setEject 1 wb with tb := 2 ^ 50 } = true ∧ inflight 0 wb = 0 ∧ inflight 1 wb = 0 ∧
    timerDue .passBytes 0 1000000 wb = true ∧
    allDark { wm fun m => { m with dark := 63 } with links := [] } = true ∧ allDark (wl .active) = false := by decide +kernel

end Sys2Proof.Tests
end

