-- ==== Sys2Proof/Tests/Slice0.lean ====
section
/-! SUPPORT. Tests/Slice0.lean: an ill-formed term for each check of WellFormed, words written out from the spec's
encodings, and the spec's worked examples. Each test names its source. -/

namespace Sys2Proof.Tests

set_option Elab.async false
open Sys2Proof Sys2Proof.Machine

/-! ### Ill-formed terms -/

/-- R326: one packet past each field's width, and one whose payload is not LEN bytes long. -/
theorem test_packet_wf : packet0.wf = true ∧ ([{ packet0 with typ := 256 }, { packet0 with vc := 8 }, { packet0 with epoch := 2 },
    { packet0 with hlc := 2 }, { packet0 with part := 8 }, { packet0 with hops := 256 }, { packet0 with dst := 32768 },
    { packet0 with src := 32768 }, { packet0 with unit := 4096 }, { packet0 with tag := 65536 },
    { packet0 with len := 1024, data := List.replicate 1024 0 }, { packet0 with status := 256 }, { packet0 with addr := 2 ^ 40 },
    { packet0 with group := 4096 }, { packet0 with rlen := 1024 }, { packet0 with ctrl := 256 }, { packet0 with len := 1 }].all
      fun p => !p.wf) = true := by decide +kernel

/-- R297, R300: one group past each field's width, and one with too many packet bytes. -/
theorem test_group_wf : (grp0 true false 0).wf = true ∧ ([{ grp0 true false 0 with seq := 65536 }, { grp0 true false 0 with ack := 65536 },
    { grp0 true false 0 with credA := (8, 0) }, { grp0 true false 0 with credB := (8, 0) }, { grp0 true false 0 with credA := (0, 8192) },
    { grp0 true false 0 with credB := (0, 8192) }, { grp0 true false 0 with packets := [{ packet0 with vc := 8 }] },
    { grp0 true false 0 with body := List.replicate 3057 0 }].all
      fun g => !g.wf) = true := by decide +kernel

/-- R290, R297: too few lanes, a lane of too few blocks, a block of too few bytes, too many packet bytes and half a word of them. -/
theorem test_rxgroup_wf : let b : LBlock := ⟨1, List.replicate 8 0⟩
    let l := List.replicate 17 b
    (RxGroup.mk (List.replicate 24 l) 3056).wf = true ∧
    ([RxGroup.mk (List.replicate 23 l) 0, RxGroup.mk (List.replicate 24 (l.drop 1)) 0,
      RxGroup.mk (List.replicate 24 (⟨1, []⟩ :: l.drop 1)) 0, RxGroup.mk (List.replicate 24 l) 3072, RxGroup.mk (List.replicate 24 l) 8].all
        fun r => !r.wf) = true := by decide +kernel

/-- R131, R137: fields of another form than the mnemonic's. -/
theorem test_tileword_wf : (wG .alu 1 2 3 0 0).wf = true ∧ (wG .movi 1 2 3 0 0).wf = false ∧ (wI .mmul 0 0 0 0).wf = false ∧
    (wM .mmul 0).wf = true ∧ TileWord.wf ⟨.alu, 0, false, .m 0 0 0 0 0 0 false 0 0 false⟩ = false := by decide +kernel

/-- Commands whose operands are not what their row means. -/
theorem test_instr_wf : (([.blockLockDone 0 [] 0 [], .blockLockLost 0 0 [], .eqFineDone 0 [], .groupReceived 0 (RxGroup.mk [] 0),
    .partitionAllocate [] 0 (List.replicate 8 0), .partitionAllocate (List.replicate 8 0) 0 [], .thermalModelTick [] (List.replicate 64 0),
    .thermalModelTick (List.replicate 64 0) [], .rdmaReadReceived 2 ⟨64, 0⟩ 0 0 0 0x80000001, .svcConfigWrite 0 true (List.replicate 1025 0),
    .svcLicenceWrite 0 true 0 (List.replicate 1025 0), .svcRepairAdd 0 true (List.replicate 1025 0),
    .svcStageWrite 0 true 0 (List.replicate 1025 0), .ptpAnnounceReceived 0 0 0, .linkDegradedCheck 0 0 2 1, .pldmGetPdr 0 (2 ^ 32),
    .pldmGetSensorReading 0 65536, .pldmGetStateSensorReadings 0 65536, .pldmGetNumericEffecterValue 0 65536] : List Instr).all
      fun i => !i.wf) = true ∧ Instr.wf (.powerOn) = true := by decide +kernel

/-- An RDMA WRITE of more than 2 GiB: no list is written out, its length decides. -/
theorem test_instr_wf_rdma (d : List Byte) (h : 2 ^ 31 < d.length) : Instr.wf (.rdmaWriteReceived 2 ⟨64, 0⟩ 0 0 0 d) = false := by
  simp only [Instr.wf, decide_eq_false_iff_not]; omega

/-! ### Words of tile instructions, bit by bit from R131 and R137 -/

/-- R151's example: the QMMUL word 0x0000_1017_1043_2041. -/
theorem test_word_qmmul : (tileDecode 0x0000101710432041).toOption = some ⟨.qmmul, 0, false, .m 2 3 4 0 1 7 false 1 0 true⟩ := by decide +kernel
/-- ALU: OP 0x10, D 1 at [17:12], A 2 at [23:18], B 3 at [29:24], FN 8 at [43:36]. -/
theorem test_word_alu : (tileDecode 0x0000008003081010).toOption = some (wG .alu 1 2 3 0 8) := by decide +kernel
/-- MOVI: OP 0x12, D 5 at [17:12], IMM −1 at [63:32]. -/
theorem test_word_movi : (tileDecode 0xFFFFFFFF00005012).toOption = some (wI .movi 5 0 0 0xFFFFFFFF) := by decide +kernel
/-- BR with guard P3 negated: OP 0x02, PG 3 at [10:8], PN at [11]. -/
theorem test_word_br : (tileDecode 0x0000000400000B02).toOption = some ⟨.br, 3, true, .i 0 0 0 4⟩ := by decide +kernel
/-- R132: OP 0x05 is not assigned, and S32 does not exist. -/
theorem test_word_refused : tileWordFault 0x05 = some .illegalOpcode ∧ tileWordFault 0x0000000000020010 = some .reservedNonzero := by
  decide +kernel

/-! ### Addresses (R13, R35, R36, R38, R88, R208) -/

/-- Tile (1, 4, 3) is tile 171: its slot is at 0x19_1800 and its scratchpad at 0x80_1348_0000. -/
theorem test_tile_places : blkBase .tile 171 = 0x191800 ∧ spGlobal 171 0 = 0x8013480000 ∧ spSlot 0x8013480000 = some (171, 0) ∧
    spGlobal 271 0x17FFFF = 0x801CBFFFFF := by decide +kernel
/-- LNK_STATE of link 3 lies in the block at 0x04_3000; ring 1,000 rings at 0xF1_0000_FA00. -/
theorem test_blocks : blkBase .lnk 3 = 0x43000 ∧ dbWin + 1000 * 0x40 = 0xF10000FA00 := by decide +kernel
/-- MGT of chip (3, 0, 17): 0x000C_11F0_0000_2000 is chip 3,089, module offset 0xF0_0000_2000. -/
theorem test_global : gChip 0x000C11F000002000 = 3089 ∧ gOff 0x000C11F000002000 = 0xF000002000 := by decide +kernel
/-- R208's example: offset 0x12_3456_7A40 of one ALL region at L2 lies in stack 7, its data byte at 0x2_6D60_D640 and its
check field at 0x2_6D60_FD60. -/
theorem test_place : hbmPlace (setF Reg.MEM_STATUS_STACKS_PRESENT 0xFF <| setF (fldNth Reg.MEM_REGION_VALID 0) 1 <|
    setF (fldNth Reg.MEM_REGION_LEVEL 0) 2 <| setF (fldNth Reg.MEM_REGION_RAW_GIB 0) 48 State.reset) 0x1234567A40 =
      some ⟨7, 2, 11, 0x26D60D640, 0x26D60FD60⟩ := by
  decide +kernel
/-- R88's example: offset 0x1_2340 is bank 13, row 48: a byte written there notes that row in that bank. -/
theorem test_bank : smLook [] (spPut {} 0x12340 [1]).rowTab 13 = [48] := by decide +kernel

/-! ### Formats (R46, R53, R65, R66, R79, R154, R173, R191) -/

/-- R53's first example, both rules: codes and scales of 7.4, 2.5, −0.75, 0.3, 5.0 and zeros in MXFP4. -/
theorem test_mxfp4 : let xs : List B32 := [0x40ECCCCD, 0x40200000, 0xBF400000, 0x3E99999A, 0x40A00000] ++ List.replicate 27 0
    (let r := quantRun .mxfp4 false false xs ⟨1, 0, 0⟩; (r.1.take 3, r.2.1, r.2.2.sat)) = ([0x47, 0x1A, 0x06], [127], 1) ∧
    (let r := quantRun .mxfp4 false true xs ⟨1, 0, 0⟩; (r.1.take 3, r.2.1, r.2.2.sat)) = ([0x26, 0x09, 0x04], [128], 0) := by decide +kernel

/-- R53's second example: E = 126, shift 2, the eight codes; 0.9 in the last sub-block saturates too. -/
theorem test_f3lb : let xs : List B32 := [0x3E4CCCCD, 0xBDE147AE, 0x3D4CCCCD, 0, 0x3E2E147B, 0xBE4CCCCD, 0x3DB851EC, 0x3E051EB8] ++
      List.replicate 119 0 ++ [0x3F666666]
    (let r := quantRun .f3lb false false xs ⟨1, 0, 0⟩
     (leNat (r.1.take 3), r.1.getD 48 0, leNat r.1 / 2 ^ 392 % 8, r.2.2.sat)) =
      (3 + 6 * 8 + 64 + 3 * 4096 + 7 * 32768 + 262144 + 2 * 2097152, 126, 2, 3) := by decide +kernel

/-- R65: 2.5 to F4 with u = 0x3A10 gives 3 (code 5), with u = 0x9C40 gives 2 (code 4). -/
theorem test_stochastic : (quantElem elF4 true 0 0x40200000 ⟨0x7420, 0, 0⟩) = (5, ⟨0x3A10, 0, 0⟩) ∧
    (quantElem elF4 true 0 0x40200000 ⟨0x13880, 0, 0⟩) = (4, ⟨0x9C40, 0, 0⟩) ∧ lfsrStep 1 = 0x80200003 ∧ lfsrSeed 2 3 = 131076 := by
  decide +kernel

/-- The precision word 0x0000_051F_1000_01D5 (R78's example), and its candidates 7 and 39. -/
theorem test_precision_word : let p : B64 := 0x0000051F100001D5
    pcMode p = 1 ∧ pcK p = 5 ∧ pcPhase p = 7 ∧ pcBurst p = 16 ∧ pcThresh p = 0x051F ∧ pcStoch p = false ∧ pcCeil p = false ∧
    pcInvalid p = false ∧ candidate p [] 39 = true ∧ candidate p [] 40 = false := by decide +kernel

/-- R154's example, both chunks: mn, l, c and the live lanes. -/
theorem test_smxu : (let r := smxuFn (of32 ([0x40400000, 0x3F800000] ++ List.replicate 126 negInf32)) negInf32 0;
      (lane32 r.1 0, lane32 r.1 1, r.2)) = (0x3F800000, 0x3E800000, 0x40400000, 0x3FA00000, 0) ∧
    (let r := smxuFn (of32 ([0x40A00000, 0x40400000] ++ List.replicate 126 negInf32)) 0x40400000 0x3FA00000;
      (lane32 r.1 0, lane32 r.1 1, r.2)) = (0x3F800000, 0x3E800000, 0x40A00000, 0x3FC80000, 0x3E800000) := by decide +kernel

/-- R173's example. -/
theorem test_phase : phase 16777215 0x0010000001 = 0xFFF0FFFFFF := by decide +kernel

/-- R191's example: pages 2, 4 and 6 of the scored ones (0.5, 2.0, −1.0, 2.0, NaN as −infinity, 1.5, 0.7, 1.5). -/
theorem test_sift : siftPick 3 [(1, 0x3F000000), (2, 0x40000000), (3, 0xBF800000), (4, 0x40000000), (5, 0xFF800000), (6, 0x3FC00000),
    (7, 0x3F333333), (8, 0x3FC00000)] = [2, 4, 6] := by decide +kernel

/-! ### Kernels, routes and collectives (R115, R330, R333, R393, R397, R505, R509) -/

/-- R115's example: four tiles with PLACE = ANY when 5, 6, 140 and 141 are idle. -/
theorem test_pick : pickTiles 1 { wk with count := 4, place := 3 } (setF (fldNth Reg.FP_TILES 0) 0x60 <| setF (fldNth Reg.FP_TILES 2) 0x3000
    { State.reset with tiles := [5, 6, 140, 141].map fun t => (t, { mode := .idle }) }) = some [5, 6, 140, 141] := by decide +kernel

/-- R333's example on 32 × 32 × 32: +X from (30, 2, 5); PORT and HL_PORT 4 at (1, 2, 5); −X from (1, 2, 9). -/
theorem test_routes : defaultRoute 30789 32 32 32 1097 % 8 = 0 ∧ defaultRoute 1093 32 32 32 1097 = 0x24 ∧
    defaultRoute 1097 32 32 32 30789 % 8 = 1 := by decide +kernel

/-- R393's example: element 0 is ((10 + 100) + 1,000) + 1 = 1,111. -/
theorem test_reduce : collCombine 0 0 (collCombine 0 0 (collCombine 0 0 0x41200000 0x42C80000) 0x447A0000) 0x3F800000 = 0x448AE000 := by
  decide +kernel

def a2aCounts : SMap Nat := [12, 9, 15, 11, 14, 13, 16, 10, 17, 12, 14, 13, 18, 11, 15, 10].mapIdx fun i n => (i, n)

/-- R397's example: source 14 gets 7 rows from row 185 and source 15 none; with ROTATE and SEQ 1,000, source 6 gets 8 and 7 none. -/
theorem test_grants : (grantList 192 a2aCounts 0 (List.range 16)).drop 13 = [(13, 11, 174), (14, 7, 185), (15, 0, 192)] ∧
    (grantList 192 a2aCounts 0 (grantOrder { wcoll 4 .running with members := List.range 16, seq := 1000, ctl := 16 })).drop 14 =
      [(6, 8, 184), (7, 0, 192)] := by decide +kernel

/-- R509's example: link 2 of chip (1, 2, 3) on 4 × 4 × 4 finds chip 2,147 in place of 1,123; RESULT becomes 0x0001_24D2. -/
theorem test_topology :
    let s := setF Reg.FAB_TOPO_SX 4 <| setF Reg.FAB_TOPO_SY 4 <| setF Reg.FAB_TOPO_SZ 4 <| setF Reg.SYS_CHIP_X 1 <|
      setF Reg.SYS_CHIP_Y 2 <| setF Reg.SYS_CHIP_Z 3 wb;
    let put (s : State) (l c : Nat) : State := setLF l Reg.LNK_PARTNER_VALID 1 (setLF l Reg.LNK_PARTNER_CHIP c s);
    getF Reg.BOOT_TOPO_RESULT ((List.range 6).foldl (fun s l => topoCompare l (put s l ([2115, 67, 2147, 1059, 1088, 1090].getD l 0))) s) =
      0x124D2 := by decide +kernel

/-! ### Power (R424, R433, R551) -/

/-- R424's example at 250 µs: 1,200 W applies and 2,000 W is held in a new window. -/
theorem test_coalesce : (let s := capWindowEnd .host { capSet .host (some 1800) wb with
      pwr := { hostWin := true, hostHeld := [some 1200, some 2000] } }; (hostCap s, capHeld .host s)) =
    (some 1200, (true, [some 2000])) := by decide +kernel

/-- R433's example: B = 1,050 W and B = 1,550 W. -/
theorem test_allocate : let l : List Claim := [⟨1, 500, 16, 900⟩, ⟨2, 400, 16, 700⟩, ⟨3, 200, 16, 200⟩]
    allocate 1050 l = [(1, 477), (2, 382), (3, 191)] ∧ allocate 1550 l = [(3, 200), (1, 725), (2, 625)] := by decide +kernel

/-- R551's example: B = 1,300 W. -/
theorem test_allocate_brownout : allocate 1300 [⟨1, 800, 16, 1000⟩, ⟨2, 700, 16, 900⟩] = [(1, 693), (2, 607)] := by decide +kernel

/-! ### Steps -/

/-- 48 V comes on first: the command at the front of the queue is taken and bring-up begins at step 2. -/
theorem test_first_step : (match step { State.reset with pending := [.powerOn] } with
    | .next t => decide (t.powered = true ∧ t.pending = []) | _ => false) = true := by decide +kernel

/-- No word of the table has bits, so none is put in front. -/
theorem test_no_words : decodeTableWord 0 0 = none ∧ (State.reset.withFetchWord 0 0).pending = [] := by decide +kernel

/-- A MOVI that the tile can issue writes S5 and goes on to the next word. -/
theorem test_movi_step : (match exec (.movi 0) (wt (wI .movi 5 0 0 0xFFFFFFFF)) with
    | .next t => decide (rdS (getT 0 t) 5 = 0xFFFFFFFFFFFFFFFF ∧ (getT 0 t).pc = 8) | _ => false) = true := by decide +kernel

/-- R261: doorbell 64 of a 64-entry ring is taken; 65 faults the context. -/
theorem test_doorbell : (match exec (.doorbellProducer 0 64) wr with | .next t => decide ((getR 0 t).producer = 64) | _ => false) = true ∧
    (match exec (.doorbellProducer 0 65) wr with
      | .next t => decide ((getR 0 t).producer = 1 ∧ (getC 0 t).st = .faulted) | _ => false) = true := by decide +kernel

end Sys2Proof.Tests
end

section
/-! PROOFS. The moves and the sequencer's own instructions (R130 to R143): what a word at the PC of a tile that can issue comes
to, and from it the statements on MOVI, MOVHI, AMOV, MOVA and ADDA and on NOP, END, BR and LFSRLD. -/

namespace Sys2Proof.Machine

/-! ### The event of each mnemonic -/

/-- The event by which tile `t` issues an instruction with mnemonic `op`. -/
def issueEvent (op : TOp) (t : TileId) : Instr :=
  match op with
  | .nop => .nop t | .endOp => .endOp t | .br => .br t | .mfsr => .mfsr t | .lfsrld => .lfsrld t
  | .alu => .alu t | .alui => .alui t | .movi => .movi t | .movhi => .movhi t | .cmp => .cmp t | .cmpi => .cmpi t
  | .plog => .plog t | .fpu => .fpu t | .fcmp => .fcmp t | .amov => .amov t | .adda => .adda t | .mova => .mova t
  | .ld => .ld t | .st => .st t | .valu => .valu t | .valus => .valus t | .vsfu => .vsfu t | .vred => .vred t
  | .vcvt => .vcvt t | .vbcast => .vbcast t | .vld => .vld t | .vst => .vst t | .vdq => .vdq t | .vqnt => .vqnt t
  | .mmul => .mmul t | .qmmul => .qmmul t | .accrd => .accrd t | .dma => .dma t | .atom => .atom t | .acq => .acq t
  | .smxu => .smxu t | .smxm => .smxm t | .waitd => .waitd t | .signal => .signal t | .waits => .waits t | .waitf => .waitf t

/-- Every mnemonic's event tries to issue that mnemonic at the tile's PC. -/
theorem exec_issueEvent (op : TOp) (t : TileId) (s : State) : exec (issueEvent op t) s = .next (issueAt op t s) := by
  cases op <;> rfl

/-! ### What keeps an instruction from its effect (R130, R132, R134) -/

/-- Tile `t` runs kernel `k` and has word `w` at its PC, which is the instruction `i` with mnemonic `op`: TileReady without the
three checks that can still keep the instruction from its effect. -/
structure TileAtWord (op : TOp) (t : Nat) (k : Kernel) (w : B64) (i : TileWord) (s : State) : Prop where
  kern : (getT t s).kern.bind (getK · s) = some k
  running : (getT t s).mode = .running
  going : (getT t s).stopping = false
  issuing : (getT t s).draining = false
  inside : (getT t s).pc < k.len
  fetched : fetchWord (getT t s) = some w
  split : tileSplit w = some i
  isOp : i.op = op

section AtWord
variable {op : TOp} {t : Nat} {k : Kernel} {w : B64} {i : TileWord} {s : State}

/-- The three checks before the effect, in their order: a forbidden word faults, a guard that is off only retires, and an operand
with a write still to come changes nothing. -/
theorem issueAt_checks (h : TileAtWord op t k w i s) :
    (∀ c, tileWordFault w = some c → issueAt op t s = tileFault t c (getT t s).pc w.toNat s) ∧
    (tileWordFault w = none → guardOn (getT t s) i = false → issueAt op t s = issued t id s) ∧
    (tileWordFault w = none → guardOn (getT t s) i = true → operandHeld (getT t s) i = true → issueAt op t s = s) := by
  obtain ⟨hkern, hrun, hgoing, hissuing, hinside, hfetched, hsplit, hop⟩ := h
  have hpc : ¬ k.len ≤ (getT t s).pc := Nat.not_le.mpr hinside
  refine ⟨fun c hc => ?forbidden, fun hlegal hguard => ?guardOff, fun hlegal hguard hheld => ?held⟩
  all_goals simp only [issueAt, hkern, hrun, hgoing, hissuing, hpc, hfetched, hsplit, hop]
  case forbidden => simp [hc]
  case guardOff => simp [hlegal, hguard, modT_eq, issued]
  case held => simp [hlegal, hguard, hheld]

/-- R169: an operand with a write still to come reads as wait kind 2. -/
theorem seqWait_operandHeld (h : TileAtWord op t k w i s) (hlegal : tileWordFault w = none)
    (hguard : guardOn (getT t s) i = true) (hheld : operandHeld (getT t s) i = true)
    (hfetch : (getT t s).fetching = none) (hfence : (getT t s).waitf = none) : seqWait t s = 2 := by
  have hpc : ¬ k.len ≤ (getT t s).pc := Nat.not_le.mpr h.inside
  simp [seqWait, h.kern, h.running, h.going, h.issuing, hpc, h.fetched, h.split, hlegal, hguard, hheld, hfetch, hfence]

end AtWord

/-! ### Instructions on the sequencer's own registers -/

/-- The instructions whose effect is on the tile's PC, its drain, its LFSR and its scalar, predicate and address registers alone.
MFSR is not one: its TIME uses up a timestamp of the module (R251). -/
def onRegisters : TOp → Bool
  | .nop | .endOp | .br | .lfsrld | .alu | .alui | .movi | .movhi | .cmp | .cmpi | .plog | .fpu | .fcmp
  | .amov | .adda | .mova => true
  | _ => false

theorem newReads_onRegisters {w : TileWord} (h : onRegisters w.op = true) (old new : Tile) : newReads w old new = [] := by
  obtain ⟨op, pg, pn, args⟩ := w
  cases op <;> simp [onRegisters, newReads] at h ⊢

section OnRegisters
variable {op : TOp} {t : TileId} {k : Kernel} {w : B64} {i : TileWord} {s : State} {f : TEnv → TileWord → Tile → TIss}

/-- A ready instruction on registers leaves the tile as its meaning says, and the rest of the module alone. -/
theorem exec_onRegisters {x : Tile} (h : TileReady op t k w i s) (hreg : onRegisters op = true) (hf : opRun op = liftTile f)
    (hx : f (tileEnv t k w s) i (getT t s) = .go x) : exec (issueEvent op t) s = .next (setT t x s) := by
  have hend : afterIssue t i (getT t s) (setT t x s) = setT t x s := by
    rw [← h.isOp] at hreg
    refine afterIssue_noReads t i _ _ (newReads_onRegisters hreg _ _) (fun hop => ?_) (fun hop => ?_) <;>
      simp [hop, onRegisters] at hreg
  rw [exec_issueEvent, issueAt_lift h hf hx, hend]

/-- A ready instruction that faults: the tile's own PC and the fault's value are recorded. -/
theorem exec_lift_fault {c : TCause} {n : Nat} (h : TileReady op t k w i s) (hf : opRun op = liftTile f)
    (hx : f (tileEnv t k w s) i (getT t s) = .fault c n) :
    exec (issueEvent op t) s = .next (tileFault t c (getT t s).pc n s) := by
  rw [exec_issueEvent, issueAt_lift_fault h hf hx]

end OnRegisters

/-! ### Values of MOVHI and LFSRLD -/

theorem lo32_toNat (x : B64) : (lo32 x).toNat = x.toNat % 2 ^ 32 := by simp [lo32]

theorem lo32_eq_ofNat (x : B64) : lo32 x = BitVec.ofNat 32 x.toNat := by
  apply BitVec.eq_of_toNat_eq
  rw [lo32_toNat, BitVec.toNat_ofNat]

theorem lo32_eq_zero_iff (x : B64) : lo32 x = 0 ↔ x.toNat % 2 ^ 32 = 0 := by
  rw [← BitVec.toNat_inj, lo32_toNat]; rfl

/-- R143: the immediate above the kept half, as a number. -/
theorem append_lo32 (imm : B32) (x : B64) : imm ++ lo32 x = BitVec.ofNat 64 (imm.toNat * 2 ^ 32 + x.toNat % 2 ^ 32) := by
  apply BitVec.eq_of_toNat_eq
  have himm := imm.isLt
  rw [BitVec.toNat_append, ← Nat.shiftLeft_add_eq_or_of_lt (lo32 x).isLt, Nat.shiftLeft_eq, lo32_toNat, BitVec.toNat_ofNat]
  omega

/-- R141: LFSRLD by the value of Sa[31:0]. -/
theorem issLfsrld_eq {w : TileWord} {d a b c : BitVec 6} {fn : BitVec 8} (e : TEnv) (x : Tile) (hw : w.args = .g d a b c fn) :
    issLfsrld e w x = .go (retire { x with
      lfsr := if (rdS x a.toNat).toNat % 2 ^ 32 = 0 then 1 else BitVec.ofNat 32 (rdS x a.toNat).toNat }) := by
  simp only [issLfsrld, hw, ← lo32_eq_zero_iff, ← lo32_eq_ofNat]

/-! ### BR (R139) -/

section Branch
variable {w : TileWord} {d a : BitVec 6} {fn : BitVec 8} {imm : BitVec 32} (e : TEnv) (x : Tile)

theorem issBr_inside (hw : w.args = .i d a fn imm) (h0 : 0 ≤ (x.pc : Int) + imm.toInt * 8)
    (hlen : (x.pc : Int) + imm.toInt * 8 < e.imageLen) :
    issBr e w x = .go { retire x with pc := ((x.pc : Int) + imm.toInt * 8).toNat } := by
  simp only [issBr, hw]
  exact if_neg (by omega)

theorem issBr_outside (hw : w.args = .i d a fn imm)
    (hout : (x.pc : Int) + imm.toInt * 8 < 0 ∨ (e.imageLen : Int) ≤ (x.pc : Int) + imm.toInt * 8) :
    issBr e w x = .fault .fetchFault (BitVec.ofInt 64 ((x.pc : Int) + imm.toInt * 8)).toNat := by
  simp only [issBr, hw]
  exact if_pos hout

end Branch

/-! ### The statements -/

/-- Settles O5: each move is an instruction on registers, and MOVHI's value is the immediate above the kept half. -/
theorem moves : Obligations.Moves := by
  intro t k w i s
  refine ⟨fun d a fn imm hi => ⟨fun h => ?movi, fun h => ?movhi, fun h => ?adda⟩,
    fun d a b c fn hi => ⟨fun h => ?amov, fun h => ?mova⟩⟩
  case movi => exact exec_onRegisters h rfl rfl (by simp only [issMovi, hi])
  case movhi => exact exec_onRegisters h rfl rfl (by simp only [issMovhi, hi, append_lo32])
  case adda => exact exec_onRegisters h rfl rfl (by simp only [issAdda, hi])
  case amov => exact exec_onRegisters h rfl rfl (by simp only [issAmov, hi])
  case mova => exact exec_onRegisters h rfl rfl (by simp only [issMova, hi])

/-- Settles O6: NOP, END, LFSRLD and a BR within its image act on registers, a BR outside it faults, and the checks before the
effect are those of every mnemonic, here ALU. -/
theorem sequencerControl : Obligations.SequencerControl := by
  refine ⟨fun t k w i s => ⟨fun h => ?nop, fun h => ?endOp, fun d a b c fn hi h => ?lfsrld,
      fun d a fn imm hi h => ⟨?inside, ?outside⟩⟩,
    fun t k w i s hkern hrun hgoing hissuing hinside hfetched hsplit hop => ?checks⟩
  case nop => exact exec_onRegisters (f := issNop) h rfl rfl rfl
  case endOp => exact exec_onRegisters (f := issEnd) h rfl rfl rfl
  case lfsrld => exact exec_onRegisters h rfl rfl (issLfsrld_eq _ _ hi)
  case inside => exact fun h0 hlen => exec_onRegisters h rfl rfl (issBr_inside _ _ hi h0 hlen)
  case outside => exact fun hout => exec_lift_fault h rfl (issBr_outside _ _ hi hout)
  case checks =>
    have hat : TileAtWord .alu t k w i s := ⟨hkern, hrun, hgoing, hissuing, hinside, hfetched, hsplit, hop⟩
    have halu : exec (.alu t) s = .next (issueAt .alu t s) := exec_issueEvent .alu t s
    obtain ⟨hforbidden, hoff, hheld⟩ := issueAt_checks hat
    rw [halu]
    exact ⟨fun c hc => congrArg _ (hforbidden c hc), fun hlegal hguard => congrArg _ (hoff hlegal hguard),
      fun hlegal hguard hpend => ⟨congrArg _ (hheld hlegal hguard hpend), seqWait_operandHeld hat hlegal hguard hpend⟩⟩

end Sys2Proof.Machine
end

section
/-! PROOFS. Doorbells (R261, R276, R280): what a doorbell value comes to, by how it compares with the ring's own, and from it the
statement on DOORBELL_PRODUCER and DOORBELL_CQ_CONSUMED. -/

namespace Sys2Proof.Machine

/-! ### The comparison modulo 2^32 -/

section Compare
variable {v c : Nat}

theorem dbCompare_same (h : (v + 2 ^ 32 - c) % 2 ^ 32 = 0) : dbCompare v c = .same := if_pos h

theorem dbCompare_newer (h0 : 0 < (v + 2 ^ 32 - c) % 2 ^ 32) (h31 : (v + 2 ^ 32 - c) % 2 ^ 32 < 2 ^ 31) :
    dbCompare v c = .newer :=
  (if_neg (Nat.ne_of_gt h0)).trans (if_pos h31)

theorem dbCompare_stale (h31 : 2 ^ 31 ≤ (v + 2 ^ 32 - c) % 2 ^ 32) : dbCompare v c = .stale :=
  (if_neg (Nat.ne_of_gt (Nat.lt_of_lt_of_le (Nat.two_pow_pos 31) h31))).trans (if_neg (Nat.not_lt.mpr h31))

end Compare

/-! ### The freeze (R280) -/

theorem heldOr_open {s : State} (h : s.frozen = false) (i : Instr) (f : State → State) : heldOr i f s = f s :=
  if_neg (by simp [h])

theorem heldOr_frozen {s : State} (h : s.frozen = true) (i : Instr) (f : State → State) :
    heldOr i f s = { s with held := s.held ++ [i] } := if_pos h

/-- A ring's number names that ring. -/
@[simp] theorem ringId_val (r : RingId) : ringId r.val = r := Fin.ext (Nat.mod_eq_of_lt r.isLt)

section Frozen
variable {s : State} (hfrozen : s.frozen = true) (ring : RingId) (v : B32)
include hfrozen

theorem doorbellProducer_frozen :
    doorbellProducer ring v.toNat s = { s with held := s.held ++ [.doorbellProducer ring v] } := by
  rw [doorbellProducer, heldOr_frozen hfrozen, ringId_val, BitVec.ofNat_toNat, BitVec.setWidth_eq]

theorem doorbellCq_frozen :
    doorbellCq ring v.toNat s = { s with held := s.held ++ [.doorbellCqConsumed ring v] } := by
  rw [doorbellCq, heldOr_frozen hfrozen, ringId_val, BitVec.ofNat_toNat, BitVec.setWidth_eq]

end Frozen

/-! ### One equation for each outcome (R261) -/

section Outcomes
variable {s : State} {r v : Nat} (hopen : s.frozen = false)
include hopen

theorem doorbellProducer_disabled (hoff : (getR r s).enable = false) : doorbellProducer r v s = s := by
  simp [doorbellProducer, heldOr_open hopen, hoff]

theorem doorbellCq_disabled (hoff : (getR r s).enable = false) : doorbellCq r v s = s := by
  simp [doorbellCq, heldOr_open hopen, hoff]

variable (hon : (getR r s).enable = true)
include hon

theorem doorbellProducer_same (hcmp : dbCompare v (getR r s).producer = .same) : doorbellProducer r v s = s := by
  simp [doorbellProducer, heldOr_open hopen, hon, hcmp]

theorem doorbellProducer_stale (hcmp : dbCompare v (getR r s).producer = .stale) :
    doorbellProducer r v s = bump Reg.CMD_STALE_DOORBELLS 1 s := by
  simp [doorbellProducer, heldOr_open hopen, hon, hcmp]

theorem doorbellProducer_taken (hcmp : dbCompare v (getR r s).producer = .newer)
    (hroom : (v + 2 ^ 32 - (getR r s).consumed) % 2 ^ 32 ≤ 2 ^ (getR r s).log2) :
    doorbellProducer r v s = modR r (fun x => { x with producer := v }) s := by
  simp only [doorbellProducer, heldOr_open hopen, hon, hcmp, Nat.not_lt.mpr hroom, Bool.not_true, Bool.false_eq_true, if_false]

theorem doorbellProducer_overflow (hcmp : dbCompare v (getR r s).producer = .newer)
    (hover : 2 ^ (getR r s).log2 < (v + 2 ^ 32 - (getR r s).consumed) % 2 ^ 32) :
    doorbellProducer r v s = ctxFault (getR r s).ctx (some r) 0x0206 0 false s := by
  simp only [doorbellProducer, heldOr_open hopen, hon, hcmp, hover, Bool.not_true, Bool.false_eq_true, if_false, if_true]

theorem doorbellCq_same (hcmp : dbCompare v (getR r s).cqConsumed = .same) : doorbellCq r v s = s := by
  simp [doorbellCq, heldOr_open hopen, hon, hcmp]

theorem doorbellCq_stale (hcmp : dbCompare v (getR r s).cqConsumed = .stale) :
    doorbellCq r v s = bump Reg.CMD_STALE_DOORBELLS 1 s := by
  simp [doorbellCq, heldOr_open hopen, hon, hcmp]

theorem doorbellCq_taken (hcmp : dbCompare v (getR r s).cqConsumed = .newer)
    (hposted : (v + 2 ^ 32 - (getR r s).cqConsumed) % 2 ^ 32 ≤
      ((getR r s).cqProduced + 2 ^ 32 - (getR r s).cqConsumed) % 2 ^ 32) :
    doorbellCq r v s = cqRetry r (modR r (fun x => { x with cqConsumed := v }) s) := by
  simp only [doorbellCq, heldOr_open hopen, hon, hcmp, Nat.not_lt.mpr hposted, Bool.not_true, Bool.false_eq_true, if_false]

theorem doorbellCq_beyond (hcmp : dbCompare v (getR r s).cqConsumed = .newer)
    (hbeyond : ((getR r s).cqProduced + 2 ^ 32 - (getR r s).cqConsumed) % 2 ^ 32 <
      (v + 2 ^ 32 - (getR r s).cqConsumed) % 2 ^ 32) :
    doorbellCq r v s = bump Reg.CMD_DOORBELL_DISCARDS 1 s := by
  simp only [doorbellCq, heldOr_open hopen, hon, hcmp, hbeyond, Bool.not_true, Bool.false_eq_true, if_false, if_true]

end Outcomes

/-! ### Faulting a context leaves every ring as it was (R276) -/

@[simp] theorem emitQ_rings (q : Nat) (o : OutEv) (s : State) : (emitQ q o s).rings = s.rings := rfl

@[simp] theorem qpSend_rings (q : Nat) (s : State) (w : Wqe) : (qpSend q s w).rings = s.rings := by
  unfold qpSend
  split
  · exact emitQ_rings q _ s
  · rfl

@[simp] theorem qpPost_rings (q : Nat) (target : Option (Nat × Nat)) (data : List Byte) (part : Nat) (s : State) :
    (qpPost q target data part s).rings = s.rings :=
  qpSend_rings q _ _

@[simp] theorem notify_rings (ev : Ev) (part : Nat) (ring : Option Nat) (ctx status detail : Nat) (s : State) :
    (notify ev part ring ctx status detail s).rings = s.rings := by
  simp only [notify]
  split
  · rw [qpPost_rings, stampUse_rings]
  · rfl

@[simp] theorem logFault_rings (c : Nat) (ring : Option Nat) (status : Nat) (s : State) :
    (logFault c ring status s).rings = s.rings :=
  logEv_rings ..

@[simp] theorem ctxFault_rings (c : Nat) (ring : Option Nat) (status detail : Nat) (logged : Bool) (s : State) :
    (ctxFault c ring status detail logged s).rings = s.rings := by
  simp only [ctxFault]
  split
  · rw [notify_rings, timerSet_rings, modC_eq, setC_rings]
    cases logged
    · exact logFault_rings c ring status s
    · rfl
  · rfl

@[simp] theorem getR_ctxFault (r c : Nat) (ring : Option Nat) (status detail : Nat) (logged : Bool) (s : State) :
    getR r (ctxFault c ring status detail logged s) = getR r s := by
  rw [getR, ctxFault_rings, getR]

/-! ### A halted ring starts no command (R261) -/

theorem ringReady_halted {r : Nat} {s : State} (h : (getR r s).halted = true) : ringReady r s = false := by
  simp [ringReady, h]

/-! ### The two events -/

theorem exec_doorbellProducer (ring : RingId) (v : B32) (s : State) :
    exec (.doorbellProducer ring v) s = .next (doorbellProducer ring v.toNat s) := rfl

theorem exec_doorbellCqConsumed (ring : RingId) (v : B32) (s : State) :
    exec (.doorbellCqConsumed ring v) s = .next (doorbellCq ring v.toNat s) := rfl

/-! ### The statement -/

/-- Settles O16: one equation for each outcome of the comparison, and a fault of the context keeps the rings. -/
theorem doorbells : Obligations.Doorbells := by
  rintro ring v s x d e rfl rfl rfl
  rw [exec_doorbellProducer, exec_doorbellCqConsumed]
  refine ⟨fun hopen hon => ⟨fun h0 h31 hroom => ?taken, fun h0 h31 hposted => ?cqTaken, fun h => ?same, fun h => ?cqSame,
      fun h => ?stale, fun h => ?cqStale, fun h0 h31 hover => ⟨?overflow, getR_ctxFault ..⟩, fun h0 h31 hbeyond => ?cqBeyond⟩,
    fun hopen hoff => ⟨congrArg _ (doorbellProducer_disabled hopen hoff), congrArg _ (doorbellCq_disabled hopen hoff)⟩,
    fun hfrozen => ⟨congrArg _ (doorbellProducer_frozen hfrozen ring v), congrArg _ (doorbellCq_frozen hfrozen ring v)⟩,
    ringReady_halted⟩
  case taken => exact congrArg _ (doorbellProducer_taken hopen hon (dbCompare_newer h0 h31) hroom)
  case cqTaken => exact congrArg _ (doorbellCq_taken hopen hon (dbCompare_newer h0 h31) hposted)
  case same => exact congrArg _ (doorbellProducer_same hopen hon (dbCompare_same h))
  case cqSame => exact congrArg _ (doorbellCq_same hopen hon (dbCompare_same h))
  case stale => exact congrArg _ (doorbellProducer_stale hopen hon (dbCompare_stale h))
  case cqStale => exact congrArg _ (doorbellCq_stale hopen hon (dbCompare_stale h))
  case overflow => exact congrArg _ (doorbellProducer_overflow hopen hon (dbCompare_newer h0 h31) hover)
  case cqBeyond => exact congrArg _ (doorbellCq_beyond hopen hon (dbCompare_newer h0 h31) hbeyond)

end Sys2Proof.Machine
end

section
/-! PROOFS. The words of tile instructions (R130, R131, R137): a field of a concatenation, the OP byte of a mnemonic, and from them
that splitting the word of a well-formed instruction gives the instruction back. -/

namespace Sys2Proof.Machine

/-! ### A field of a concatenation -/

section Append
variable {m n : Nat} (x : BitVec m) (y : BitVec n) {start len : Nat}

/-- A field that lies in the lower part is that part's field. -/
theorem extract_append_low (h : start + len ≤ n) : (x ++ y).extractLsb' start len = y.extractLsb' start len := by
  ext j hj
  have hin : start + j < n := by omega
  simp [BitVec.getLsbD_append, hin]

/-- A field that lies in the upper part is that part's field, counted from its own bit 0. -/
theorem extract_append_high (h : n ≤ start) : (x ++ y).extractLsb' start len = x.extractLsb' (start - n) len := by
  ext j hj
  have hout : ¬ start + j < n := by omega
  have hsub : start + j - n = start - n + j := by omega
  simp [BitVec.getLsbD_append, hout, hsub]

theorem getLsbD_append_low (h : start < n) : (x ++ y).getLsbD start = y.getLsbD start := by
  rw [BitVec.getLsbD_append, if_pos h]

theorem getLsbD_append_high (h : n ≤ start) : (x ++ y).getLsbD start = x.getLsbD (start - n) := by
  rw [BitVec.getLsbD_append, if_neg (Nat.not_lt.mpr h)]

end Append

theorem getLsbD_ofBool_zero (b : Bool) : (BitVec.ofBool b).getLsbD 0 = b := by cases b <;> rfl

/-! ### The OP byte and the parts of a word -/

/-- R137: no two mnemonics share an OP byte. -/
theorem opOf_opCode (o : TOp) : opOf (opCode o) = some o := by cases o <;> rfl

/-- R130: the low 12 bits of a word, whatever its form. -/
def wordLow (i : TileWord) : BitVec 12 := BitVec.ofBool i.pn ++ i.pg ++ opCode i.op

/-- R131: the bits above the low 12. -/
def wordHigh : TArgs → BitVec 52
  | .g d a b c fn => 0#20 ++ fn ++ c ++ b ++ a ++ d
  | .i d a fn imm => imm ++ fn ++ a ++ d
  | .m aact awgt ashd row0 mRows ksteps acc wfmt afmt shdEn =>
    0#19 ++ BitVec.ofBool shdEn ++ afmt ++ wfmt ++ BitVec.ofBool acc ++ ksteps ++ mRows ++ row0 ++ ashd ++ awgt ++ aact

theorem tileEncode_eq (i : TileWord) : tileEncode i = wordHigh i.args ++ wordLow i := by
  obtain ⟨op, pg, pn, args⟩ := i
  cases args <;> rfl

section Low
variable (i : TileWord) (hi : BitVec 52)

theorem wordLow_op : (hi ++ wordLow i).extractLsb' 0 8 = opCode i.op := by
  simp (disch := omega) only [wordLow, extract_append_low, BitVec.extractLsb'_eq_self]

theorem wordLow_pg : (hi ++ wordLow i).extractLsb' 8 3 = i.pg := by
  simp (disch := omega) only [wordLow, extract_append_low, extract_append_high, Nat.sub_self, BitVec.extractLsb'_eq_self]

theorem wordLow_pn : (hi ++ wordLow i).getLsbD 11 = i.pn := by
  simp (disch := omega) only [wordLow, getLsbD_append_low, getLsbD_append_high, Nat.reduceSub, getLsbD_ofBool_zero]

end Low

/-- The form that operands are written in. -/
def argsForm : TArgs → TForm
  | .g .. => .g
  | .i .. => .i
  | .m .. => .m

/-- R137: a well-formed instruction has the operands of its mnemonic's form. -/
theorem opForm_of_wf {i : TileWord} (h : i.wf = true) : opForm i.op = argsForm i.args := by
  unfold TileWord.wf tileFormOk at h
  split at h <;> simp_all [argsForm]

/-- R131: the fields of a word are the operands that its upper part was made of. -/
theorem formFields_wordHigh (i : TileWord) (h : i.wf = true) :
    formFields (opForm i.op) (wordHigh i.args ++ wordLow i) = i.args := by
  rw [opForm_of_wf h]
  cases i.args with
  | g d a b c fn =>
    simp (disch := omega) only [argsForm, formFields, wordHigh, extract_append_high, extract_append_low, Nat.reduceSub,
      BitVec.extractLsb'_eq_self]
  | i d a fn imm =>
    simp (disch := omega) only [argsForm, formFields, wordHigh, extract_append_high, extract_append_low, Nat.reduceSub,
      BitVec.extractLsb'_eq_self]
  | m aact awgt ashd row0 mRows ksteps acc wfmt afmt shdEn =>
    simp (disch := omega) only [argsForm, formFields, wordHigh, extract_append_high, extract_append_low, Nat.reduceSub,
      BitVec.extractLsb'_eq_self, getLsbD_append_high, getLsbD_append_low, getLsbD_ofBool_zero]

/-! ### The statement -/

theorem tileSplit_tileEncode (i : TileWord) (h : i.wf = true) : tileSplit (tileEncode i) = some i := by
  rw [tileEncode_eq, tileSplit, wordLow_op, opOf_opCode, wordLow_pg, wordLow_pn, Option.map_some, formFields_wordHigh i h]

/-- Settles O32: each field is read back from the place where the encoder put it, and a word that R132 allows is decoded to what
it splits into. -/
theorem tileWordRoundTrip : Obligations.TileWordRoundTrip := by
  intro i h
  have hsplit := tileSplit_tileEncode i h
  exact ⟨hsplit, fun hlegal => by simp only [tileDecode, hlegal, hsplit]⟩

end Sys2Proof.Machine
end

section
/-! PROOFS. The step (R14, R227, R248 to R250, R568; log entries 1, 2 and 4): every command answers a next state, reset, and what
10 ns of the reference change. -/

namespace Sys2Proof.Machine

/-! ### Every command answers a next state -/

theorem collTake_goes (typ ph : Nat) (f : Nat → Coll → Nat → Nat → List Byte → State → State) (s : State) :
    Goes (collTake typ ph f s) := by
  simp only [collTake]
  repeat' split
  all_goals exact ⟨_, rfl⟩

/-- Most arms are a next state as they stand; those listed choose between several. -/
theorem exec_goes (c : Instr) (s : State) : Goes (exec c s) := by
  cases c
  case collRsSegment | collAgSegment | collRowCount | collGrant | collRowData | collReadyGrant | mcWriteReceived =>
    unfold exec
    simp only [execCollRsSegment, execCollAgSegment, execCollRowCount, execCollGrant, execCollRowData, execCollReadyGrant,
      execMcWriteReceived, collTake_goes]
  case matrixOpDone | accrdDone | vectorOpDone | responseReceived | signalIncrementApplied | waitfPoll | atomReturn | endDrainDone
    | tileHalted | tileClearDone | drillStartAdmit | kernelTileReserve | cmdTrim | bindingActivate | walkerCreditPoll
    | pageSiftSelect | walkerSlotDeliver | gleanerBlockVisit | hbmAccess | rrcFillReturn | periodStart | groupSlot | groupReceived
    | packetArrival | headlandMove | linkDownHoldExpire | colQuotaWrite | colSlotsWrite | residueCheckResult | logSelWrite
    | icacheFillDone | cremaCompareDone | cremaEscalationDone | collAdmit | topoProbeReceived | topoReplyReceived
    | powerCycleReportTimer | colGroupUndefine | groupDefineDone | revokeToRootReceived | revokeReceived =>
    unfold exec
    simp only [execMatrixOpDone, execAccrdDone, execVectorOpDone, execResponseReceived, execSignalIncrementApplied,
      execWaitfPoll, execAtomReturn, execEndDrainDone, execTileHalted, execTileClearDone, execDrillStartAdmit,
      execKernelTileReserve, execCmdTrim, execBindingActivate, execWalkerCreditPoll, execPageSiftSelect, execWalkerSlotDeliver,
      execGleanerBlockVisit, execHbmAccess, execRrcFillReturn, execPeriodStart, execGroupSlot, execGroupReceived,
      execPacketArrival, execHeadlandMove, execLinkDownHoldExpire, execColQuotaWrite, execColSlotsWrite,
      execResidueCheckResult, execLogSelWrite, execIcacheFillDone, execCremaCompareDone, execCremaEscalationDone,
      execCollAdmit, execTopoProbeReceived, execTopoReplyReceived, execPowerCycleReportTimer, execColGroupUndefine,
      execGroupDefineDone, execRevokeToRootReceived, execRevokeReceived]
    repeat' split
    all_goals exact ⟨_, rfl⟩
  all_goals exact ⟨_, rfl⟩

/-! ### Folds over the state -/

/-- What each step of a fold leaves unchanged, the fold leaves unchanged. -/
theorem foldl_keeps {α β : Type} {f : State → α → State} {g : State → β} (h : ∀ s a, g (f s a) = g s) (l : List α) (s : State) :
    g (l.foldl f s) = g s := by
  induction l generalizing s with
  | nil => rfl
  | cons a l ih => rw [List.foldl_cons, ih, h]

/-! ### What a tick's counters leave unchanged -/

/-- The state with all taken out that the counters of a tick change: registers, what was counted in this cycle, free values, links,
cycles and the power controller. -/
def countMask (s : State) : State := { s with regs := [], sameCyc := [], freeCtr := 0, links := [], cyc := [], pwr := {} }

@[simp] theorem countMask_bump (f : Fld) (n : Nat) (s : State) : countMask (bump f n s) = countMask s := by unfold countMask; rfl
@[simp] theorem countMask_tick1 (s : State) : countMask (tick1 s) = countMask s := by unfold countMask; rfl
@[simp] theorem countMask_modL (l : Nat) (f : Link → Link) (s : State) : countMask (modL l f s) = countMask s := by
  unfold countMask; rfl
@[simp] theorem countMask_modP (f : Pwr → Pwr) (s : State) : countMask (modP f s) = countMask s := by unfold countMask; rfl
@[simp] theorem countMask_tickDies (s : State) : countMask (tickDies s) = countMask s := by unfold countMask; rfl
@[simp] theorem countMask_tickEase (s : State) : countMask (tickEase s) = countMask s := by unfold countMask; rfl

theorem countMask_ite {p : Prop} [Decidable p] {s x y : State} (hx : countMask x = countMask s) (hy : countMask y = countMask s) :
    countMask (if p then x else y) = countMask s := by split <;> assumption

@[simp] theorem countMask_tickTile (s : State) (e : Nat × Tile) : countMask (tickTile s e) = countMask s := by
  refine countMask_ite ((countMask_bump ..).trans ?_) ?_ <;>
    exact countMask_ite ((countMask_bump ..).trans (countMask_ite ((countMask_bump ..).trans (countMask_bump ..)) (countMask_bump ..)))
      (countMask_ite ((countMask_bump ..).trans (countMask_bump ..)) (countMask_bump ..))

@[simp] theorem countMask_tickWalker (s : State) (w : Nat) : countMask (tickWalker s w) = countMask s :=
  countMask_ite (countMask_bump ..) rfl

@[simp] theorem countMask_tickLink (s : State) (l : Nat) : countMask (tickLink s l) = countMask s :=
  countMask_ite ((countMask_bump ..).trans (countMask_modL ..)) (countMask_modL ..)

@[simp] theorem countMask_tickFence (s : State) : countMask (tickFence s) = countMask s :=
  countMask_ite rfl (countMask_bump ..)

@[simp] theorem countMask_fecHalf (s : State) (h : Nat) : countMask (fecHalf s h) = countMask s := by
  refine countMask_ite ?_ rfl
  split
  · exact (countMask_tick1 _).trans (countMask_bump ..)
  · exact (countMask_tick1 _).trans (countMask_bump ..)
  · exact countMask_tick1 s

@[simp] theorem countMask_tickFec (s : State) : countMask (tickFec s) = countMask s :=
  countMask_ite (foldl_keeps countMask_fecHalf _ s) rfl

@[simp] theorem countMask_collWaiting (n : Nat) (s : State) : countMask (collWaiting n s) = countMask s :=
  countMask_ite rfl (countMask_bump ..)

@[simp] theorem countMask_sampleReasons (s : State) : countMask (sampleReasons s) = countMask s :=
  countMask_ite rfl (countMask_modP ..)

/-- Two states that agree but for the mask agree in every field that the mask keeps. -/
theorem countMask_eq {α : Type} {s t : State} (f : State → α) (hf : ∀ u, f (countMask u) = f u)
    (h : countMask s = countMask t) : f s = f t := by
  rw [← hf s, ← hf t, h]

/-- The counters of a tick change nothing but what the mask takes out. -/
theorem countMask_tickCount (s : State) : countMask (tickCount s) = countMask s := by
  unfold tickCount
  extract_lets s1 s2 s3 s4
  have h1 : countMask s1 = countMask s := foldl_keeps countMask_tickTile _ s
  have h2 : countMask s2 = countMask s1 := by unfold countMask; rfl
  have h3 : countMask s3 = countMask s2 := foldl_keeps countMask_tickWalker _ s2
  have h4 : countMask s4 = countMask s3 := foldl_keeps countMask_tickLink _ s3
  have hlast (u : State) : countMask { u with sameCyc := [] } = countMask u := by unfold countMask; rfl
  refine (hlast (tickEase (sampleReasons (tickDies (collWaiting 10 (tickFence (tickFec s4))))))).trans ?_
  simp only [countMask_tickEase, countMask_sampleReasons, countMask_tickDies, countMask_collWaiting, countMask_tickFence,
    countMask_tickFec, h4, h3, h2, h1]

/-! ### The time base (R248 to R250) -/

/-- The time base's part of a tick changes the time base, the slew and its flag, and takes a free value. -/
theorem tickTime_eq (s : State) : ∃ r p n, tickTime s = { s with
    tb := s.tb + (s.tbFrac + (1000000000 + (tickRate s).1).toNat) / 100000000
    tbFrac := (s.tbFrac + (1000000000 + (tickRate s).1).toNat) % 100000000
    regs := r, ptp := p, freeCtr := n } := by
  unfold tickTime
  dsimp only
  split <;> exact ⟨_, _, _, rfl⟩

theorem tickRings_empty {s : State} (h : s.rings = []) : tickRings s = s := by rw [tickRings, h, List.foldl_nil]

/-! ### The router with no packet waiting -/

theorem pickPacket_nil (ok : Packet → Bool) (s : State) (x : Arb) : pickPacket ok [] s x = none := by
  simp [pickPacket, partReady]

theorem serveLocal_empty {s : State} (h : s.outQ = []) (o n : Nat) : serveLocal o n s = s := by
  cases n with
  | zero => rfl
  | succ n => simp only [serveLocal, h, smLook, pickPacket_nil]

theorem tickHeads_empty {s : State} (h : s.outQ = []) : tickHeads s = s := by
  rw [tickHeads, h, List.map_nil, ← h]

theorem tickRouter_empty {s : State} (h : s.outQ = []) : tickRouter s = if hubOn s then tick1 s else s := by
  have h1 : (tick1 s).outQ = [] := h
  simp only [tickRouter, tickHeads_empty h, tickLocal, serveLocal_empty h1]

theorem freezeLimit_open {s : State} (h : s.frozen = false) : freezeLimit s = s := by simp [freezeLimit, h]

/-! ### The statements -/

/-- Settles O1: a step takes the front of the queue. -/
theorem stepTakesFront : Obligations.StepTakesFront := fun _ _ _ => rfl

theorem step_tick {s : State} (hq : s.pending = []) : step s = .next (tick s) := by rw [step, hq]

/-- With no ring listed, no packet waiting and no freeze, a tick keeps what neither the time base nor the counters change. -/
theorem tick_quiet {s : State} (hon : s.powered = true) (hopen : s.frozen = false) (hrings : s.rings = []) (hout : s.outQ = []) :
    ∃ u, tick s = u ∧ countMask u = countMask (tickTime s) := by
  obtain ⟨r, p, n, ht⟩ := tickTime_eq s
  have hrings' : (tickTime s).rings = [] := by rw [ht]; exact hrings
  have hout' : (tickTime s).outQ = [] := by rw [ht]; exact hout
  have hopen' : (tickTime s).frozen = false := by rw [ht]; exact hopen
  have hrouter : countMask (tickRouter (tickTime s)) = countMask (tickTime s) := by
    rw [tickRouter_empty hout']; exact countMask_ite (countMask_tick1 _) rfl
  have hcount : countMask (tickCount (tickRouter (tickTime s))) = countMask (tickTime s) :=
    (countMask_tickCount _).trans hrouter
  have hfrozen : (tickCount (tickRouter (tickTime s))).frozen = false :=
    (countMask_eq State.frozen (fun _ => rfl) hcount).trans hopen'
  exact ⟨_, by rw [tick, if_pos hon, tickRings_empty hrings', freezeLimit_open hfrozen], hcount⟩

/-- Settles O2: the arms of `exec` for the commands, and for a tick what its parts leave unchanged. -/
theorem resetAndIdle : Obligations.ResetAndIdle := by
  refine ⟨exec_goes, ⟨rfl, rfl, rfl, fun _ => rfl, fun _ => rfl, fun _ => rfl, fun _ => rfl, fun _ => rfl, fun _ => rfl⟩,
    fun s => ⟨fun hq hoff => ?off, fun hq hon => ?on, ?time, fun hq hon hopen hrings hout => ?quiet⟩⟩
  case off => simp [step_tick hq, tick, hoff]
  case on => simp [step_tick hq, tick, hon]
  case time =>
    obtain ⟨r, p, n, ht⟩ := tickTime_eq s
    rw [ht]
    exact ⟨Nat.le_add_right _ _, rfl, rfl⟩
  case quiet =>
    obtain ⟨r, p, n, ht⟩ := tickTime_eq s
    obtain ⟨u, hu, hmask⟩ := tick_quiet hon hopen hrings hout
    have key {α : Type} (g : State → α) (hg : ∀ v, g (countMask v) = g v) : g u = g (tickTime s) := countMask_eq g hg hmask
    refine ⟨u, by rw [step_tick hq, hu], key State.tb fun _ => rfl, (key State.hbm fun _ => rfl).trans (by rw [ht]),
      (key State.rings fun _ => rfl).trans (by rw [ht]; exact hrings), (key State.tiles fun _ => rfl).trans (by rw [ht]),
      (key State.flash fun _ => rfl).trans (by rw [ht])⟩

end Sys2Proof.Machine
end

section
/-! PROOFS. The registers of a tile (R126), MFSR (R140), and scalar arithmetic and comparison (R142). -/

namespace Sys2Proof.Machine

/-! ### The register files (R126) -/

@[simp] theorem rdS_zero (x : Tile) : rdS x 0 = 0 := rfl
@[simp] theorem rdP_zero (x : Tile) : rdP x 0 = true := rfl
@[simp] theorem wrS_zero (x : Tile) (v : B64) : wrS x 0 v = x := rfl
@[simp] theorem wrP_zero (x : Tile) (b : Bool) : wrP x 0 b = x := rfl

theorem wrS_s {i : Nat} (h : i ≠ 0) (x : Tile) (v : B64) : (wrS x i v).s = smPut 0 x.s i v := by
  rw [wrS, wrSAt, if_neg h]

theorem rdS_wrS {i : Nat} (h : i ≠ 0) (x : Tile) (j : Nat) (v : B64) : rdS (wrS x i v) j = if j = i then v else rdS x j := by
  simp only [rdS, wrS_s h, smLook_smPut]
  by_cases hj : j = 0
  · subst hj; simp [Ne.symm h]
  · simp [hj]

theorem wrP_p {i : Nat} (h : i ≠ 0) (x : Tile) (b : Bool) :
    (wrP x i b).p = if b then x.p ||| (1#8 <<< i) else x.p &&& ~~~(1#8 <<< i) := by
  rw [wrP, if_neg h]

theorem getLsbD_one_shiftLeft {i : Nat} (h : i < 8) (j : Nat) : (1#8 <<< i).getLsbD j = decide (j = i) := by
  by_cases hij : j = i
  · subst hij; simp [h]
  · rcases Nat.lt_or_gt_of_ne hij with hlt | hgt
    · simp [hij, hlt]
    · have hsub : j - i ≠ 0 := by omega
      simp [hij, hsub]

theorem rdP_wrP {i : Nat} (h0 : i ≠ 0) (h8 : i < 8) (x : Tile) (j : Nat) (b : Bool) :
    rdP (wrP x i b) j = if j = i then b else rdP x j := by
  by_cases hj : j = 0
  · subst hj; simp [Ne.symm h0]
  · simp only [rdP, hj, if_false, wrP_p h0]
    by_cases hij : j = i
    · subst hij; cases b <;> simp [h8]
    · cases b <;> simp [getLsbD_one_shiftLeft h8, hij]
      intro hlt; exact BitVec.lt_of_getLsbD hlt

theorem rdA_wrA (x : Tile) (i j : Nat) (v : B64) : rdA (wrA x i v) j = if j = i then v else rdA x j := smLook_smPut ..

theorem rdV_wrV (x : Tile) (i j : Nat) (v : BitVec 4096) : rdV (wrV x i v) j = if j = i then v else rdV x j := smLook_smPut ..

/-! ### MFSR (R140) -/

/-- A ready MFSR ends as it issued, with its timestamp noted. -/
theorem afterIssue_mfsr (t : Nat) {w : TileWord} (old : Tile) (s : State) (h : w.op = .mfsr) :
    afterIssue t w old s = stampUse .arith s := by
  have hstore : checkStore t w old (stampUse .arith s) = (none, stampUse .arith s) := by simp [checkStore, h]
  simp [afterIssue, h, newReads, checkReads, hstore]

theorem exec_mfsr {t : TileId} {k : Kernel} {w : B64} {i : TileWord} {s : State} {d a : BitVec 6} {fn : BitVec 8} {imm : BitVec 32}
    (h : TileReady .mfsr t k w i s) (hi : i.args = .i d a fn imm) : exec (.mfsr t) s =
      .next (stampUse .arith (issued t (fun x => wrS x d.toNat (specialReg (tileEnv t k w s) x imm.toNat)) s)) := by
  have hgo : issMfsr (tileEnv t k w s) i (getT t s) =
      .go (retire (wrS (getT t s) d.toNat (specialReg (tileEnv t k w s) (getT t s) imm.toNat))) := by simp only [issMfsr, hi]
  exact congrArg _ ((issueAt_lift h rfl hgo).trans (afterIssue_mfsr _ _ _ h.isOp))

/-- R140: the special values by their numbers. -/
theorem specialReg_eq (t : Nat) (k : Kernel) (w : B64) (s : State) (n : Nat) (hn : n ≤ 9) :
    specialReg (tileEnv t k w s) (getT t s) n = BitVec.ofNat 64
      ([(getT t s).logical, k.count, t, ownChip s % 32768, stampVal .arith s, cycleOf (tileDie t) s - (getT t s).startCyc,
        k.arg, (getT t s).ctx, (getT t s).lfsr.toNat, (getT t s).prec.toNat].getD n 0) := by
  match n, hn with
  | 8, _ => exact (BitVec.ofNat_toNat 64 _).symm
  | 9, _ => exact (BitVec.ofNat_toNat 64 _).symm ▸ (BitVec.setWidth_eq _).symm
  | 0, _ | 1, _ | 2, _ | 3, _ | 4, _ | 5, _ | 6, _ | 7, _ => rfl

/-- Settles O3: the read laws of each register file, and MFSR writes the special value that IMM names. -/
theorem registerFiles : Obligations.RegisterFiles := by
  refine ⟨fun t k w i s d a fn imm h hi hn => ?mfsr, fun x v => ⟨rdS_zero x, wrS_zero x v⟩, fun x b => ⟨rdP_zero x, wrP_zero x b⟩,
    fun x i j v hi => rdS_wrS hi x j v, fun x i j b h0 h8 => rdP_wrP h0 h8 x j b, rdA_wrA, rdV_wrV⟩
  case mfsr =>
    rw [exec_mfsr h hi]
    simp only [issued, specialReg_eq _ _ _ _ _ hn]

/-! ### Scalar arithmetic and comparison (R142) -/

section Values
variable (a b : B64)

theorem shiftAmount_eq : (b.extractLsb' 0 6).toNat = b.toNat % 64 := by simp

theorem ite_slt_min : (if a.slt b then a else b).toInt = min a.toInt b.toInt := by
  rw [BitVec.slt_eq_decide]; by_cases h : a.toInt < b.toInt <;> simp [h] <;> omega

theorem ite_slt_max : (if a.slt b then b else a).toInt = max a.toInt b.toInt := by
  rw [BitVec.slt_eq_decide]; by_cases h : a.toInt < b.toInt <;> simp [h] <;> omega

theorem ite_ult_min : (if a.ult b then a else b).toNat = min a.toNat b.toNat := by
  rw [BitVec.ult_eq_decide]; by_cases h : a.toNat < b.toNat <;> simp [h] <;> omega

theorem ite_ult_max : (if a.ult b then b else a).toNat = max a.toNat b.toNat := by
  rw [BitVec.ult_eq_decide]; by_cases h : a.toNat < b.toNat <;> simp [h] <;> omega

theorem shiftLeft_toNat (n : Nat) : (a <<< n).toNat = a.toNat * 2 ^ n % 2 ^ 64 := by
  rw [BitVec.toNat_shiftLeft, Nat.shiftLeft_eq]

theorem ushiftRight_toNat (n : Nat) : (a >>> n).toNat = a.toNat / 2 ^ n := by
  rw [BitVec.toNat_ushiftRight, Nat.shiftRight_eq_div_pow]

theorem sshiftRight_toInt (n : Nat) : (a.sshiftRight n).toInt = a.toInt / 2 ^ n := by
  rw [BitVec.toInt_sshiftRight, Int.shiftRight_eq_div_pow]; rfl

theorem beq_toNat : (a == b) = decide (a.toNat = b.toNat) := by
  rw [Bool.eq_iff_iff, beq_iff_eq, decide_eq_true_iff, BitVec.toNat_inj]

theorem bne_toNat : (a != b) = decide (a.toNat ≠ b.toNat) := by
  rw [bne, beq_toNat, decide_not]

theorem not_slt : (!a.slt b) = decide (b.toInt ≤ a.toInt) := by
  simp only [BitVec.slt_eq_decide, ← decide_not, Int.not_lt]

theorem not_ult : (!a.ult b) = decide (b.toNat ≤ a.toNat) := by
  simp only [BitVec.ult_eq_decide, ← decide_not, Nat.not_lt]

end Values

/-- Settles O4: each form is an instruction on registers, and each integer function by the value of its operands. -/
theorem scalarArithmetic : Obligations.ScalarArithmetic := by
  refine ⟨fun t k w i s => ⟨fun d a b c fn hi => ⟨fun h => ?alu, fun h => ?cmp, fun h => ?plog, fun h => ?fpu, fun h => ?fcmp⟩,
    fun d a fn imm hi => ⟨fun h => ?alui, fun h => ?cmpi⟩⟩, fun a b => ?values⟩
  case alu => exact exec_onRegisters h rfl rfl (by simp only [issAlu, hi])
  case cmp => exact exec_onRegisters h rfl rfl (by simp only [issCmp, hi])
  case plog => exact exec_onRegisters h rfl rfl (by simp only [issPlog, hi])
  case fpu => exact exec_onRegisters h rfl rfl (by simp only [issFpu, hi])
  case fcmp => exact exec_onRegisters h rfl rfl (by simp only [issFcmp, hi])
  case alui => exact exec_onRegisters h rfl rfl (by simp only [issAlui, hi])
  case cmpi => exact exec_onRegisters h rfl rfl (by simp only [issCmpi, hi])
  case values =>
    have hsh := shiftAmount_eq b
    simp only [aluFn, cmpFn, hsh]
    exact ⟨BitVec.toNat_add .., (BitVec.toNat_sub ..).trans (by rw [Nat.add_comm]),
      fun n hn => ⟨BitVec.getLsbD_and, BitVec.getLsbD_or, BitVec.getLsbD_xor⟩, shiftLeft_toNat .., ushiftRight_toNat ..,
      sshiftRight_toInt .., BitVec.toNat_mul .., ite_slt_min .., ite_slt_max .., ite_ult_min .., ite_ult_max .., beq_toNat ..,
      bne_toNat .., BitVec.slt_eq_decide .., not_slt .., BitVec.ult_eq_decide .., not_ult ..⟩

end Sys2Proof.Machine
end

section
/-! PROOFS. Little-endian bytes, LD and ST (R12, R127, R144). -/

namespace Sys2Proof.Machine

/-! ### Little-endian bytes (R12) -/

@[simp] theorem length_leBytes (n v : Nat) : (leBytes n v).length = n := by
  induction n generalizing v with
  | zero => rfl
  | succ n ih => rw [leBytes, List.length_cons, ih]

theorem getD_leBytes {n k : Nat} (h : k < n) (v : Nat) : (leBytes n v).getD k 0 = BitVec.ofNat 8 (v / 256 ^ k) := by
  induction n generalizing k v with
  | zero => omega
  | succ n ih =>
    cases k with
    | zero => simp [leBytes]
    | succ k =>
      rw [leBytes, List.getD_cons_succ, ih (Nat.lt_of_succ_lt_succ h), Nat.div_div_eq_div_mul, Nat.pow_succ']

/-! ### Instructions with effects on their own tile -/

/-- The instructions that read scratchpad bytes at issue, write them at issue, or use up a timestamp. -/
def looksAtIssue : TOp → Bool
  | .ld | .st | .vld | .vdq | .mmul | .qmmul | .mfsr => true
  | _ => false

theorem newReads_of_not_looks {w : TileWord} (h : looksAtIssue w.op = false) (old new : Tile) : newReads w old new = [] := by
  obtain ⟨op, pg, pn, args⟩ := w
  cases op <;> simp [looksAtIssue, newReads] at h ⊢

section Lift
variable {op : TOp} {t : TileId} {k : Kernel} {w : B64} {i : TileWord} {s : State} {f : TEnv → TileWord → Tile → TIss} {x : Tile}

/-- A ready instruction that looks at nothing of the module as it issues leaves the tile as its meaning says. -/
theorem exec_lift_own (h : TileReady op t k w i s) (hlooks : looksAtIssue op = false) (hf : opRun op = liftTile f)
    (hx : f (tileEnv t k w s) i (getT t s) = .go x) : exec (issueEvent op t) s = .next (setT t x s) := by
  rw [← h.isOp] at hlooks
  have hend : afterIssue t i (getT t s) (setT t x s) = setT t x s :=
    afterIssue_noReads t i _ _ (newReads_of_not_looks hlooks _ _) (fun hop => by simp [hop, looksAtIssue] at hlooks)
      (fun hop => by simp [hop, looksAtIssue] at hlooks)
  rw [exec_issueEvent, issueAt_lift h hf hx, hend]

/-- A ready instruction that leaves a clean scratchpad leaves the tile as its meaning says. -/
theorem exec_lift_clean (h : TileReady op t k w i s) (hm : op ≠ .mfsr) (hclean : x.spErr = []) (hf : opRun op = liftTile f)
    (hx : f (tileEnv t k w s) i (getT t s) = .go x) : exec (issueEvent op t) s = .next (setT t x s) := by
  have hend : afterIssue t i (getT t s) (setT t x s) = setT t x s :=
    afterIssue_clean t i _ _ (by rw [getT_setT, if_pos rfl, hclean]) (by rw [h.isOp]; exact hm)
  rw [exec_issueEvent, issueAt_lift h hf hx, hend]

end Lift

/-! ### Scratchpad offsets (R127, R144) -/

theorem natCast_ldSize (n : Nat) : (ldSize n : Int) = 2 ^ (n % 4) := Int.natCast_pow ..

section Offset
variable {x : B64} {imm : BitVec 32} {n : Nat} (hlow : x.extractLsb' 21 11 = 0) (hhigh : x.extractLsb' 52 12 = 0)
include hlow hhigh

theorem spOffset_ok {o : Nat} (ho : (o : Int) = (x.extractLsb' 0 21).toNat + imm.toInt) (hin : o + n ≤ spSize) :
    spOffset x imm n = .ok o := by
  have hcond : ¬ ((o : Int) < 0 ∨ (spSize : Int) < o + n) := by omega
  simp only [spOffset, spPtr, hlow, hhigh, and_self, if_true, ← ho, hcond, if_false, Int.toNat_natCast]

theorem spOffset_error {z : Int} (hz : z = (x.extractLsb' 0 21).toNat + imm.toInt) (hout : z < 0 ∨ (spSize : Int) < z + n) :
    spOffset x imm n = .error (BitVec.ofInt 64 z).toNat := by
  simp only [spOffset, spPtr, hlow, hhigh, and_self, if_true, ← hz, hout]

end Offset

/-! ### Scratchpad bytes after a store -/

theorem spPut_sp (x : Tile) (o : Nat) (l : List Byte) : (spPut x o l).sp = smPutList 0 x.sp o l := by
  unfold spPut
  cases l <;> rfl

/-- A stored byte is that byte of the value, and every other byte of the scratchpad is as it was. -/
theorem smLook_spPut_leBytes (x : Tile) (o n v b : Nat) : smLook 0 (spPut x o (leBytes n v)).sp b =
    if o ≤ b ∧ b < o + n then (leBytes n v).getD (b - o) 0 else smLook 0 x.sp b := by
  rw [spPut_sp, smLook_smPutList, length_leBytes]

/-! ### The statement -/

/-- Settles O7: inside the scratchpad LD and ST go on, outside they fault, and a store changes its own bytes alone. -/
theorem scalarLoadStore : Obligations.ScalarLoadStore := by
  intro t k w i s d a fn imm z hi hclean hlow hhigh hz
  refine ⟨fun o ho hin => ⟨fun h hfree => ?ld, fun h hfree => ⟨?st, fun n hn => ?stored, fun b hb => ?kept⟩⟩,
    fun hout v hv => ⟨fun h => ?ldOut, fun h => ?stOut⟩⟩
  case ld =>
    have hoff := spOffset_ok (n := ldSize fn.toNat) hlow hhigh (ho.trans hz) hin
    refine exec_lift_clean (op := .ld) h (by decide) ?_ rfl ?_
    rotate_left
    · simp only [issLd, hi, hoff]
      exact if_neg (by rw [ldSize, hfree]; decide)
    · simp [hclean]
  case st =>
    have hoff := spOffset_ok (n := ldSize fn.toNat) hlow hhigh (ho.trans hz) hin
    refine exec_lift_clean (op := .st) h (by decide) ?_ rfl ?_
    rotate_left
    · simp only [issSt, hi, hoff]
      exact if_neg (by rw [ldSize, hfree]; decide)
    · simp [hclean]
  case stored =>
    rw [smLook_spPut_leBytes, if_pos (by omega), Nat.add_sub_cancel_left, getD_leBytes hn]
  case kept =>
    rw [smLook_spPut_leBytes, if_neg (by omega)]
  case ldOut =>
    have hoff := spOffset_error (n := ldSize fn.toNat) hlow hhigh hz (by rw [natCast_ldSize]; exact hout)
    exact exec_lift_fault (op := .ld) h rfl (by simp only [issLd, hi, hoff, hv])
  case stOut =>
    have hoff := spOffset_error (n := ldSize fn.toNat) hlow hhigh hz (by rw [natCast_ldSize]; exact hout)
    exact exec_lift_fault (op := .st) h rfl (by simp only [issSt, hi, hoff, hv])

end Sys2Proof.Machine
end

section
/-! PROOFS. Vector instructions (R145 to R150, R154, R155): queueing in the vector engine, on registers and on the scratchpad. -/

namespace Sys2Proof.Machine

/-! ### Two changes of one entry -/

theorem smIns_smIns (m : SMap α) (k : Nat) (x y : α) : smIns (smIns m k y) k x = smIns m k x := by
  induction m with
  | nil => simp [smIns]
  | cons e m ih =>
    obtain ⟨j, v⟩ := e
    rcases Nat.lt_trichotomy k j with h | h | h
    · simp [smIns, h]
    · subst h; simp [smIns]
    · have h1 : ¬ k < j := by omega
      have h2 : ¬ k = j := by omega
      simp [smIns, h1, h2, ih]

theorem smDel_smIns (m : SMap α) (k : Nat) (y : α) : smDel (smIns m k y) k = smDel m k := by
  induction m with
  | nil => simp [smIns, smDel]
  | cons e m ih =>
    obtain ⟨j, v⟩ := e
    simp only [smDel] at ih ⊢
    rcases Nat.lt_trichotomy k j with h | h | h
    · simp [smIns, h]
    · subst h; simp [smIns]
    · have h1 : ¬ k < j := by omega
      have h2 : ¬ k = j := by omega
      simp only [smIns, h1, h2, if_false, List.filter_cons, ih]

/-- A second value written at a key replaces the first, which was not the default. -/
theorem smPut_smPut [DecidableEq α] {d y : α} (hy : y ≠ d) (m : SMap α) (k : Nat) (x : α) :
    smPut d (smPut d m k y) k x = smPut d m k x := by
  simp only [smPut, if_neg hy, smDel_smIns, smIns_smIns]

theorem setT_setT {y : Tile} (hy : y ≠ {}) (t : Nat) (x : Tile) (s : State) : setT t x (setT t y s) = setT t x s := by
  simp only [setT, smPut_smPut hy]

/-- A tile changed twice, the first change leaving it other than an unlisted tile. -/
theorem modT_setT {y : Tile} (hy : y ≠ {}) (t : Nat) (f : Tile → Tile) (s : State) : modT t f (setT t y s) = setT t (f y) s := by
  rw [modT_eq, getT_setT, if_pos rfl, setT_setT hy]

/-! ### The vector engine's queue -/

/-- The tile with `o` queued for the vector engine, past the instruction. -/
def vecPushed (o : VecOp) (x : Tile) : Tile := retire { x with vecQ := x.vecQ ++ [{ o with seq := x.retired, pc := x.pc }] }

theorem vecQueued_eq (t : Nat) (o : VecOp) (s : State) : vecQueued t o s = setT t (vecPushed o (getT t s)) s := rfl

theorem vecPushed_ne (o : VecOp) (x : Tile) : vecPushed o x ≠ {} := by
  intro h
  have hq : (vecPushed o x).vecQ = [] := congrArg Tile.vecQ h
  simp [vecPushed, retire] at hq

@[simp] theorem vecPushed_spErr (o : VecOp) (x : Tile) : (vecPushed o x).spErr = x.spErr := rfl

theorem queueVec_go {x : Tile} {o : VecOp} (hfree : lineHeld x o.reads o.wrs = false) (hroom : x.vecQ.length < 4) :
    queueVec x o = .go (vecPushed o x) := by
  simp only [queueVec, hfree, Bool.false_eq_true, if_false, Nat.not_le.mpr hroom, vecPushed]

@[simp] theorem lineHeld_nil (x : Tile) : lineHeld x [] [] = false := by simp [lineHeld, linesHit]

section Queue
variable {op : TOp} {t : TileId} {k : Kernel} {w : B64} {i : TileWord} {s : State} {f : TEnv → TileWord → Tile → TIss} {o : VecOp}

/-- A ready vector instruction on registers queues its operation. -/
theorem exec_vecRegs (hroom : (getT t s).vecQ.length < 4) (h : TileReady op t k w i s) (hlooks : looksAtIssue op = false)
    (hf : opRun op = liftTile f) (hx : f (tileEnv t k w s) i (getT t s) = queueVec (getT t s) o)
    (hr : o.reads = []) (hw : o.wrs = []) : exec (issueEvent op t) s = .next (vecQueued t o s) := by
  rw [vecQueued_eq]
  exact exec_lift_own h hlooks hf (hx.trans (queueVec_go (by rw [hr, hw, lineHeld_nil]) hroom))

end Queue

/-! ### The statements -/

/-- Settles O8: each instruction on registers queues its operation, and a pair that would end in V64 faults. -/
theorem vectorIssue : Obligations.VectorIssue := by
  rintro t k w i s d a b c fn x n z va vb vc g hi rfl hroom rfl rfl rfl rfl rfl hg
  have hlo (j : Nat) : lo32 (rdS (getT t s) j) = g j := (hg j).symm
  refine ⟨fun h => ?valu, fun h => ?vsfu, fun h => ?vbcast, fun h => ?vred, fun h => ?valus, fun h hodd hd => ?vcvtUp,
    fun r y hy hr h h1 h29 => ?smxu, fun r e f he hf h he1 he30 hf1 hf30 hz1 hz28 hr => ?smxm,
    fun h heven => ⟨fun ha => ?vcvtDown, fun ha => ?vcvtPair⟩⟩
  case valu => exact exec_vecRegs hroom h rfl rfl (by simp only [issValu, hi]) rfl rfl
  case vsfu => exact exec_vecRegs hroom h rfl rfl (by simp only [issVsfu, hi]) rfl rfl
  case vbcast => exact exec_vecRegs hroom h rfl rfl (by simp only [issVbcast, hi]) rfl rfl
  case vred => exact exec_vecRegs hroom h rfl rfl (by simp only [issVred, hi]) rfl rfl
  case valus => exact exec_vecRegs hroom h rfl rfl (by simp only [issValus, hi, hlo]) rfl rfl
  case vcvtUp =>
    have hne : ¬ fn.toNat % 2 = 0 := by omega
    exact exec_vecRegs hroom h rfl rfl (by simp only [issVcvt, hi, hne, Nat.ne_of_lt hd, if_false]) rfl rfl
  case smxu =>
    subst hy hr
    have hin : ¬ (b.toNat < 1 ∨ 29 < b.toNat) := by omega
    exact exec_vecRegs hroom h rfl rfl (by simp only [issSmxu, hi, hin, if_false, hlo]) rfl rfl
  case smxm =>
    subst he hf hr
    have hin : ¬ (a.toNat < 1 ∨ 30 < a.toNat ∨ b.toNat < 1 ∨ 30 < b.toNat ∨ d.toNat < 1 ∨ 28 < d.toNat) := by omega
    exact exec_vecRegs hroom h rfl rfl (by simp only [issSmxm, hi, hin, if_false, hlo]) rfl rfl
  case vcvtDown =>
    exact exec_vecRegs hroom h rfl rfl (by simp only [issVcvt, hi, heven, Nat.ne_of_lt ha, if_true, if_false]) rfl rfl
  case vcvtPair =>
    exact exec_lift_fault (op := .vcvt) h rfl (by simp only [issVcvt, hi, heven, ha, if_true]; rfl)

/-- Settles O9: a move that finds its lines free is queued, and VDQ and VQNT step their pointers in the tile that it leaves. -/
theorem vectorMemory : Obligations.VectorMemory := by
  rintro t k w i s x hclean rfl hroom
  refine ⟨fun d a fn imm o hi ho => ⟨fun h hfree => ?vld, fun h hfree => ?vst⟩, fun d a b c fn f n er sr hi =>
    ⟨fun h hp hfree q hq => ?vqnt, fun h hp hfree g hg => ?vdq⟩⟩
  case vld =>
    have hgo : issVld (tileEnv t k w s) i (getT t s) =
        .go (vecPushed ⟨[], [(d.toNat, ofBytes (spBytes (getT t s) o 512))], [], 0, 0, 2, [(o, 512)], [], 0, 0⟩ (getT t s)) := by
      simp only [issVld, hi, ho, hfree, Bool.false_eq_true, if_false]
      exact queueVec_go hfree hroom
    exact exec_lift_clean (op := .vld) h (by decide) hclean rfl hgo
  case vst =>
    have hgo : issVst (tileEnv t k w s) i (getT t s) =
        .go (vecPushed ⟨[], [], [(o, vBytes (rdV (getT t s) d.toNat))], 0, 0, 2, [], [(o, 512)], 0, 0⟩ (getT t s)) := by
      simp only [issVst, hi, ho]
      exact queueVec_go hfree hroom
    exact exec_lift_clean (op := .vst) h (by decide) hclean rfl hgo
  case vqnt =>
    subst hq
    rw [vecQueued_eq, modT_setT (vecPushed_ne _ _)]
    refine exec_lift_clean (op := .vqnt) h (by decide) ?_ rfl ?_
    rotate_left
    · simp only [issVqnt, hi, hp]
      rw [queueVec_go hfree hroom]
    · unfold vqAdvance; dsimp only; split <;> exact hclean
  case vdq =>
    subst hg
    rw [vecQueued_eq, modT_setT (vecPushed_ne _ _)]
    refine exec_lift_clean (op := .vdq) h (by decide) ?_ rfl ?_
    rotate_left
    · simp only [issVdq, hi, hp, hfree, Bool.false_eq_true, if_false]
      rw [queueVec_go hfree hroom]
    · unfold vqAdvance; dsimp only; split <;> exact hclean

end Sys2Proof.Machine
end

section
/-! PROOFS. Matrix instructions at issue (R97, R105, R106, R117, R121), and what a tile's DMA engine asks for and receives (R109, R153,
R236, R332). -/

namespace Sys2Proof.Machine

/-! ### Instructions that end as they issued -/

theorem exec_clean {op : TOp} {t : TileId} {k : Kernel} {w : B64} {i : TileWord} {s u : State} (h : TileReady op t k w i s)
    (hm : op ≠ .mfsr) (hclean : (getT t u).spErr = []) (hr : opRun op t (tileEnv t k w s) i s = .go u) :
    exec (issueEvent op t) s = .next u := by
  rw [exec_issueEvent, issueAt_go h hr, afterIssue_clean t i _ u hclean (by rw [h.isOp]; exact hm)]

/-- A ready instruction that looks at nothing of the scratchpad as it issues ends as it issued. -/
theorem exec_own {op : TOp} {t : TileId} {k : Kernel} {w : B64} {i : TileWord} {s u : State} (h : TileReady op t k w i s)
    (hlooks : looksAtIssue op = false) (hr : opRun op t (tileEnv t k w s) i s = .go u) : exec (issueEvent op t) s = .next u := by
  rw [← h.isOp] at hlooks
  have hend : afterIssue t i (getT t s) u = u :=
    afterIssue_noReads t i _ _ (newReads_of_not_looks hlooks _ _) (fun hop => by simp [hop, looksAtIssue] at hlooks)
      (fun hop => by simp [hop, looksAtIssue] at hlooks)
  rw [exec_issueEvent, issueAt_go h hr, hend]

/-- R131: the operands of an instruction are those of its mnemonic's form. -/
theorem args_of_split {w : B64} {i : TileWord} (h : tileSplit w = some i) : i.args = formFields (opForm i.op) w := by
  simp only [tileSplit, Option.map_eq_some_iff] at h
  obtain ⟨o, -, rfl⟩ := h
  rfl

/-! ### ACCRD (R106) -/

/-- A read-out that issues is queued behind the others; accumulators and scratchpad stay. -/
theorem issAccrd_go {e : TEnv} {w : TileWord} {x y : Tile} {aact awgt ashd row0 mRows : BitVec 4} {ks : BitVec 3} {acc : Bool}
    {wf af : BitVec 4} {sh : Bool} (hw : w.args = .m aact awgt ashd row0 mRows ks acc wf af sh) (h : issAccrd e w x = .go y) :
    ∃ o l, y = retire { x with rdQ := x.rdQ ++ [o], lfsr := l } := by
  simp only [issAccrd, hw] at h
  repeat' split at h
  all_goals cases h
  all_goals exact ⟨_, _, rfl⟩

/-! ### Matrix operations (R97, R117, R121) -/

@[simp] theorem queueMat_spErr (x : Tile) (m : MatIss) (d : Drill) : (queueMat x m d).spErr = x.spErr := by
  unfold queueMat; split <;> rfl

@[simp] theorem getT_matQueued (t : Nat) (m : MatIss) (d : Drill) (s : State) : (getT t (matQueued t m d s)).spErr = (getT t s).spErr := by
  rw [matQueued, getT_setT, if_pos rfl, queueMat_spErr]

@[simp] theorem getT_bump (t : Nat) (f : Fld) (n : Nat) (s : State) : getT t (bump f n s) = getT t s := rfl

theorem getT_drillWait (t d : Nat) (s : State) : getT t (drillWait d s) = getT t s := by
  unfold drillWait; rw [getT_bump]; split <;> rfl

theorem drillAdmit_spErr (t : Nat) (s : State) : (getT t (drillAdmit t s)).spErr = (getT t s).spErr := by
  simp only [drillAdmit, modT_eq, getT_setT, if_pos]; rfl

section Mat
variable {q : Bool} {t : TileId} {e : TEnv} {w : TileWord} {s : State} {m : MatIss} (hgo : issMat q e w (getT t s) = .go m)
  (hskip : m.skipped = false)
include hgo hskip

/-- An operation that does not start a run of the engine is queued at once. -/
theorem runMat_running (hstart : isStart t s = false) : runMat q t e w s = .go (matQueued t m .none s) := by
  simp [runMat, hgo, hstart, hskip, matQueued, modT_eq, cycleOf]

/-- A start that nothing holds back is admitted. -/
theorem runMat_admitted (hstart : isStart t s = true) (hoff : drillOffset s = 0) (hheld : getF (drillHeld (tileDie t)) s = 0)
    (hroom : drillRoom (tileDie t) s = true) : runMat q t e w s = .go (drillAdmit t (matQueued t m .none s)) := by
  simp [runMat, hgo, hstart, hskip, hoff, hheld, hroom, matQueued, modT_eq, cycleOf]

/-- A start that finds others waiting, or no room, waits for its admission. -/
theorem runMat_waits (hstart : isStart t s = true) (hoff : drillOffset s = 0)
    (hheld : getF (drillHeld (tileDie t)) s ≠ 0 ∨ drillRoom (tileDie t) s = false) :
    runMat q t e w s = .go (drillWait (tileDie t) (matQueued t m (.admission (cycleOf (tileDie t) s)) s)) := by
  have hno : ¬ (getF (drillHeld (tileDie t)) s = 0 ∧ drillRoom (tileDie t) s = true) := by
    rcases hheld with h | h <;> simp [h]
  simp [runMat, hgo, hstart, hskip, hoff, hno, hheld, matQueued, modT_eq, cycleOf]

end Mat

/-! ### The DMA engine's requests (R109, R153) -/

section Dma
variable {t : TileId} {id : Nat} {f : DmaXfer} {s : State} (hf : (getT t s).xfers.find? (·.id = id) = some f)
  (hrun : (getT t s).mode = .running) (hgoing : (getT t s).stopping = false) (hsent : f.sent = false)
  (hstarted : dmaStarted (getT t s) id = true) (hroom : f.write = true ∨ dmaOut (getT t s) < 128)
include hf hrun hgoing hsent hstarted hroom

theorem dmaTileRequest_refused (hok : addrOk (getT t s).part (dmaPiece f).1 (dmaPiece f).2.2 f.write s = false) :
    dmaTileRequest t id s = tileFault t .accessRefused f.pc (dmaPiece f).1 s := by
  have hout : (!f.write && decide (128 ≤ dmaOut (getT t s))) = false := by rcases hroom with h | h <;> simp [h]
  simp only [dmaTileRequest, hf, hrun, hgoing, hsent, hstarted, hout, hok, ne_eq, not_true_eq_false, Bool.not_true,
    Bool.false_eq_true, or_self, if_false, Bool.not_false, if_true]

theorem dmaTileRequest_read (hok : addrOk (getT t s).part (dmaPiece f).1 (dmaPiece f).2.2 f.write s = true)
    (hread : f.write = false) : dmaTileRequest t id s = (makeReq (.dma t id (dmaPiece f).2.1) .read (dmaPiece f).1 (dmaPiece f).2.2
      f.fresh (f.fence && (dmaStep f (dmaPiece f).2.2).sent) (getT t s).part
      (setT t { getT t s with xfers := (getT t s).xfers.map fun y => if y.id = id then dmaStep f (dmaPiece f).2.2 else y } s)).2 := by
  have hout : ¬ 128 ≤ dmaOut (getT t s) := by rcases hroom with h | h <;> simp_all
  rw [hread] at hok
  simp only [dmaTileRequest, hf, hrun, hgoing, hsent, hstarted, hout, hok, hread, ne_eq, not_true_eq_false, Bool.not_true,
    Bool.false_eq_true, or_self, if_false, decide_false, Bool.and_false, modT_eq]

end Dma

theorem exec_dmaRequestIssue_clean (t : TileId) (id : Nat) (s : State) :
    exec (.dmaRequestIssue (.tile t id) false) s = .next (dmaTileRequest t id s) := rfl

theorem exec_dmaRequestIssue_parity {t : TileId} {id : Nat} {s : State} (h : (dmaTileRequest t id s).nextReq ≠ s.nextReq) :
    exec (.dmaRequestIssue (.tile t id) true) s = .next (dmaTileRequest t id (dmaParity (.tile t id) s)) :=
  congrArg _ (if_pos (by rw [Bool.true_and]; exact decide_eq_true h))

theorem exec_responseReceived_dma {t : Nat} {id n sp : Nat} {s : State} {r : Req} {data : List Byte} (hr : lookO s.reqs n = some r)
    (hu : r.unit = .dma t id sp) (hst : r.stage = .done .ok data) :
    exec (.responseReceived n) s = .next (dmaTileResp t id sp r .ok data (delReq n s)) := by
  unfold exec
  simp only [execResponseReceived, hr, hst, hu]

/-! ### The statement -/

/-- Settles O10: the three ways of a matrix operation at issue, the queued read-out, and a piece asked for or refused. -/
theorem matrixAndDma : Obligations.MatrixAndDma := by
  refine ⟨?matrix, ?dma⟩
  case matrix =>
    rintro t k w i s d hclean rfl
    refine ⟨fun x hx h => ?accrd, fun m hgo hskip hstart h => ?qmmul, fun m hgo hskip h => ⟨fun hstart => ?mmul,
      fun hstart hoff => ⟨fun hheld hroom => ?admitted, fun hheld => ?waits⟩⟩⟩
    case accrd =>
      have hargs := args_of_split h.split
      rw [h.isOp] at hargs
      obtain ⟨o, l, rfl⟩ := issAccrd_go hargs hx
      exact ⟨exec_lift_own (op := .accrd) h rfl rfl hx, rfl, rfl, by simp [retire], rfl⟩
    case qmmul => exact exec_clean (op := .qmmul) h (by decide) (by simpa using hclean) (runMat_running hgo hskip hstart)
    case mmul => exact exec_clean (op := .mmul) h (by decide) (by simpa using hclean) (runMat_running hgo hskip hstart)
    case admitted =>
      exact exec_clean (op := .mmul) h (by decide) (by rw [drillAdmit_spErr]; simpa using hclean)
        (runMat_admitted hgo hskip hstart hoff hheld hroom)
    case waits =>
      exact exec_clean (op := .mmul) h (by decide) (by rw [getT_drillWait]; simpa using hclean)
        (runMat_waits hgo hskip hstart hoff hheld)
  case dma =>
    rintro t id f s x rfl hf hrun hgoing
    refine ⟨fun n r sp data hr hu hst => exec_responseReceived_dma hr hu hst, fun hsent hstarted hroom p hp => ?_,
      exec_dmaRequestIssue_parity⟩
    subst hp
    exact ⟨fun hok hread => congrArg _ (dmaTileRequest_read hf hrun hgoing hsent hstarted hroom hok hread),
      fun hok => congrArg _ (dmaTileRequest_refused hf hrun hgoing hsent hstarted hroom hok)⟩

end Sys2Proof.Machine
end

section
/-! PROOFS. The waits of a tile's program (R152, R159 to R161): DMA, SIGNAL, WAITD and WAITS. -/

namespace Sys2Proof.Machine

/-! ### Reading consecutive entries -/

@[simp] theorem length_smLookList (d : α) (m : SMap α) (x n : Nat) : (smLookList d m x n).length = n := by
  induction n generalizing x with
  | zero => rfl
  | succ n ih => rw [smLookList, List.length_cons, ih]

theorem smLookList_append (d : α) (m : SMap α) (x a b : Nat) :
    smLookList d m x a ++ smLookList d m (x + a) b = smLookList d m x (a + b) := by
  induction a generalizing x with
  | zero => simp [smLookList]
  | succ a ih =>
    have hx : x + (a + 1) = x + 1 + a := by omega
    rw [Nat.succ_add, smLookList, smLookList, List.cons_append, hx, ih]

/-- A part of consecutive entries is the entries of that part. -/
theorem sliceB_smLookList (m : SMap Byte) (x len o n : Nat) (h : o + n ≤ len) :
    sliceB (smLookList 0 m x len) o n = smLookList 0 m (x + o) n := by
  obtain ⟨r, rfl⟩ : ∃ r, len = o + (n + r) := ⟨len - o - n, by omega⟩
  rw [sliceB, ← smLookList_append, List.drop_left' (length_smLookList ..), ← smLookList_append,
    List.take_left' (length_smLookList ..)]

/-! ### Reading a scratchpad without errors (R231) -/

section Clean
variable {t : Nat} {s : State}

theorem spWord_clean (hclean : SpClean t s) (w : Nat) : spWord t w s = (some (spBytes (getT t s) (32 * w) 32), s) := by
  simp [spWord, hclean, smLook]

/-- The words from `w` on, each put behind what was read before it. -/
theorem foldl_words {f : Except Nat (List Byte) × State → Nat → Except Nat (List Byte) × State}
    (hf : ∀ l w, f (.ok l, s) w = (.ok (l ++ spBytes (getT t s) (32 * w) 32), s)) (w n : Nat) (l : List Byte) :
    ((List.range n).map fun i => w + i).foldl f (.ok l, s) = (.ok (l ++ spBytes (getT t s) (32 * w) (32 * n)), s) := by
  induction n with
  | zero => simp [spBytes, smLookList]
  | succ n ih =>
    rw [List.range_succ, List.map_append, List.foldl_append, ih, List.map_singleton, List.foldl_cons, List.foldl_nil, hf]
    simp only [spBytes, Nat.mul_add, Nat.mul_one, List.append_assoc, smLookList_append]

/-- A read gives the bytes and changes nothing. -/
theorem spRead_clean (hclean : SpClean t s) (o n : Nat) : spRead t o n s = (.ok (spBytes (getT t s) o n), s) := by
  unfold spRead wordsOf
  by_cases hn : n = 0
  · subst hn; rfl
  · rw [if_neg hn]
    dsimp only
    rw [foldl_words (t := t) fun l w => by simp only [spWord_clean hclean]]
    have hbase : 32 * (o / 32) + o % 32 = o := by omega
    simp only [List.nil_append, spBytes]
    rw [sliceB_smLookList _ _ _ _ _ (by omega), hbase]

end Clean

section Waits
variable {op : TOp} {t : TileId} {k : Kernel} {w : B64} {i : TileWord} {s : State}

/-- A ready instruction that only goes on. -/
theorem exec_retire (h : TileReady op t k w i s) (hlooks : looksAtIssue op = false)
    (hr : opRun op t (tileEnv t k w s) i s = .go (modT t retire s)) : exec (issueEvent op t) s = .next (issued t id s) :=
  exec_own h hlooks hr

/-- A ready instruction that waits changes nothing. -/
theorem exec_wait {n : Nat} (h : TileReady op t k w i s) (hr : opRun op t (tileEnv t k w s) i s = .wait n) :
    exec (issueEvent op t) s = .next s := by
  rw [exec_issueEvent, issueAt_wait h hr]

end Waits

/-! ### The events of a wait's end -/

theorem exec_waitdSatisfied (t : TileId) (s : State) : exec (.waitdSatisfied t) s = exec (.waitd t) s := rfl
theorem exec_waitsSatisfied (t : TileId) (s : State) : exec (.waitsSatisfied t) s = exec (.waits t) s := rfl

/-! ### DMA (R152) -/

theorem issDma_go {t : Nat} {e : TEnv} {w : TileWord} {s : State} {d a : BitVec 6} {fn : BitVec 8} {imm : BitVec 32}
    {p : Nat × Nat} {o : Nat} {dd : DmaDesc} (hw : w.args = .i d a fn imm) (hclean : SpClean t s)
    (hp : spPtr (rdA (getT t s) a.toNat) = some p) (ho : (o : Int) = p.1 + imm.toInt) (halign : o % 64 = 0)
    (hin : o + 64 ≤ spSize) (hfree : lineHeld (getT t s) [(o, 64)] [] = false)
    (hdesc : dmaDesc (spBytes (getT t s) o 64) = some dd) (hrange : dmaInRange dd = true)
    (hroom : (getT t s).xfers.length < 16) : issDma t e w s = .go (issued t (fun y => { y with
      xfers := y.xfers ++ [⟨y.nextXfer, fn.toNat % 8, fn.toNat / 8 % 2 = 1, fn.toNat / 16 % 2 = 1, fn.toNat / 32 % 2 = 1,
        dd, y.pc, 0, 0, 0, false, [], []⟩], nextXfer := y.nextXfer + 1 }) s) := by
  have hpos : ¬ (o : Int) < 0 := by omega
  simp only [issDma, hw, hp, ← ho, hpos, Int.toNat_natCast, halign, ne_eq, not_true_eq_false, Nat.not_lt.mpr hin, hfree,
    Bool.false_eq_true, Nat.not_le.mpr hroom, if_false, spRead_clean hclean, hdesc, hrange, Bool.not_true]
  rfl

/-! ### SIGNAL's increment (R160) -/

theorem exec_signalIncrementApplied {t : TileId} {s : State} {g : SigEntry} {l : List SigEntry} {n : Nat} (hq : (getT t s).sigQ = g :: l)
    (hk : (getT t s).kern = some n) (hgoing : (getT t s).stopping = false)
    (hdone : ((getT t s).xfers.any fun f => g.waits.contains f.id) = false) : exec (.signalIncrementApplied t) s = .next
      (modK n (fun y => { y with ctrs := smMod 0 y.ctrs g.ctr fun n => min (n + 1) (2 ^ 32 - 1) })
        (setT t { getT t s with sigQ := l } s)) := by
  unfold exec
  simp only [execSignalIncrementApplied, hq, hk, hgoing, hdone, Bool.false_eq_true, or_self, if_false]

/-- Settles O11: the two outcomes of each wait, and the queues that DMA and SIGNAL join. -/
theorem transfersAndSignals : Obligations.TransfersAndSignals := by
  rintro t k w i s x hclean rfl
  refine ⟨fun g l n hq hk hgoing hdone => exec_signalIncrementApplied hq hk hgoing hdone,
    fun d a fn imm hi => ⟨fun h b hb => ?waitd, fun h hroom => ?signal,
      fun p dd o h hp ho halign hin hfree hdesc hrange hroom => ?dma⟩,
    fun d a b c fn hi h => ⟨fun hle => ?waitsOn, fun hlt => ?waitsHeld⟩⟩
  case waitd =>
    subst hb
    rw [exec_waitdSatisfied, and_self, and_self]
    exact ⟨fun hidle => exec_retire (op := .waitd) h rfl (by simp [opRun, issWaitd, hi, hidle]),
      fun hbusy => exec_wait (op := .waitd) (n := 11) h (by simp [opRun, issWaitd, hi, hbusy])⟩
  case signal =>
    exact exec_own (op := .signal) h rfl (by simp only [opRun, issSignal, hi, Nat.not_le.mpr hroom, if_false]; rfl)
  case dma =>
    exact exec_own (op := .dma) h rfl (issDma_go hi hclean hp ho halign hin hfree hdesc hrange hroom)
  case waitsOn =>
    rw [exec_waitsSatisfied, and_self]
    exact exec_retire (op := .waits) h rfl (by simp only [opRun, issWaits, hi, hle, if_true])
  case waitsHeld =>
    exact exec_wait (op := .waits) (n := 12) h (by simp only [opRun, issWaits, hi, Nat.not_le.mpr hlt, if_false])

end Sys2Proof.Machine
end

section
/-! PROOFS. What a tile asks of the memory (R156, R157, R162): ACQ, WAITF and ATOM, the next poll and an ATOM's return. -/

namespace Sys2Proof.Machine

/-! ### Entries that may be absent -/

theorem lookO_smDel_self (m : SMap α) (k : Nat) : lookO (smDel m k) k = none := by
  rw [lookO, Option.map_eq_none_iff, List.find?_eq_none]
  intro e he
  have hne := (List.mem_filter.mp he).2
  simpa using hne

/-! ### ATOM's return (R156) -/

section Return
variable {x : Tile} {d : Nat} (hd : d ≠ 0) (seq : Nat) (v : B64)
include hd

theorem rdS_wrSAt (j : Nat) : rdS (wrSAt seq x d v) j = if j = d then v else rdS x j := by
  simp only [wrSAt, if_neg hd, rdS, smLook_smPut]
  by_cases hj : j = 0
  · subst hj; simp [Ne.symm hd]
  · simp only [hj, if_false]

/-- A write of a register supersedes earlier ones, and leaves the atomics in flight their requests. -/
theorem wrSAt_atoms_req : (wrSAt seq x d v).atoms.map (·.req) = x.atoms.map (·.req) := by
  simp only [wrSAt, if_neg hd, killS, List.map_map]
  refine List.map_congr_left fun e _ => ?_
  simp only [Function.comp_apply]
  split <;> rfl

end Return

theorem exec_atomReturn {t : TileId} {s : State} {id d : Nat} {r : Req} {a : AtomEntry} {data : List Byte}
    (hr : lookO s.reqs id = some r) (ha : (getT t s).atoms.find? (·.req = id) = some a) (hst : r.stage = .done .ok data)
    (hrd : a.rd = some d) (hlive : a.live = true) : exec (.atomReturn t id) s = .next
      (setT t (wrSAt a.seq { getT t s with atoms := (getT t s).atoms.filter fun e => e.req ≠ id } d (BitVec.ofNat 64 (leNat data)))
        (delReq id s)) := by
  unfold exec
  simp only [execAtomReturn, hr, ha, hst, hrd, hlive, if_true]

/-! ### WAITF's polls (R162) -/

section Poll
variable {t : TileId} {s : State} {f : WaitF} (hf : (getT t s).waitf = some f) (hreq : f.req = none)
  (hdue : timerDue .pollFlag t 256 s = true)
include hf hreq hdue

theorem exec_waitfPoll_ok (hok : addrOk (getT t s).part f.addr 8 false s = true) :
    exec (.waitfPoll t) s = .next (pollWaitf t f s) := by
  unfold exec
  simp [execWaitfPoll, hf, hreq, hdue, hok]

theorem exec_waitfPoll_refused (hok : addrOk (getT t s).part f.addr 8 false s = false) :
    exec (.waitfPoll t) s = .next (tileFault t .accessRefused (getT t s).pc f.addr s) := by
  unfold exec
  simp [execWaitfPoll, hf, hreq, hdue, hok]

end Poll

/-! ### ATOM (R156) -/

/-- An atomic on this module's own memory is queued at its home. -/
theorem makeReq_own {u : RUnit} {k : RKind} {g n : Nat} {fresh fence : Bool} {part : Nat} {s : State} (h : gChip g = ownChip s) :
    makeReq u k g n fresh fence part s =
      (s.nextReq, setReq s.nextReq ⟨u, k, g, n, fresh, fence, part, .queued, []⟩ { s with nextReq := s.nextReq + 1 }) := by
  have h' : gChip g = ownChip { s with nextReq := s.nextReq + 1 } := h
  simp only [makeReq, h', if_true]

/-- The request of an ATOM with function `fn` and operands `b` and `c` at `g`. -/
def atomReq (t : Nat) (fn : BitVec 8) (b c : B64) (g n part : Nat) : Req :=
  ⟨.atom t, .atomic (fn.toNat % 8) (fn.toNat / 8 % 2 = 1) (fn.toNat / 16 % 2 = 1) b c, g, n, true, false, part, .queued, []⟩

theorem issAtom_go {t : Nat} {e : TEnv} {w : TileWord} {s : State} {d a b c : BitVec 6} {fn : BitVec 8} {g n : Nat}
    (hw : w.args = .g d a b c fn) (hg : g = (rdA (getT t s) a.toNat).toNat) (hn : n = if fn.toNat / 8 % 2 = 1 then 8 else 4)
    (hlow : g < 2 ^ 55) (hchip : gChip g = ownChip s) (hend : gOff g < hbmEnd) (hback : hbmBacked (gOff g) n s = true)
    (halign : gOff g % n = 0) (hwin : winOk (getT t s).part (gOff g) n true true s = true)
    (hroom : (getT t s).atoms.length < 8) : issAtom t e w s = .go
      (setT t (retire { getT t s with atoms := (getT t s).atoms ++ [⟨s.nextReq, if fn.toNat % 8 = 0 ∨ d.toNat = 0 then none
          else some d.toNat, true, (getT t s).pc, (getT t s).retired⟩] })
        (setReq s.nextReq (atomReq t fn (rdS (getT t s) b.toNat) (rdS (getT t s) c.toNat) g n (getT t s).part)
          { s with nextReq := s.nextReq + 1 })) := by
  have h55 : ¬ g / 2 ^ 55 ≠ 0 := by omega
  simp only [issAtom, hw, ← hg, ← hn, h55, hchip, Nat.not_le.mpr hend, hback, halign, hwin, Nat.not_le.mpr hroom, ne_eq,
    not_true_eq_false, Bool.not_true, Bool.false_eq_true, or_self, if_false, makeReq_own hchip]
  rfl

/-! ### The statement -/

/-- Settles O12: the outcome of each, and what an ATOM leaves in the tile and among the requests. -/
theorem memoryInstructions : Obligations.MemoryInstructions := by
  rintro t k w i s x hclean rfl
  refine ⟨fun id r a data d hr ha hst hrd hlive hd => ?ret, fun f hf hreq hdue => ⟨exec_waitfPoll_ok hf hreq hdue,
      exec_waitfPoll_refused hf hreq hdue⟩,
    fun d a b c fn g hi hg => ⟨fun h hin => ?acq, fun h hidle halign hok => ?waitf,
      fun n h hn hlow hchip hend hback halign hwin hroom => ?atom⟩⟩
  case ret =>
    refine ⟨_, exec_atomReturn hr ha hst hrd hlive, ?_, fun j hj => ?_, ?_, ?_, rfl⟩
    · rw [getT_setT, if_pos rfl, rdS_wrSAt hd, if_pos rfl]
    · rw [getT_setT, if_pos rfl, rdS_wrSAt hd, if_neg hj]; rfl
    · rw [getT_setT, if_pos rfl, wrSAt_atoms_req hd, List.filter_map]; rfl
    · exact lookO_smDel_self _ _
  case acq =>
    subst hg
    have hok : ¬ (fn.toNat = 2 ∧ 2 ^ 40 < gOff ((rdA (getT t s) a.toNat).toNat % 2 ^ 55) + (rdS (getT t s) c.toNat).toNat) := by omega
    exact exec_own (op := .acq) h rfl (by simp only [opRun, issAcq, hi, hok, if_false])
  case waitf =>
    subst hg
    exact exec_own (op := .waitf) h rfl (by simp [opRun, issWaitf, hi, hidle, halign, hok])
  case atom =>
    refine ⟨_, exec_own (op := .atom) h rfl (issAtom_go (e := tileEnv t k w s) hi hg hn hlow hchip hend hback halign hwin hroom), rfl, ?_, rfl, ?_, ?_⟩
    · rw [getT_setT, if_pos rfl]; rfl
    · rw [getT_setT, if_pos rfl, retire, List.map_append]; rfl
    · exact lookO_putO_self _ _ _

end Sys2Proof.Machine
end

section
/-! PROOFS. Register fields and counters (R19, R37): what a count, a flag and a kernel's own counters change. -/

namespace Sys2Proof.Machine

/-! ### Fields and counters -/

/-- A counter reads back its old value and what it counted, up to all ones. -/
theorem getF_bump_self (f : Fld) (n : Nat) (s : State) : getF f (bump f n s) = min (getF f s + n) (2 ^ f.w - 1) := by
  have hpos := Nat.two_pow_pos f.w
  have h : getF f (bump f n s) = min (getF f s + n) (2 ^ f.w - 1) % 2 ^ f.w := getF_setF_self f _ s
  rw [h, Nat.mod_eq_of_lt (by omega)]

/-- A counter leaves every other field as it was. -/
theorem getF_bump_ne (f g : Fld) (n : Nat) (s : State) (h : fldKey g ≠ fldKey f) : getF g (bump f n s) = getF g s :=
  getF_setF_ne f g _ s h

theorem getF_setB_self {f : Fld} (hw : 0 < f.w) (b : Bool) (s : State) : getF f (setB f b s) = if b then 1 else 0 := by
  have h1 : 1 < 2 ^ f.w := Nat.one_lt_two_pow (by omega)
  rw [setB, getF_setF_self, Nat.mod_eq_of_lt (by split <;> omega)]

theorem getB_setB_self {f : Fld} (hw : 0 < f.w) (b : Bool) (s : State) : getB f (setB f b s) = b := by
  rw [getB, getF_setB_self hw]; cases b <;> rfl

theorem getF_setB_ne (f g : Fld) (b : Bool) (s : State) (h : fldKey g ≠ fldKey f) : getF g (setB f b s) = getF g s :=
  getF_setF_ne f g _ s h

/-- Two fields of one block lie apart as they do within the block. -/
theorem fldKey_fldAt_ne {f g : Fld} (h : fldKey f ≠ fldKey g) (base : Nat) : fldKey (fldAt f base) ≠ fldKey (fldAt g base) := by
  simp only [fldKey, fldAt, ne_eq] at h ⊢
  omega

theorem getF_congr {s t : State} (h : s.regs = t.regs) (f : Fld) : getF f s = getF f t := by rw [getF, getF, h]

@[simp] theorem getT_setF (t : Nat) (f : Fld) (v : Nat) (s : State) : getT t (setF f v s) = getT t s := rfl
@[simp] theorem getT_setB (t : Nat) (f : Fld) (b : Bool) (s : State) : getT t (setB f b s) = getT t s := rfl
@[simp] theorem bump_tiles (f : Fld) (n : Nat) (s : State) : (bump f n s).tiles = s.tiles := rfl
@[simp] theorem bump_cyc (f : Fld) (n : Nat) (s : State) : (bump f n s).cyc = s.cyc := rfl

/-! ### A kernel's own counters -/

@[simp] theorem modK_tiles (k : Nat) (f : Kernel → Kernel) (s : State) : (modK k f s).tiles = s.tiles := by
  unfold modK; split <;> rfl
@[simp] theorem modK_regs (k : Nat) (f : Kernel → Kernel) (s : State) : (modK k f s).regs = s.regs := by
  unfold modK; split <;> rfl
@[simp] theorem modK_hbm (k : Nat) (f : Kernel → Kernel) (s : State) : (modK k f s).hbm = s.hbm := by
  unfold modK; split <;> rfl

@[simp] theorem kernelCount_tiles (t : Nat) (f : PrecCounts → PrecCounts) (s : State) : (kernelCount t f s).tiles = s.tiles := by
  unfold kernelCount; split
  · exact modK_tiles ..
  · rfl
@[simp] theorem kernelCount_regs (t : Nat) (f : PrecCounts → PrecCounts) (s : State) : (kernelCount t f s).regs = s.regs := by
  unfold kernelCount; split
  · exact modK_regs ..
  · rfl
@[simp] theorem kernelCount_hbm (t : Nat) (f : PrecCounts → PrecCounts) (s : State) : (kernelCount t f s).hbm = s.hbm := by
  unfold kernelCount; split
  · exact modK_hbm ..
  · rfl

/-- Counting saturations and zeroed NaNs leaves every tile as it was. -/
theorem getT_countSat (u t q o n : Nat) (s : State) : getT u (countSat t q o n s) = getT u s := by
  simp only [countSat, getT, kernelCount_tiles, bump_tiles]

/-- It changes three of the tile's counters. -/
theorem getF_countSat {t : Nat} {f : Fld} (hq : fldKey f ≠ fldKey Reg.TILE_PREC_SAT_QUANT)
    (ho : fldKey f ≠ fldKey Reg.TILE_PREC_SAT_OUT) (hn : fldKey f ≠ fldKey Reg.TILE_PREC_NAN_ZEROED) (q o n : Nat) (s : State) :
    getF (tileF t f) (countSat t q o n s) = getF (tileF t f) s := by
  simp only [countSat]
  rw [getF_congr (kernelCount_regs ..), getF_bump_ne _ _ _ _ (fldKey_fldAt_ne hn _), getF_bump_ne _ _ _ _ (fldKey_fldAt_ne ho _),
    getF_bump_ne _ _ _ _ (fldKey_fldAt_ne hq _)]

theorem countSat_hbm (t q o n : Nat) (s : State) : (countSat t q o n s).hbm = s.hbm := by
  simp only [countSat, kernelCount_hbm, bump_hbm]

end Sys2Proof.Machine
end

section
/-! PROOFS. The engines of a tile complete (R102, R105 to R107, R118, R124), and corrections and instruction fetches (R129, R232,
R236). -/

namespace Sys2Proof.Machine

theorem matCount_hbm (t n : Nat) (o : MatOp) (s : State) : (matCount t n o s).hbm = s.hbm := by
  simp only [matCount, bump_hbm]
theorem getT_matCount (u t n : Nat) (o : MatOp) (s : State) : getT u (matCount t n o s) = getT u s := by
  simp only [matCount, getT_bump]
theorem matCount_cyc (t n : Nat) (o : MatOp) (s : State) : (matCount t n o s).cyc = s.cyc := by
  simp only [matCount, bump_cyc]
@[simp] theorem getF_setT (f : Fld) (t : Nat) (x : Tile) (s : State) : getF f (setT t x s) = getF f s := rfl

/-- R124: an operation that runs to its end counts all its multiply-accumulates. -/
theorem getF_matCount_macs {t : Nat} {o : MatOp} (hcut : o.cut = (0, 0, 0)) (s : State) :
    getF (tileF t Reg.TILE_MATRIX_MACS) (matCount t (matSteps o) o s) =
      min (getF (tileF t Reg.TILE_MATRIX_MACS) s + o.macs) (2 ^ 64 - 1) := by
  have hall : o.macs * matSteps o / matSteps o - o.cut.2.1 = o.macs := by
    rw [hcut, Nat.mul_div_cancel _ (show 0 < matSteps o from Nat.succ_pos _), Nat.sub_zero]
  simp only [matCount]
  rw [getF_bump_ne _ _ _ _ (fldKey_fldAt_ne (by decide) _), getF_bump_self, hall,
    getF_bump_ne _ _ _ _ (fldKey_fldAt_ne (by decide) _)]
  rfl

/-! ### The events of the three engines -/

section Engines
variable {t : TileId} {s : State} (hrun : (getT t s).mode = .running) (hgoing : (getT t s).stopping = false)
include hrun hgoing

theorem exec_matrixOpDone {o : MatOp} {l : List MatOp} (hq : (getT t s).matQ = o :: l) (hdrill : o.drill = .none)
    (hcopy : o.copy = []) : exec (.matrixOpDone t) s = .next (countSat t o.satQuant 0 o.nanZ
      (setT t (matLeave t (matSteps o) o (accPut (getT t s) o.writes) s) (matCount t (matSteps o) o s))) := by
  unfold exec
  simp only [execMatrixOpDone, hq, hrun, hgoing, hdrill, hcopy, ne_eq, not_true_eq_false, Bool.false_eq_true, or_self, if_false,
    unitWrite, List.foldl_nil, matLeave, matCount_cyc]

theorem exec_accrdDone {o : RdOp} {l : List RdOp} (hq : (getT t s).rdQ = o :: l) (hfree : rdWaits (getT t s) o = false) :
    exec (.accrdDone t) s = .next (countSat t 0 o.satOut o.nanZ (unitWrite t o.pc o.writes (setT t { getT t s with rdQ := l } s))) := by
  unfold exec
  simp only [execAccrdDone, hq, hrun, hgoing, hfree, ne_eq, not_true_eq_false, Bool.false_eq_true, or_self, if_false]

theorem exec_accrdDone_waits {o : RdOp} {l : List RdOp} (hq : (getT t s).rdQ = o :: l) (hheld : rdWaits (getT t s) o = true) :
    exec (.accrdDone t) s = .next s := by
  unfold exec
  simp only [execAccrdDone, hq, hrun, hgoing, hheld, or_true, if_true]

theorem exec_vectorOpDone {o : VecOp} {l : List VecOp} (hq : (getT t s).vecQ = o :: l) : exec (.vectorOpDone t) s = .next
    (countSat t o.satQuant 0 o.nanZ (bump (tileF t Reg.TILE_VECTOR_CYCLES) o.cycles
      (unitWrite t o.pc o.spW (setT t (vecApply { getT t s with vecQ := l } o) s)))) := by
  unfold exec
  simp only [execVectorOpDone, hq, hrun, hgoing, ne_eq, not_true_eq_false, Bool.false_eq_true, or_self, if_false]

end Engines

/-! ### Corrections (R232) -/

theorem spUpset_none (t w : Nat) (s : State) : spUpset t w 0 s = s := by simp [spUpset]

theorem exec_spCorrectedWriteback {t : TileId} {word : Fin 49152} {s : State} (h : (getT t s).spFix.contains word.val = true)
    (flips : Nat) : exec (.spCorrectedWriteback t word flips) s = .next (spUpset t word flips (setT t { getT t s with
      spErr := smPut 0 (getT t s).spErr word 0, spFix := (getT t s).spFix.filter (· ≠ word.val) } s)) := by
  unfold exec
  simp only [execSpCorrectedWriteback, modT_eq, h, if_true]

/-! ### Instruction blocks (R129, R236) -/

section Fetch
variable {t : TileId} {s u : State} {id blk : Nat} {r : Req} {data : List Byte} (hf : (getT t s).fetching = some id)
  (hr : lookO s.reqs id = some r) (hu : r.unit = .icache t blk) (hleft : u = delReq id (setT t { getT t s with fetching := none } s))
include hf hr hu hleft

theorem exec_icacheFillDone_comes (hst : r.stage = .done .ok data) (hroom : (getT t s).icache.length < 64) :
    exec (.icacheFillDone t false) s =
      .next (setT t { getT t s with fetching := none, icache := putO (getT t s).icache blk data } u) := by
  have htile : getT t u = { getT t s with fetching := none } := by
    rw [hleft]; exact (getT_setT ..).trans (if_pos rfl)
  unfold exec
  simp only [execIcacheFillDone, hf, hr, hst, hu, hroom, Option.bind_some, ne_eq, not_true_eq_false, Bool.false_eq_true,
    if_false, if_true, modT_eq, ← hleft, htile]

theorem exec_icacheFillDone_again {k : Kernel} (hst : r.stage = .done .ok data) (hk : (getT t s).kern.bind (getK · s) = some k) :
    exec (.icacheFillDone t true) s = .next (startFetch t k (bump Reg.MEM_COPY_REFETCH 1 u)) := by
  have hk' : ((getT t s).kern.bind fun n => getK n u) = some k := by rw [hleft]; exact hk
  unfold exec
  simp only [execIcacheFillDone, hf, hr, hst, hu, Option.bind_some, ne_eq, not_true_eq_false, if_false, if_true, modT_eq,
    ← hleft, hk']

theorem exec_icacheFillDone_refused (hst : r.stage = .done .refused data) (b : Bool) :
    exec (.icacheFillDone t b) s = .next (tileFault t .fetchFault (getT t s).pc (getT t s).pc u) := by
  unfold exec
  simp only [execIcacheFillDone, hf, hr, hst, hu, Option.bind_some, ne_eq, reduceCtorEq, not_false_eq_true, if_true, modT_eq,
    ← hleft]

end Fetch

/-- Settles O13: what each completion, correction and fetched block leaves. -/
theorem enginesComplete : Obligations.EnginesComplete := by
  rintro t s x rfl hrun hgoing
  refine ⟨fun o l hq hdrill hcopy hcut => ?matrix,
    fun o l hq => ⟨exec_accrdDone hrun hgoing hq, exec_accrdDone_waits hrun hgoing hq⟩,
    fun o l hq => exec_vectorOpDone hrun hgoing hq,
    fun word flips h => ⟨exec_spCorrectedWriteback h flips, spUpset_none t word⟩,
    fun id blk r data k u hf hr hu hleft => ⟨exec_icacheFillDone_comes hf hr hu hleft, exec_icacheFillDone_again hf hr hu hleft,
      fun b hst => exec_icacheFillDone_refused hf hr hu hleft hst b⟩⟩
  case matrix =>
    refine ⟨_, exec_matrixOpDone hrun hgoing hq hdrill hcopy, ?_, ?_, ?_⟩
    · rw [getT_countSat, getT_setT, if_pos rfl]
    · rw [getF_countSat (by decide) (by decide) (by decide), getF_setT, getF_matCount_macs hcut]
    · rw [countSat_hbm, setT_hbm, matCount_hbm]

end Sys2Proof.Machine
end

section
/-! PROOFS. Kernels take tiles, and tiles end (R112 to R116, R138, R166). -/

namespace Sys2Proof.Machine

/-! ### Kernels (R112 to R114) -/

section Start
variable {ring : RingId} {key : Nat} {k : Kernel} {s : State} (hw : waitingKernel ring s = some (key, k))
include hw

theorem exec_kernelStart_takes {tiles : List Nat} (hopen : s.frozen = false) (hp : pickTiles key k s = some tiles) :
    exec (.kernelStart ring) s = .next (kernelTake key k tiles (placeBindings key k tiles k.table s)) := by
  unfold exec
  simp only [execKernelStart, heldOr_open hopen, kernelStart, hw, hp]

theorem exec_kernelStart_waits (hopen : s.frozen = false) (hp : pickTiles key k s = none) :
    exec (.kernelStart ring) s = .next s := by
  unfold exec
  simp only [execKernelStart, heldOr_open hopen, kernelStart, hw, hp]

theorem exec_kernelTileReserve (hdue : k.waitAt + 1000000 ≤ s.tb) :
    exec (.kernelTileReserve ring) s = .next (setK key { k with phase := .reserving } s) := by
  unfold exec
  simp only [execKernelTileReserve, hw, hdue, if_true]

theorem exec_kernelTileReserve_early (hearly : s.tb < k.waitAt + 1000000) : exec (.kernelTileReserve ring) s = .next s := by
  unfold exec
  simp only [execKernelTileReserve, hw, Nat.not_le.mpr hearly, if_false]

end Start

/-- R112: the tiles picked are as many as the kernel needs, and each is free, on, and of the kernel's partition. -/
theorem pickTiles_some {key : Nat} {k : Kernel} {s : State} {tiles : List Nat} (h : pickTiles key k s = some tiles) :
    tiles.length = k.count ∧ ∀ t ∈ tiles, tileFree key t s = true ∧ tileOn t s = true ∧ tilePart t s = k.part := by
  simp only [pickTiles, Option.map_eq_some_iff] at h
  obtain ⟨free, hfind, rfl⟩ := h
  have hlen : k.count ≤ free.length := by simpa using List.find?_some hfind
  obtain ⟨l, -, rfl⟩ := List.mem_map.mp (List.mem_of_find?_eq_some hfind)
  refine ⟨List.length_take_of_le hlen, fun t ht => ?_⟩
  obtain ⟨hpart, hfree⟩ := List.mem_filter.mp (List.mem_of_mem_take ht)
  have hon := (List.mem_filter.mp hpart).2
  simp only [Bool.and_eq_true, decide_eq_true_eq] at hon
  exact ⟨hfree, hon.1, hon.2⟩

/-! ### The ends of a tile (R112, R116, R138, R166) -/

section Ends
variable {t : TileId} {s : State}

theorem exec_endDrainDone {k : Nat} (hk : (getT t s).kern = some k) (hrun : (getT t s).mode = .running)
    (hdrain : (getT t s).draining = true) (hgoing : (getT t s).stopping = false) (hdone : drained (getT t s) = true) :
    exec (.endDrainDone t) s = .next (kernelEnd k (tileIdle t (setT t { getT t s with
      mode := .idle, kern := none, draining := false, prec := 0 } s))) := by
  unfold exec
  simp only [execEndDrainDone, hk, hrun, hdrain, hgoing, hdone, Bool.not_false, and_self, if_true]

/-- A cleared tile, counted. -/
def tileClearedCounted (t : Nat) (s : State) : State :=
  bump (tileF t Reg.TILE_CLEAR_COUNT) 1 (setT t { tileCleared (getT t s) with
    mode := if (getT t s).stopping then .halted else .idle, stopping := false, waitKind := 0 } s)

section Clear
variable (hclear : (getT t s).mode = .clearing) (hdue : (getT t s).clearAt + 1024 ≤ cycleOf (tileDie t) s)
include hclear hdue

theorem tileClearDone_due :
    ¬ ((getT t s).mode ≠ .clearing ∨ smLook 0 s.cyc (tileDie t) / 100 < (getT t s).clearAt + 1024) := by
  rintro (h | h)
  · exact h hclear
  · exact Nat.not_lt.mpr hdue h

theorem exec_tileClearDone_idle (hk : (getT t s).kern = none) :
    exec (.tileClearDone t) s = .next (tileIdle t (tileClearedCounted t s)) := by
  unfold exec
  simp only [execTileClearDone, tileClearDone_due hclear hdue, if_false, hk, tileClearedCounted]

theorem exec_tileClearDone_run {k : Nat} (hk : (getT t s).kern = some k) (hgoing : (getT t s).stopping = false) :
    exec (.tileClearDone t) s = .next (kernelRun k (tileClearedCounted t s)) := by
  unfold exec
  simp only [execTileClearDone, tileClearDone_due hclear hdue, if_false, hk, hgoing, Bool.false_eq_true, tileClearedCounted]

end Clear

theorem exec_tileClearDone_early (hearly : cycleOf (tileDie t) s < (getT t s).clearAt + 1024) :
    exec (.tileClearDone t) s = .next s := if_pos (.inr hearly)

theorem exec_tileHalted (hrun : (getT t s).mode = .running) (hstop : (getT t s).stopping = true) (hk : (getT t s).kern = none)
    (hmat : (getT t s).matQ = []) (hvec : (getT t s).vecQ = []) (hrd : (getT t s).rdQ = []) (hxf : (getT t s).xfers = []) :
    exec (.tileHalted t) s = .next (setT t { getT t s with
      mode := .halted, atoms := [], crema := [], stopping := false
      waitKind := if (getT t s).waitKind = 15 then 0 else (getT t s).waitKind } s) := by
  have hm : endMatrix t s = s := by simp only [endMatrix, hmat]
  have hv : endVector t s = s := by simp only [endVector, hvec]
  unfold exec
  simp only [execTileHalted, hrun, hstop, hk, hm, hv, hmat, hvec, hrd, hxf, modT_eq, ne_eq, not_true_eq_false, Bool.not_true,
    Bool.false_eq_true, or_self, if_false, List.foldl_nil, List.filter_nil]

end Ends

/-- Settles O15: tiles are picked or waited for, and each end of a tile. -/
theorem kernelsAndTileEnds : Obligations.KernelsAndTileEnds := by
  refine ⟨fun ring key k s hw => ⟨fun tiles hopen hp => ⟨exec_kernelStart_takes hw hopen hp, pickTiles_some hp⟩,
      exec_kernelTileReserve hw⟩, ?ends,
    fun ring key k s hw => ⟨exec_kernelStart_waits hw, exec_kernelTileReserve_early hw⟩⟩
  rintro t s x rfl
  refine ⟨fun k => exec_endDrainDone, fun hclear hdue u hu => ?clear,
    fun n hrun hstop hk hmat hvec hrd hxf hn => ?halted, fun _ => exec_tileClearDone_early⟩
  case clear =>
    have hleft : u = tileClearedCounted t s := hu
    rw [hleft]
    exact ⟨exec_tileClearDone_idle hclear hdue, fun k => exec_tileClearDone_run hclear hdue⟩
  case halted =>
    rw [hn]; exact exec_tileHalted hrun hstop hk hmat hvec hrd hxf

end Sys2Proof.Machine
end

section
/-! PROOFS. The bytes of a completion entry (R273): numbers as little-endian bytes, and each field cut out of the entry. -/

namespace Sys2Proof.Machine

theorem leNat_leBytes (n v : Nat) : leNat (leBytes n v) = v % 256 ^ n := by
  induction n generalizing v with
  | zero => simp [leBytes, leNat, Nat.mod_one]
  | succ n ih =>
    have hsplit : v % 256 + 256 * (v / 256 % 256 ^ n) = v % 256 ^ (n + 1) := by rw [Nat.pow_succ', Nat.mod_mul]
    rw [leBytes, leNat, ih, BitVec.toNat_ofNat]
    exact hsplit

/-! ### Cutting concatenations -/

section Slice
variable (a b : List Byte) {o n : Nat}

/-- A slice that lies in the first part. -/
theorem sliceB_append_left (h : o + n ≤ a.length) : sliceB (a ++ b) o n = sliceB a o n := by
  rw [sliceB, sliceB, List.drop_append_of_le_length (by omega), List.take_append_of_le_length (by rw [List.length_drop]; omega)]

/-- A slice that lies behind the first part. -/
theorem sliceB_append_right (h : a.length ≤ o) : sliceB (a ++ b) o n = sliceB b (o - a.length) n := by
  rw [sliceB, sliceB, List.drop_append, List.drop_of_length_le h, List.nil_append]

theorem sliceB_self (h : a.length = n) : sliceB a 0 n = a := by
  rw [sliceB, List.drop_zero, List.take_of_length_le (Nat.le_of_eq h)]

end Slice

/-! ### The statement -/

theorem length_complBytes (c : Compl) (time : Nat) (phase : Bool) : (complBytes c time phase).length = 32 := by
  simp [complBytes]

/-- A field of the entry is read back as the number that was written there. -/
theorem leNat_of_sliceB {l : List Byte} {o n v : Nat} (h : sliceB l o n = leBytes n v) : leNat (sliceB l o n) = v % 256 ^ n := by
  rw [h, leNat_leBytes]

/-- Settles O20: each field of the entry is the run of bytes that was put at its place. -/
theorem completionLayout : Obligations.CompletionLayout := by
  intro c time phase hkind
  have halert : c.kind + (if c.alert then 4 else 0) < 256 ^ 1 := by split <;> omega
  have hdetail : detailOf c.detail c.partl + (if phase then 2 ^ 63 else 0) < 256 ^ 8 := by
    have hlow := Nat.mod_lt c.detail (Nat.two_pow_pos 55)
    unfold detailOf
    split <;> split <;> omega
  refine ⟨length_complBytes c time phase, leNat_of_sliceB (v := c.idx) ?_, leNat_of_sliceB (v := c.status) ?_,
    leNat_of_sliceB (v := c.opcode) ?_, (leNat_of_sliceB ?_).trans (Nat.mod_eq_of_lt halert), leNat_of_sliceB (v := c.tag) ?_,
    leNat_of_sliceB (v := c.aux) ?_, leNat_of_sliceB (v := time) ?_, (leNat_of_sliceB (v := detailOf c.detail c.partl + if phase then 2 ^ 63 else 0) ?_).trans
      (Nat.mod_eq_of_lt hdetail)⟩
  all_goals simp (disch := simp) only [complBytes, sliceB_append_right, sliceB_append_left, sliceB_self, List.length_append,
    length_leBytes, Nat.reduceAdd, Nat.reduceSub]

end Sys2Proof.Machine
end

section
/-! PROOFS. The KV page walkers (R182, R184 to R186, R190, R191): activation, gating, scoring and delivery. -/

namespace Sys2Proof.Machine

/-! ### The binding's ring in its tile's scratchpad -/

theorem ringGet_ok {key o n : Nat} {b : Binding} {s u : State} {l : List Byte} (h : spRead b.tile (b.ringBase + o) n s = (.ok l, u))
    (f : List Byte → State → State) : ringGet key b o n f s = f l u := by simp only [ringGet, h]

theorem ringPut_ok {key o : Nat} {b : Binding} {s u : State} {l : List Byte} (h : spWrite b.tile (b.ringBase + o) l s = (none, u))
    (f : State → State) : ringPut key b o l f s = f u := by simp only [ringPut, h]

/-! ### Activation and gating (R182, R190) -/

theorem exec_bindingActivate {w : WalkerId} {key : Nat} {b : Binding} {s : State} (hroom : (activeOf w s).length < 16)
    (hfind : (s.bindings.find? fun e => e.2.walker = w.val && e.2.phase = .waiting && !ringsPending e.1 s) = some (key, b)) :
    exec (.bindingActivate w) s = .next (walkGate key s) := by
  unfold exec
  simp only [execBindingActivate, Nat.not_le.mpr hroom, if_false, hfind]

section Gate
variable {key : Nat} {x : Binding} {s u : State} {l : List Byte} (hx : getB' key s = some x)
include hx

theorem walkGate_open (hgated : x.gated = false) :
    walkGate key s = walkFetch key .desc [(x.seqAddr, 64)] (setB' key { x with blocked := false } s) := by
  simp only [walkGate, hx, hgated, Bool.false_eq_true, if_false]

variable (hgated : x.gated = true) (hread : spRead x.tile (x.ringBase + 16) 8 s = (.ok l, u))
include hgated hread

theorem walkGate_closed (hgo : leNat l = 0) : walkGate key s = setB' key { x with phase := .gate, blocked := true } u := by
  simp only [walkGate, hx, hgated, if_true, ringGet_ok hread, hgo]

theorem walkGate_opened (hgo : leNat l ≠ 0) :
    walkGate key s = walkFetch key .desc [(x.seqAddr, 64)] (setB' key { x with blocked := false } u) := by
  simp only [walkGate, hx, hgated, if_true, ringGet_ok hread, hgo, if_false]

end Gate

/-! ### Events of a binding -/

section Events
variable {ring : RingId} {idx : B32} {n : Fin 1024} {x : Binding} {s u : State} {l : List Byte}
  (hx : getB' (bindKey ring idx.toNat n) s = some x)
include hx

theorem exec_walkerCreditPoll_gate (hph : x.phase = .gate) :
    exec (.walkerCreditPoll ring idx n) s = .next (walkGate (bindKey ring idx.toNat n) s) := by
  unfold exec
  simp only [execWalkerCreditPoll, hx, hph, if_true]

theorem exec_walkerCreditPoll_ready (hph : x.phase = .ready) (hread : spRead x.tile (x.ringBase + 8) 8 s = (.ok l, u)) :
    exec (.walkerCreditPoll ring idx n) s =
      .next (setB' (bindKey ring idx.toNat n) { x with blocked := !slotFree x (leNat l) } u) := by
  unfold exec
  simp only [execWalkerCreditPoll, hx, hph, reduceCtorEq, if_false, if_true, ringGet_ok hread]

theorem exec_walkerSlotDeliver {d : SeqDesc} (hd : x.desc = some d) (hph : x.phase = .ready)
    (hturn : walkTurn x.walker s = some (bindKey ring idx.toNat n)) (hread : spRead x.tile (x.ringBase + 8) 8 s = (.ok l, u)) :
    exec (.walkerSlotDeliver ring idx n) s = .next (if slotFree x (leNat l) then walkDeliver (bindKey ring idx.toNat n) x d u
      else setB' (bindKey ring idx.toNat n) { x with blocked := true } u) := by
  unfold exec
  simp only [execWalkerSlotDeliver, hx, hd, hph, hturn, ne_eq, not_true_eq_false, or_self, if_false, ringGet_ok hread]

theorem exec_pageSiftSelect {d : SeqDesc} (hd : x.desc = some d) (hph : x.phase = .scored) (hsel : x.selOut = false)
    (hread : spRead x.tile (x.ringBase + (64 + x.head0 * d.d * 2)) (x.nheads * d.d * 2) s = (.ok l, u)) :
    exec (.pageSiftSelect ring idx n) s = .next (walkPlan (bindKey ring idx.toNat n) (siftPlan x d l)
      (bump (kvwF x.walker Reg.KVW_SUMMARIES) ((rangePages x).filter fun j => !forcedPage x j).length u)) := by
  unfold exec
  simp only [execPageSiftSelect, hx, hd, hph, hsel, ne_eq, not_true_eq_false, if_false, ringGet_ok hread, Bool.false_and,
    Bool.false_eq_true]

end Events

/-! ### Scoring and delivery (R184 to R186, R191) -/

theorem slotFree_iff (x : Binding) (c : Nat) : slotFree x c = true ↔ (x.n : Int) - x.depth + 1 ≤ c := decide_eq_true_iff

theorem forced_mem_siftPlan {x : Binding} {j : Nat} (hj : j ∈ rangePages x) (hf : forcedPage x j = true) (d : SeqDesc)
    (q : List Byte) : j ∈ siftPlan x d q := List.mem_filter.mpr ⟨hj, by rw [hf, Bool.true_or]⟩

theorem siftPlan_subset {x : Binding} {d : SeqDesc} {q : List Byte} {j : Nat} (hj : j ∈ siftPlan x d q) : j ∈ rangePages x :=
  (List.mem_filter.mp hj).1

/-- R186: tag and data are written before DELIVERED counts the slot. -/
theorem walkDeliver_ok {key o : Nat} {x : Binding} {d : SeqDesc} {s a b c : State} {data : List Byte}
    (ho : o = x.ringBase + (slotBase x d (x.n % x.depth) - x.ringBase))
    (hdata : data = slotBytes x d (x.plan.getD x.n 0)
      (cutRanges (x.f.want.zip (x.f.got.map (·.2))) (pageRanges x d (pageBase x d) (x.plan.getD x.n 0))))
    (htag : spWrite x.tile o (slotTag x (x.plan.getD x.n 0)) s = (none, a)) (hbody : spWrite x.tile (o + 64) data a = (none, b))
    (hcount : spWrite x.tile (x.ringBase + 0) (leBytes 8 (x.n + 1)) b = (none, c)) :
    walkDeliver key x d s = walkNext key (setB' key { x with n := x.n + 1, blocked := false }
      (bump (kvwF x.walker Reg.KVW_PAGES) 1 { c with kvTurn := smPut 0 c.kvTurn x.walker (key + 1) })) := by
  subst ho hdata
  rw [Nat.add_assoc] at hbody
  rw [walkDeliver, ringPut_ok htag, ringPut_ok hbody, ringPut_ok hcount]

/-- Settles O21: each event of a walker by the phase of its binding and by what its ring holds. -/
theorem walkers : Obligations.Walkers := by
  refine ⟨fun w key b s hroom hfind => ⟨exec_bindingActivate hroom hfind, walkGate_open⟩, ?_⟩
  rintro ring idx n x d key s u l rfl hx hd
  refine ⟨fun hph hread => ⟨exec_walkerCreditPoll_ready hx hph hread, fun hturn => ?deliver, slotFree_iff ..⟩,
    fun hph hsel hread => ⟨exec_pageSiftSelect hx hd hph hsel hread, fun j hj hf => forced_mem_siftPlan hj hf d l,
      fun j => siftPlan_subset⟩,
    fun hph hgated hread => ?gate, fun a b c o data => walkDeliver_ok⟩
  case deliver =>
    rw [exec_walkerSlotDeliver hx hd hph hturn hread]
    exact ⟨fun hfree => by rw [if_pos hfree], fun hfull => by rw [hfull]; rfl⟩
  case gate =>
    rw [exec_walkerCreditPoll_gate hx hph]
    exact ⟨fun hgo => congrArg _ (walkGate_closed hx hgated hread hgo), fun hgo => congrArg _ (walkGate_opened hx hgated hread hgo)⟩

end Sys2Proof.Machine
end

section
/-! PROOFS. The clear registers (R124, R198, R235, R321, R443 and the others): what a range of registers reads after it. -/

namespace Sys2Proof.Machine

/-! ### Entries written one after another, and a filtered list -/

theorem smLook_of_not_mem {α : Type} (d : α) {m : SMap α} {k : Nat} (h : ∀ e ∈ m, e.1 ≠ k) : smLook d m k = d := by
  induction m with
  | nil => rfl
  | cons e m ih =>
    rw [List.forall_mem_cons] at h
    rw [smLook, if_neg (Ne.symm h.1), ih h.2]

/-- Writes at other keys leave a read as it was, whatever default it is made with. -/
theorem smLook_foldl_smPut_ne (d : Nat) {l : SMap Nat} (m : SMap Nat) {k : Nat} (h : ∀ e ∈ l, e.1 ≠ k) :
    smLook d (l.foldl (fun m e => smPut 0 m e.1 e.2) m) k = smLook d m k := by
  induction l generalizing m with
  | nil => rfl
  | cons e l ih =>
    rw [List.forall_mem_cons] at h
    rw [List.foldl_cons, ih _ h.2, smLook_smPut_ne _ _ _ _ _ _ (Ne.symm h.1)]

/-- The entries of a sorted list, written one after another, read back as the list does. -/
theorem smLook_foldl_smPut {l : SMap Nat} (h : smSorted l = true) (m : SMap Nat) (k : Nat) :
    smLook 0 (l.foldl (fun m e => smPut 0 m e.1 e.2) m) k = smLook (smLook 0 m k) l k := by
  induction l generalizing m with
  | nil => rfl
  | cons e l ih =>
    obtain ⟨x, v⟩ := e
    simp only [smSorted, Bool.and_eq_true, List.all_eq_true, decide_eq_true_eq] at h
    obtain ⟨hlt, hsorted⟩ := h
    rw [List.foldl_cons, ih hsorted, smLook_smPut, smLook]
    split
    · next hk => exact smLook_of_not_mem v fun e he => by have := hlt e he; omega
    · rfl

theorem smLook_filter {α : Type} (d : α) {p : Nat × α → Bool} (m : SMap α) {k : Nat} (hp : ∀ v, p (k, v) = true) :
    smLook d (m.filter p) k = smLook d m k := by
  induction m with
  | nil => rfl
  | cons e m ih =>
    obtain ⟨x, v⟩ := e
    rw [List.filter_cons]
    by_cases hx : k = x
    · subst hx; rw [if_pos (hp v), smLook, smLook, if_pos rfl, if_pos rfl]
    · split
      · rw [smLook, smLook, if_neg hx, if_neg hx, ih]
      · rw [smLook, if_neg hx, ih]

theorem ne_of_lookO_none {α : Type} {m : SMap α} {k : Nat} (h : lookO m k = none) : ∀ e ∈ m, e.1 ≠ k := by
  simp only [lookO, Option.map_eq_none_iff, List.find?_eq_none, beq_iff_eq] at h
  exact h

/-! ### A cleared range of registers -/

section
variable {base lo hi : Nat} (s : State) (h : lo ≤ hi)
include h

/-- A register outside the range reads as before. -/
theorem clearRegs_outside : RegsOutside ((base + lo) * 64) ((base + hi + 8) * 64) s (clearRegs base lo hi s) := by
  intro k d hk
  unfold clearRegs
  rw [smLook_foldl_smPut_ne _ _ fun e he => ?_, smLook_smClear, if_neg (by omega)]
  have hin := (List.mem_filter.mp he).2
  simp only [Bool.and_eq_true, decide_eq_true_eq] at hin
  omega

section
variable {k : Nat} (hlo : (base + lo) * 64 ≤ k) (hhi : k < (base + hi + 8) * 64)
include hlo hhi

/-- A register of the range in which nothing was counted in this cycle reads as one that is not listed. -/
theorem clearRegs_inside_none (hk : lookO s.sameCyc k = none) (d : Nat) : smLook d (clearRegs base lo hi s).regs k = d := by
  unfold clearRegs
  rw [smLook_foldl_smPut_ne _ _ fun e he => ne_of_lookO_none hk e (List.mem_filter.mp he).1, smLook_smClear, if_pos (by omega)]

/-- Log entry 4: a register of the range reads what was counted in this cycle. -/
theorem clearRegs_inside (hwf : smWf 0 s.sameCyc = true) :
    smLook 0 (clearRegs base lo hi s).regs k = smLook 0 s.sameCyc k := by
  rw [smWf, Bool.and_eq_true] at hwf
  unfold clearRegs
  rw [smLook_foldl_smPut (smSorted_filter _ _ hwf.1), smLook_smClear, if_pos (by omega)]
  refine smLook_filter 0 _ fun v => ?_
  simp only [Bool.and_eq_true, decide_eq_true_eq]
  omega

end
end

/-- Settles O28: each clear register by its own range of registers, and what a cleared range reads. -/
theorem counterClears : Obligations.CounterClears :=
  ⟨fun _ _ _ _ _ _ => ⟨rfl, rfl, rfl, rfl, rfl, rfl, rfl, rfl, rfl, rfl, rfl, rfl⟩,
    fun _ _ _ s h => ⟨fun _ hlo hhi => ⟨clearRegs_inside_none s h hlo hhi, clearRegs_inside s h hlo hhi⟩,
      clearRegs_outside s h, rfl⟩⟩

end Sys2Proof.Machine
end

section
/-! PROOFS. HBM accesses (R34, R212, R213, R228): a queued request on one block, by what the granule holds. -/

namespace Sys2Proof.Machine

/-! ### Blocks and granules -/

theorem getD_smLookList (d : α) (m : SMap α) (x n j : Nat) (h : j < n) : (smLookList d m x n).getD j d = smLook d m (x + j) := by
  induction n generalizing x j with
  | zero => omega
  | succ n ih =>
    cases j with
    | zero => rfl
    | succ j => rw [smLookList, List.getD_cons_succ, ih _ _ (by omega)]; congr 1; omega

/-- A range within one block is one piece. -/
theorem splitBlocks_one {o n : Nat} (hn : 0 < n) (hb : o % 512 + n ≤ 512) : splitBlocks o n = [(o, n)] := by
  have hone : (o + n + 511) / 512 - o / 512 = 1 := by omega
  have hlo : max o ((o / 512 + 0) * 512) = o := by omega
  have hhi : min (o + n) ((o / 512 + 0 + 1) * 512) - o = n := by omega
  simp only [splitBlocks, hone, List.range_one, List.map_cons, List.map_nil, hlo, hhi]

theorem granuleWritten_block (o : Nat) (s : State) : granuleWritten (o / 512 * 512) s = granuleWritten o s := by
  rw [granuleWritten, granuleWritten, show o / 512 * 512 / 4096 = o / 4096 by omega]

theorem blockRead_unwritten {o q : Nat} {s : State} (h : granuleWritten o s = false) :
    blockRead (o / 512 * 512) q s = (some (List.replicate 512 0), s) := by
  rw [blockRead, granuleWritten_block, h]; rfl

theorem blockRead_clean {o q : Nat} {s : State} (h : granuleWritten o s = true) (he : smLook 0 s.blkErr (o / 512) = 0) :
    blockRead (o / 512 * 512) q s = (some (hbmBytes (o / 512 * 512) 512 s), s) := by
  simp [blockRead, granuleWritten_block, h, show o / 512 * 512 / 512 = o / 512 by omega, he]

theorem hbmRead_one {o n q : Nat} {s : State} {l : List Byte} (hn : 0 < n) (hb : o % 512 + n ≤ 512)
    (h : blockRead (o / 512 * 512) q s = (some l, s)) : hbmRead o n q s = (.ok (sliceB l (o % 512) n), s) := by
  simp only [hbmRead, splitBlocks_one hn hb, List.foldl_cons, List.foldl_nil, h, List.nil_append]

theorem hbmWrite_one {o q : Nat} {s u : State} {l : List Byte} (hn : 0 < l.length) (hb : o % 512 + l.length ≤ 512)
    (h : blockWrite o l q s = (true, u)) : hbmWrite o l q s = (none, u) := by
  simp only [hbmWrite, splitBlocks_one hn hb, List.foldl_cons, List.foldl_nil, Nat.sub_self, sliceB, List.drop_zero,
    List.take_length, h]

/-! ### Writes within one block: the bytes afterwards -/

theorem hbmByte_hbmPut (o : Nat) (l : List Byte) (s : State) (a : Nat) :
    hbmByte a (hbmPut o l s) = if o ≤ a ∧ a < o + l.length then l.getD (a - o) 0 else hbmByte a s := smLook_smPutList ..

theorem blockWrite_unwritten {o q : Nat} {s : State} (l : List Byte) (h : granuleWritten o s = false) :
    blockWrite o l q s = (true, hbmPut o l (granuleMark o { s with hbm := smClear s.hbm (o / 4096 * 4096) 4096 })) := by
  simp [blockWrite, h]

theorem blockWrite_whole {o q : Nat} {s : State} {l : List Byte} (h : granuleWritten o s = true) (hl : l.length = 512) :
    blockWrite o l q s = (true, hbmPut o l (blockEncode (o / 512 * 512) s)) := by simp [blockWrite, h, hl]

theorem blockWrite_clean {o q : Nat} {s : State} {l : List Byte} (h : granuleWritten o s = true) (hl : l.length ≠ 512)
    (he : smLook 0 s.blkErr (o / 512) = 0) :
    blockWrite o l q s = (true, hbmPut o l (hbmPut (o / 512 * 512) (hbmBytes (o / 512 * 512) 512 s)
      (blockEncode (o / 512 * 512) s))) := by
  simp [blockWrite, h, hl, blockRead_clean h he]

/-- Bytes written back as they were read change nothing. -/
theorem hbmByte_hbmPut_hbmBytes (b n : Nat) (s u : State) (h : u.hbm = s.hbm) (a : Nat) :
    hbmByte a (hbmPut b (hbmBytes b n s) u) = hbmByte a s := by
  rw [hbmByte_hbmPut, hbmBytes, length_smLookList]
  split
  · next hin => rw [getD_smLookList _ _ _ _ _ (by omega), show b + (a - b) = a by omega, hbmByte]
  · rw [hbmByte, h, hbmByte]

@[simp] theorem granuleMark_hbm (o : Nat) (s : State) : (granuleMark o s).hbm = s.hbm := by unfold granuleMark; dsimp only; split <;> rfl

theorem granuleMark_written (o : Nat) (s : State) : granuleWritten o (granuleMark o s) = true := by
  have h : (granuleMark o s).written = smPut false s.written (o / 4096) true := by
    unfold granuleMark; dsimp only; split <;> rfl
  rw [granuleWritten, h, smLook_smPut, if_pos rfl]

theorem granuleMark_hbmPut_written (o a : Nat) (l : List Byte) (s : State) :
    granuleWritten o (hbmPut a l (granuleMark o s)) = true := granuleMark_written o s

/-- R228: in a granule not written before, every byte that is not stored reads zero. -/
theorem hbmByte_write_unwritten (o : Nat) (l : List Byte) (s : State) (a : Nat) :
    hbmByte a (hbmPut o l (granuleMark o { s with hbm := smClear s.hbm (o / 4096 * 4096) 4096 })) =
      if o ≤ a ∧ a < o + l.length then l.getD (a - o) 0 else if a / 4096 = o / 4096 then 0 else hbmByte a s := by
  have hgran : (o / 4096 * 4096 ≤ a ∧ a < o / 4096 * 4096 + 4096) = (a / 4096 = o / 4096) := by rw [eq_iff_iff]; omega
  rw [hbmByte_hbmPut, hbmByte, granuleMark_hbm, smLook_smClear]
  simp only [hgran, hbmByte]

theorem blockWrite_written {o q : Nat} {s : State} {l : List Byte} (h : granuleWritten o s = true)
    (he : smLook 0 s.blkErr (o / 512) = 0 ∨ l.length = 512) :
    ∃ u, blockWrite o l q s = (true, u) ∧
      ∀ a, hbmByte a u = if o ≤ a ∧ a < o + l.length then l.getD (a - o) 0 else hbmByte a s := by
  by_cases hl : l.length = 512
  · exact ⟨_, blockWrite_whole h hl, hbmByte_hbmPut o l _⟩
  · refine ⟨_, blockWrite_clean h hl (he.resolve_right hl), fun a => ?_⟩
    rw [hbmByte_hbmPut, hbmByte_hbmPut_hbmBytes _ _ s (blockEncode _ s) rfl]

/-! ### A request on memory -/

section
variable {id : Nat} {r : Req} {s : State} {o : Nat}

theorem decay_of_unwritten (h : granuleWritten (gOff r.gaddr) s = false) (u : Nat) : decay r u s = s :=
  if_neg fun hc => by rw [h] at hc; exact absurd hc.2 (by decide)

theorem decay_zero (r : Req) (s : State) : decay r 0 s = s := by unfold decay; dsimp only; split <;> rfl

/-- A request on HBM that nothing holds back is performed. -/
theorem exec_hbmAccess (hr : lookO s.reqs id = some r) (hm : mayPerform id r s = true) (ho : gOff r.gaddr < hbmEnd) {sym : Nat}
    (hd : decay r sym s = s) :
    exec (.hbmAccess id sym) s = .next (settleReq id r (perform r s).1 (perform r s).2.1 (perform r s).2.2) := by
  have hslot : spSlot (gOff r.gaddr) = none := if_neg fun hc => by simp only [hbmEnd, spWin] at ho hc; omega
  unfold exec
  simp only [execHbmAccess, hr, hm, if_true, hslot, hd]

variable (ho : gOff r.gaddr < hbmEnd)
include ho

theorem perform_read {q : List Byte} (hk : r.kind = .read) (hok : destOk (gOff r.gaddr) r.len s = true)
    (h : hbmRead (gOff r.gaddr) r.len (reqCode r.unit) s = (.ok q, s)) : perform r s = (.ok, q, s) := by
  simp [perform, hk, hok, homeRead, ho, h]

theorem perform_write {l : List Byte} {u : State} (hk : r.kind = .write l) (hok : destOk (gOff r.gaddr) l.length s = true)
    (h : hbmWrite (gOff r.gaddr) l (reqCode r.unit) s = (none, u)) : perform r s = (.ok, [], u) := by
  simp [perform, hk, hok, homeWrite, ho, h]

theorem perform_refused (hk : r.kind = .read) (hok : destOk (gOff r.gaddr) r.len s = false) :
    perform r s = (.refused, [], s) := by
  have hwin : gOff r.gaddr < dbWin := Nat.lt_trans ho (by decide)
  simp [perform, hk, hok, hwin]

end

/-- Settles O30: the request is performed on its one block, as the granule's state says. -/
theorem hbmAccesses : Obligations.HbmAccesses := by
  rintro id r s o hr hm rfl ho
  have hexec := fun {sym} => exec_hbmAccess hr hm ho (sym := sym)
  refine ⟨fun u hk hok hn hb => ⟨fun hw he => ?readClean, fun hw => ?readUnwritten⟩,
    fun l hk hok hn hb => ⟨fun hw he => ?writeWritten, fun hw => ?writeUnwritten⟩, fun hok hk => ?refused⟩
  case readClean =>
    rw [hexec (decay_zero r s), perform_read ho hk hok (hbmRead_one hn hb (blockRead_clean hw he))]; rfl
  case readUnwritten =>
    have hzero : sliceB (List.replicate 512 0) (gOff r.gaddr % 512) r.len = List.replicate r.len 0 := by
      rw [sliceB, List.drop_replicate, List.take_replicate]; congr 1; omega
    rw [hexec (decay_of_unwritten hw u), perform_read ho hk hok (hbmRead_one hn hb (blockRead_unwritten hw)), hzero]
  case writeWritten =>
    obtain ⟨u, hwrite, hbytes⟩ := blockWrite_written (q := reqCode r.unit) hw he
    refine ⟨u, ?_, hbytes⟩
    rw [hexec (decay_zero r s), perform_write ho hk hok (hbmWrite_one hn hb hwrite)]
  case writeUnwritten =>
    refine ⟨_, ?_, granuleMark_hbmPut_written .., hbmByte_write_unwritten (gOff r.gaddr) l s⟩
    rw [hexec (decay_zero r s), perform_write ho hk hok (hbmWrite_one hn hb (blockWrite_unwritten l hw))]
  case refused => rw [hexec (decay_zero r s), perform_refused ho hk hok]

end Sys2Proof.Machine
end

section
/-! PROOFS. Quota and slots words, route tables and epochs, held packets (R270, R336, R342, R343, R400). -/

namespace Sys2Proof.Machine

/-! ### A row of fields written one after another -/

section
variable {n : Nat} (f : Nat → Fld) (v : Nat → Nat) (s : State)

theorem getF_foldl_setF_ne {g : Fld} (h : ∀ p < n, fldKey g ≠ fldKey (f p)) :
    getF g ((List.range n).foldl (fun s p => setF (f p) (v p) s) s) = getF g s := by
  induction n with
  | zero => rfl
  | succ n ih =>
    rw [List.range_succ, List.foldl_append, List.foldl_cons, List.foldl_nil,
      getF_setF_ne _ _ _ _ (h n n.lt_succ_self), ih fun p hp => h p (Nat.lt_succ_of_lt hp)]

theorem getF_foldl_setF (hinj : ∀ p < n, ∀ q < n, p ≠ q → fldKey (f p) ≠ fldKey (f q)) {p : Nat} (hp : p < n) :
    getF (f p) ((List.range n).foldl (fun s p => setF (f p) (v p) s) s) = v p % 2 ^ (f p).w := by
  induction n with
  | zero => omega
  | succ n ih =>
    rw [List.range_succ, List.foldl_append, List.foldl_cons, List.foldl_nil]
    by_cases hpn : p = n
    · rw [hpn, getF_setF_self]
    · rw [getF_setF_ne _ _ _ _ (hinj p hp n n.lt_succ_self hpn),
        ih (fun a ha b hb => hinj a (Nat.lt_succ_of_lt ha) b (Nat.lt_succ_of_lt hb)) (by omega)]

theorem foldl_setF_sameButRegs (l : List Nat) : SameButRegs s (l.foldl (fun s p => setF (f p) (v p) s) s) := by
  have hmask := foldl_keeps (g := fun u : State => { u with regs := s.regs }) (f := fun s p => setF (f p) (v p) s)
    (fun _ _ => rfl) l s
  exact hmask

end

theorem getD_map_range (f : Nat → Nat) {n p : Nat} (h : p < n) : ((List.range n).map f).getD p 0 = f p := by
  simp [List.getD_eq_getElem?_getD, h]

theorem foldl_add_start (l : List Nat) (a : Nat) : l.foldl (· + ·) a = l.sum + a := by
  induction l generalizing a with
  | nil => exact (Nat.zero_add a).symm
  | cons x l ih => rw [List.foldl_cons, ih, List.sum_cons]; omega

theorem foldl_add_map {α : Type} (f : α → Nat) (l : List α) (a : Nat) :
    l.foldl (fun n p => n + f p) a = (l.map f).sum + a := by
  rw [← foldl_add_start, List.foldl_map]

/-! ### Quota and slots words (R400) -/

theorem fldKey_quotaF_ne {p q : Nat} (h : p ≠ q) : fldKey (quotaF p) ≠ fldKey (quotaF q) := by
  simp only [fldKey, quotaF, fldLane, Reg.COL_QUOTA]; omega

theorem fldKey_slotsF_ne {p q : Nat} (hp : p < 8) (hq : q < 8) (h : p ≠ q) : fldKey (slotsF p) ≠ fldKey (slotsF q) := by
  simp only [fldKey, slotsF, fldLane, Reg.COL_SLOTS_LO, Reg.COL_SLOTS_HI]
  split <;> split <;> simp only <;> omega

theorem slotsF_w (p : Nat) : (slotsF p).w = 13 := by unfold slotsF; split <;> rfl

section
variable (v : B64) (s : State)

theorem exec_colQuotaWrite_over (h : 96 < ((List.range 8).map fun p => v.toNat / 2 ^ (8 * p) % 128).sum) :
    exec (.colQuotaWrite v) s = .next s := by
  refine if_pos ?_
  rw [foldl_add_start]
  exact h

theorem exec_colQuotaWrite_within (h : ((List.range 8).map fun p => v.toNat / 2 ^ (8 * p) % 128).sum ≤ 96) :
    ∃ u, exec (.colQuotaWrite v) s = .next u ∧ SameButRegs s u ∧ ∀ p < 8, getF (quotaF p) u = v.toNat / 2 ^ (8 * p) % 128 := by
  refine ⟨_, if_neg ?_, foldl_setF_sameButRegs quotaF _ s _, fun p hp => ?_⟩
  · rw [foldl_add_start]
    exact Nat.not_lt.mpr h
  · rw [getF_foldl_setF quotaF _ s (fun _ _ _ _ => fldKey_quotaF_ne) hp, getD_map_range _ hp]
    exact Nat.mod_mod _ _

variable (hi : Bool)

theorem exec_colSlotsWrite_over (h : 4096 < ((List.range 4).map fun p => v.toNat / 2 ^ (16 * p) % 8192).sum +
      ((List.range 4).map fun p => getF (slotsF (if hi then p else p + 4)) s).sum) :
    exec (.colSlotsWrite hi v) s = .next s := by
  refine if_pos ?_
  rw [foldl_add_start, foldl_add_map]
  exact h

theorem exec_colSlotsWrite_within (h : ((List.range 4).map fun p => v.toNat / 2 ^ (16 * p) % 8192).sum +
      ((List.range 4).map fun p => getF (slotsF (if hi then p else p + 4)) s).sum ≤ 4096) :
    ∃ u, exec (.colSlotsWrite hi v) s = .next u ∧ SameButRegs s u ∧ ∀ p < 4,
      getF (slotsF (if hi then p + 4 else p)) u = v.toNat / 2 ^ (16 * p) % 8192 ∧
      getF (slotsF (if hi then p else p + 4)) u = getF (slotsF (if hi then p else p + 4)) s := by
  refine ⟨_, if_neg ?_, foldl_setF_sameButRegs (fun p => slotsF (if hi then p + 4 else p)) _ s _, fun p hp => ⟨?_, ?_⟩⟩
  · rw [foldl_add_start, foldl_add_map]
    exact Nat.not_lt.mpr h
  · rw [getF_foldl_setF (fun p => slotsF (if hi then p + 4 else p)) _ s ?_ hp, getD_map_range _ hp, slotsF_w]
    · exact Nat.mod_mod _ _
    · intro a ha b hb hab
      refine fldKey_slotsF_ne ?_ ?_ ?_ <;> split <;> omega
  · refine getF_foldl_setF_ne (fun p => slotsF (if hi then p + 4 else p)) _ s fun q hq => ?_
    refine fldKey_slotsF_ne ?_ ?_ ?_ <;> split <;> omega

end

/-! ### The route tables (R343) -/

/-- The bytes of a route-table word. -/
def rtBytes (v : Nat) : List Nat := (List.range 8).map fun k => v / 2 ^ (8 * k) % 256

theorem rtBytes_getD (v : Nat) {k : Nat} (h : k < 8) (d : Nat) : (rtBytes v).getD k d = v / 256 ^ k % 256 := by
  rw [show (256 : Nat) = 2 ^ 8 from rfl, ← Nat.pow_mul]
  simp [rtBytes, List.getD_eq_getElem?_getD, h]

section
variable {d v x : Nat} {m : SMap Nat}

theorem smLook_putWord_inside {k : Nat} (h : k < 8) : smLook d (smPutList d m x (rtBytes v)) (x + k) = v / 256 ^ k % 256 := by
  have hlen : (rtBytes v).length = 8 := rfl
  rw [smLook_smPutList, hlen, if_pos (by omega), Nat.add_sub_cancel_left, rtBytes_getD v h]

theorem smLook_putWord_outside {n : Nat} (h : n < x ∨ x + 8 ≤ n) : smLook d (smPutList d m x (rtBytes v)) n = smLook d m n := by
  have hlen : (rtBytes v).length = 8 := rfl
  rw [smLook_smPutList, hlen, if_neg (by omega)]

end

theorem foldl_smPut_range (d x : Nat) (m : SMap Nat) (v : Nat) :
    (List.range 8).foldl (fun m k => smPut d m (x + k) (v / 2 ^ (8 * k) % 256)) m = smPutList d m x (rtBytes v) := rfl

theorem foldl_routes (d x v : Nat) (l : List Nat) (s : State) :
    l.foldl (fun s k => { s with routes := smPut d s.routes (x + k) (v / 2 ^ (8 * k) % 256) }) s =
      { s with routes := l.foldl (fun m k => smPut d m (x + k) (v / 2 ^ (8 * k) % 256)) s.routes } := by
  induction l generalizing s with
  | nil => rfl
  | cons k l ih => rw [List.foldl_cons, ih, List.foldl_cons]

theorem foldl_mcast (d x v : Nat) (l : List Nat) (s : State) :
    l.foldl (fun s k => { s with mcast := smPut d s.mcast (x + k) (v / 2 ^ (8 * k) % 256) }) s =
      { s with mcast := l.foldl (fun m k => smPut d m (x + k) (v / 2 ^ (8 * k) % 256)) s.mcast } := by
  induction l generalizing s with
  | nil => rfl
  | cons k l ih => rw [List.foldl_cons, ih, List.foldl_cons]

section
variable {s : State}

theorem exec_fabRtDataWrite_inForce (v : B64) (h : getF Reg.FAB_RT_SEL_VERSION s = getF Reg.FAB_EPOCH_CURRENT s) :
    exec (.fabRtDataWrite v) s = .next (bump Reg.FAB_RT_REJECTS 1 s) := congrArg _ (if_pos h)

variable (h : getF Reg.FAB_RT_SEL_VERSION s ≠ getF Reg.FAB_EPOCH_CURRENT s)
include h

theorem exec_fabRtDataWrite_unicast (v : B64) (hm : getB Reg.FAB_RT_SEL_MCAST s = false) : exec (.fabRtDataWrite v) s =
    .next { s with
      routes := smPutList 0x3F s.routes (getF Reg.FAB_RT_SEL_VERSION s * 32768 + getF Reg.FAB_RT_SEL_INDEX s * 8)
        (rtBytes v.toNat) } := by
  unfold exec
  simp only [execFabRtDataWrite, rtWrite, h, hm, if_false, Bool.false_eq_true]
  rw [foldl_routes, foldl_smPut_range]

theorem exec_fabRtDataWrite_multicast (v : B64) (hm : getB Reg.FAB_RT_SEL_MCAST s = true) : exec (.fabRtDataWrite v) s =
    .next { s with
      mcast := smPutList 0 s.mcast (getF Reg.FAB_RT_SEL_VERSION s * 4096 + getF Reg.FAB_RT_SEL_INDEX s * 8)
        (rtBytes v.toNat) } := by
  unfold exec
  simp only [execFabRtDataWrite, rtWrite, h, hm, if_false, if_true]
  rw [foldl_mcast, foldl_smPut_range]

end

/-! ### Epochs and held packets -/

theorem exec_fabEpochSwitch {s : State} (hopen : s.frozen = false) (b : Bool) : exec (.fabEpochSwitch b) s =
    .next (if getB Reg.FAB_EPOCH_CURRENT s = b then s else setB Reg.FAB_EPOCH_CURRENT b (bump Reg.FAB_EPOCH_SWITCHES 1 s)) := by
  unfold exec
  simp only [execFabEpochSwitch, heldOr_open hopen]

/-- R336, R270: the one held packet leaves once neither its fence nor the order of its ring holds it. -/
theorem exec_fencedPacketRelease_one {s : State} {id : Nat} {r : Req} (hf : s.fenced = [id]) (hr : lookO s.reqs id = some r) :
    exec .fencedPacketRelease s = .next (if (r.fence && fenceHeld id r s || orderHeld r s) = true then s
      else leaveReq id r { s with fenced := [] }) := by
  unfold exec
  simp [execFencedPacketRelease, hf, hr]

/-- Settles O41: each word on both sides of its bound, each table by the version in force, and a held packet by what holds it. -/
theorem tablesAndQuotas : Obligations.TablesAndQuotas := by
  refine ⟨?words, ?tables⟩
  case words =>
    rintro v s q r rfl rfl
    refine ⟨exec_colQuotaWrite_within v s, ?_, exec_colQuotaWrite_over v s⟩
    rintro hi f g rfl rfl
    exact ⟨exec_colSlotsWrite_within v s hi, exec_colSlotsWrite_over v s hi⟩
  case tables =>
    rintro s v ver i cur rfl rfl rfl
    refine ⟨fun h hm => ⟨_, exec_fabRtDataWrite_unicast h v hm, rfl, rfl, fun k => smLook_putWord_inside,
        fun n => smLook_putWord_outside⟩,
      fun b hopen hb => (exec_fabEpochSwitch hopen b).trans (by rw [if_neg hb]),
      fun id r hf hr => ⟨fun h => (exec_fencedPacketRelease_one hf hr).trans (by rw [h]; rfl),
        fun h => (exec_fencedPacketRelease_one hf hr).trans (by rw [if_pos h])⟩,
      fun b hopen hb => (exec_fabEpochSwitch hopen b).trans (by rw [if_pos hb]),
      exec_fabRtDataWrite_inForce v,
      fun h hm => ⟨_, exec_fabRtDataWrite_multicast h v hm, rfl, rfl, fun k => smLook_putWord_inside,
        fun n => smLook_putWord_outside⟩⟩

end Sys2Proof.Machine
end

section
/-! PROOFS. Caps (R422 to R424, R449, R456, R521): windows, the rack's loss, the orphan cap and the bounds of L. -/

namespace Sys2Proof.Machine

/-- A side-band request that a core takes at once. -/
theorem sbReq_open {s : State} (h : SbOpen s) (i : Instr) (f : State → State) : sbReq i f s = f s := by
  simp only [sbReq, h.powered, h.hub, h.core, heldOr_open h.open_, Bool.not_true, Bool.or_false, Bool.false_eq_true, if_false,
    if_true]

/-! ### The bounds of L (R422, R449) -/

theorem foldl_min_le_start (l : List Nat) (a : Nat) : l.foldl min a ≤ a := by
  induction l generalizing a with
  | nil => exact Nat.le_refl a
  | cons b l ih => exact Nat.le_trans (ih _) (Nat.min_le_left a b)

theorem foldl_min_le_mem {l : List Nat} {b : Nat} (h : b ∈ l) (a : Nat) : l.foldl min a ≤ b := by
  induction l generalizing a with
  | nil => exact absurd h List.not_mem_nil
  | cons c l ih =>
    rcases List.mem_cons.mp h with rfl | h
    · exact Nat.le_trans (foldl_min_le_start l _) (Nat.min_le_right a b)
    · exact ih h _

theorem limitL_le_of_effCap_le {s : State} {k : Nat} (h : 900 ≤ k) (heff : effCap s ≤ k) : limitL s ≤ k :=
  Nat.max_le.mpr ⟨h, Nat.le_trans (foldl_min_le_start _ _) heff⟩

theorem limitL_bounds (s : State) :
    900 ≤ limitL s ∧ (900 ≤ tdp s → limitL s ≤ tdp s) ∧ ∀ k ∈ validCaps s, 900 ≤ k → limitL s ≤ k :=
  ⟨Nat.le_max_left .., fun h => limitL_le_of_effCap_le h (foldl_min_le_start _ _),
    fun _ hk h => limitL_le_of_effCap_le h (foldl_min_le_mem hk _)⟩

/-! ### A cap of the host, of the firmware and of the rack manager -/

theorem capOfWrite_true (w : B16) : capOfWrite w.toNat true = if w = 0 then none else some w.toNat := by
  have hzero : w.toNat = 0 ↔ w = 0 := BitVec.toNat_eq (x := w) (y := 0) |>.symm
  simp [capOfWrite, hzero]

section
variable {s : State} (hopen : s.frozen = false)
include hopen

theorem exec_pwrCapHostWrite {v : B64} {c : Option Nat}
    (hc : c = if v.getLsbD 16 && v.toNat % 65536 ≠ 0 then some (v.toNat % 65536) else none) :
    exec (.pwrCapHostWrite v) s = .next (capWrite .host c s) := by
  have hbits : (v.extractLsb' 0 16).toNat = v.toNat % 65536 := by simp
  unfold exec
  simp only [execPwrCapHostWrite, heldOr_open hopen, capOfWrite, hbits, hc]

theorem exec_fwCapUpdate (w : B16) : exec (.fwCapUpdate w) s = .next (if s.mgmt.up then
    setLimits (setF Reg.PWR_CAP_FW_WATTS w.toNat (setB Reg.PWR_CAP_FW_VALID (w ≠ 0) s)) else s) := by
  unfold exec
  simp only [execFwCapUpdate, heldOr_open hopen]

theorem exec_rackRefreshTimeout (hd : s.pwr.refreshDue = true) (ht : timerDue .refresh 0 3000000000 s = true) :
    exec .rackRefreshTimeout s = .next (logEv .rackManagerLost none none 0 []
      (setB Reg.PWR_CAP_RACK_LOST true (timerSet .orphan 0 (modP (fun x => { x with refreshDue := false, orphanDue := true }) s)))) := by
  unfold exec
  simp only [execRackRefreshTimeout, heldOr_open hopen, hd, ht, and_self, if_true]

theorem exec_orphanTimeout {u : State} (hd : s.pwr.orphanDue = true) (ht : timerDue .orphan 0 10000000000 s = true)
    (hc : rackCap s = none) (hu : u = setB Reg.PWR_CAP_RACK_ORPHAN true { s with pwr := { s.pwr with orphanDue := false } })
    (hcu : rackCap u = none) :
    exec .orphanTimeout s = .next (capOpen .rack u.pwr.rackHeld (capSet .rack (some (getF Reg.PWR_ORPHAN_ORPHAN_W s)) u)) := by
  subst hu
  unfold exec
  simp only [execOrphanTimeout, heldOr_open hopen, hd, ht, and_self, if_true, hc, modP, hcu, reduceCtorEq, if_false]

theorem exec_capWindowExpire (o : CapOwner) :
    exec (.capWindowExpire o) s = .next (if capWindowOver o s then capWindowEnd o s else s) := by
  unfold exec
  simp only [execCapWindowExpire, heldOr_open hopen]

end

section
variable {rq : Nat} {w : B16} {s : State} (h : SbOpen s)
include h

theorem exec_setRackCap : exec (.setRackCap rq w) s = .next (sbCode rq 0 (capWrite .rack (if w = 0 then none else some w.toNat)
    (setF Reg.PWR_CAP_RACK_LOST 0 (setF Reg.PWR_CAP_RACK_ORPHAN 0
      (timerSet .refresh 0 (modP (fun x => { x with refreshDue := true, orphanDue := false }) s)))))) := by
  unfold exec
  simp only [execSetRackCap, sbReq_open h, capOfWrite_true]

theorem exec_setOrphanCap : exec (.setOrphanCap rq w) s = .next (if 900 ≤ w.toNat ∧ w.toNat ≤ tdp s then
    sbCode rq 0 (setF Reg.PWR_ORPHAN_ORPHAN_W w.toNat s) else sbCode rq 2 s) := by
  unfold exec
  simp only [execSetOrphanCap, sbReq_open h]

end

/-! ### The end of a window (R424) -/

section
variable {o : CapOwner} {s : State}

theorem capWindowEnd_none (h : (capHeld o s).2 = []) : capWindowEnd o s = capHold o false [] s := by simp only [capWindowEnd, h]

/-- R423: a change while no window is open applies at once. -/
theorem capWrite_closed (h : (capHeld o s).1 = false) (c : Option Nat) :
    capWrite o c s = if capVal o s = c then s else capOpen o [] (capSet o c s) := by
  simp only [capWrite, h, Bool.false_eq_true, if_false]

theorem capWrite_during (h : (capHeld o s).1 = true) (c : Option Nat) :
    capWrite o c s = capHold o true ((capHeld o s).2 ++ [c]) s := if_pos h

/-- The lowest held value, which was the last, applies and a new window opens. -/
theorem capWindowEnd_lowest {x low : Option Nat} {l : List (Option Nat)} (h : (capHeld o s).2 = x :: l) (hlow : low = l.foldl capLower x)
    (hlast : (x :: l).getLast? = some low) (hv : capVal o s ≠ low) : capWindowEnd o s = capOpen o [] (capSet o low s) := by
  simp [capWindowEnd, h, hlast, ← hlow, hv]

end

/-- Settles O46: a write by its window, the rack's two timeouts, the end of a window by what was held, and L by its folds. -/
theorem powerCaps : Obligations.PowerCaps := by
  intro v w o rq c s hopen
  refine ⟨fun hc => ⟨fun hwin => ?_, fun hwin => ?_⟩, fun hup => (exec_fwCapUpdate hopen w).trans (by rw [if_pos hup]),
    fun h => ⟨exec_setRackCap h, fun hlo hhi => (exec_setOrphanCap h).trans (by rw [if_pos ⟨hlo, hhi⟩])⟩,
    exec_rackRefreshTimeout hopen, ?orphan,
    fun hover => ⟨fun hheld => ?_, fun x l low hheld hlow hlast hv => ?_⟩, limitL_bounds s,
    fun hearly => (exec_capWindowExpire hopen o).trans (by rw [hearly]; rfl),
    fun h hw => (exec_setOrphanCap h).trans (by rw [if_neg (by omega)]),
    fun hup => (exec_fwCapUpdate hopen w).trans (by rw [hup]; rfl)⟩
  · exact (exec_pwrCapHostWrite hopen hc).trans (congrArg _ (capWrite_closed (o := .host) hwin c))
  · exact (exec_pwrCapHostWrite hopen hc).trans (congrArg _ (capWrite_during (o := .host) hwin c))
  case orphan =>
    rintro n u hd ht hc rfl hu hcu
    exact exec_orphanTimeout hopen hd ht hc hu hcu
  · rw [exec_capWindowExpire hopen, if_pos hover, capWindowEnd_none hheld]
  · rw [exec_capWindowExpire hopen, if_pos hover, capWindowEnd_lowest hheld hlow hlast hv]

end Sys2Proof.Machine
end

section
/-! PROOFS. The estimator, the gain, the limiter and the shares of the limit (R420, R421, R428, R431, R432, R443). -/

namespace Sys2Proof.Machine

/-! ### Events that come at their interval -/

section
variable {s : State}

theorem exec_powerEstimateTick (hp : s.powered = true) (ht : timerDue .estimate 0 4000 s = true) (dyn stat : Nat) :
    exec (.powerEstimateTick dyn stat) s = .next (modP (fun x => { x with
      estSum := x.estSum + (dyn * s.pwr.gain / 1000000 + stat)
      estN := x.estN + 1
      estHist := ((dyn * s.pwr.gain / 1000000 + stat) :: x.estHist).take 25 }) (timerSet .estimate 0 s)) := by
  unfold exec
  simp only [execPowerEstimateTick, hp, if_true, every_due ht]

theorem exec_estimateGainCorrect (hp : s.powered = true) (ht : timerDue .gain 0 1000000 s = true) (w v a : B16) :
    exec (.estimateGainCorrect w v a) s = .next (gainCorrect w.toNat v.toNat a.toNat (timerSet .gain 0 s)) := by
  unfold exec
  simp only [execEstimateGainCorrect, hp, if_true, every_due ht]

theorem exec_limiterEval (hr : railsOn s = true) (ht : timerDue .limiter 0 4000 s = true) (freq duty : Nat) :
    exec (.limiterEval freq duty) s = .next (limiterEval freq duty (timerSet .limiter 0 s)) := by
  unfold exec
  simp only [execLimiterEval, hr, if_true, every_due ht]

theorem exec_partitionAllocate (hp : s.powered = true) (hopen : s.frozen = false) (ht : timerDue .allocate 0 1000000 s = true)
    (demands : List Nat) (other : Nat) (use : List Nat) :
    exec (.partitionAllocate demands other use) s = .next (allocateAll demands other use (timerSet .allocate 0 s)) := by
  unfold exec
  simp only [execPartitionAllocate, heldOr_open hopen, hp, if_true, every_due ht]

theorem exec_throttleSampleTick (hp : s.powered = true) :
    exec .throttleSampleTick s = .next ((List.range 11).foldl countReason s) := by
  unfold exec
  simp only [execThrottleSampleTick, hp, if_true]

/-- R428: outside the step after a brake, the wish is held to 600 MHz and the target, in steps of 25. -/
theorem limiterEval_wish {freq duty want : Nat} (h : s.pwr.skip = false)
    (hw : want = max 600 (min (if headroom s then targetF s else 1050) freq) / 25 * 25) :
    limiterEval freq duty s = retarget 1 (retarget 0 { s with
      clk0 := { s.clk0 with want := want, duty := max 4 (min 16 duty) }
      clk1 := { s.clk1 with want := want, duty := max 4 (min 16 duty) } }) := by
  subst hw
  rw [limiterEval, if_neg (by simp [h])]
  rfl

end

/-! ### The gain (R421) -/

theorem nextGain_bounds {g : Nat} (e m : Nat) (hlo : 800000 ≤ g) (hhi : g ≤ 1250000) :
    800000 ≤ nextGain g e m ∧ nextGain g e m ≤ 1250000 ∧
      g - g / 100 ≤ max 800000 (nextGain g e m) ∧ nextGain g e m ≤ g + g / 100 := by
  unfold nextGain
  generalize (if e = 0 then g else g * m / e) = ideal
  dsimp only
  omega

/-! ### Shares of the limit (R431, R432) -/

/-- The nearest whole number to a quotient keeps the bounds of the quotient. -/
theorem nearest_bounds {x w lo hi : Nat} (hlo : lo * w ≤ x) (hhi : x < hi * w) : lo ≤ nearest x w ∧ nearest x w ≤ hi := by
  have hw : 0 < w := Nat.pos_of_ne_zero (by rintro rfl; omega)
  rw [nearest, if_neg (Nat.pos_iff_ne_zero.mp hw)]
  constructor
  · rw [Nat.le_div_iff_mul_le (by omega)]
    calc lo * (2 * w) = 2 * (lo * w) := Nat.mul_left_comm ..
      _ ≤ 2 * x + w := by omega
  · refine Nat.le_of_lt_succ ((Nat.div_lt_iff_lt_mul (by omega)).mpr ?_)
    calc 2 * x + w < 2 * (hi * w) + 2 * w := by omega
      _ = (hi + 1) * (2 * w) := by rw [Nat.add_mul, Nat.one_mul, Nat.mul_left_comm]

/-- A share lies between the smaller of guarantee and demand, and the demand. -/
def ShareFits (c : Claim) (out : List (Nat × Nat)) : Prop := ∃ a, (c.p, a) ∈ out ∧ c.need ≤ a ∧ a ≤ c.demand

theorem fillShares_fits (n rest : Nat) {l : List Claim} (h : ∀ c ∈ l, c.need ≤ c.demand ∧ 0 < c.weight) :
    ∀ c ∈ l, ShareFits c (fillShares n rest l) := by
  induction n generalizing rest l with
  | zero => exact fun c hc => ⟨c.need, List.mem_map_of_mem hc, Nat.le_refl _, (h c hc).1⟩
  | succ n ih =>
    intro c hc
    rw [fillShares]
    generalize l.foldl (fun a c => a + c.weight) 0 = w
    split
    · by_cases hfull : c.demand * w ≤ c.need * w + rest * c.weight
      · exact ⟨c.demand, List.mem_append_left _ (List.mem_map_of_mem (List.mem_filter.mpr ⟨hc, by simpa using hfull⟩)), (h c hc).1,
          Nat.le_refl _⟩
      · obtain ⟨a, hmem, hfit⟩ := ih (l := l.filter fun c => !decide (c.demand * w ≤ c.need * w + rest * c.weight)) _
          (fun c hc => h c (List.mem_filter.mp hc).1) c
          (List.mem_filter.mpr ⟨hc, by simpa using hfull⟩)
        exact ⟨a, List.mem_append_right _ hmem, hfit⟩
    · next hnone =>
      have hfull : ¬c.demand * w ≤ c.need * w + rest * c.weight := fun hf =>
        hnone (List.any_eq_true.mpr ⟨c, hc, by simpa using hf⟩)
      obtain ⟨hlo, hhi⟩ := nearest_bounds (lo := c.need) (hi := c.demand) (Nat.le_add_right _ _) (Nat.not_le.mp hfull)
      exact ⟨_, List.mem_map_of_mem (f := fun c => (c.p, nearest (c.need * w + rest * c.weight) w)) hc, hlo, hhi⟩

theorem sum_need (l : List Claim) : l.foldl (fun a c => a + c.need) 0 = (l.map Claim.need).sum := foldl_add_map Claim.need l 0

theorem allocate_scaled {b : Nat} {l : List Claim} (h : b < (l.map Claim.need).sum) :
    allocate b l = l.map fun c => (c.p, nearest (c.need * b) (l.map Claim.need).sum) := by
  rw [← sum_need] at h ⊢
  exact if_pos h

theorem allocate_fits {b : Nat} {l : List Claim} (h : (l.map Claim.need).sum ≤ b)
    (hl : ∀ c ∈ l, c.need ≤ c.demand ∧ 0 < c.weight) : ∀ c ∈ l, ShareFits c (allocate b l) := by
  have hfill : allocate b l = fillShares 8 (b - l.foldl (fun a c => a + c.need) 0) l :=
    if_neg (Nat.not_lt.mpr (sum_need l ▸ h))
  rw [hfill]
  exact fillShares_fits _ _ hl

/-- Settles O47: the events at their intervals, the bounds of the gain, and the shares by rounds of the division. -/
theorem powerControl : Obligations.PowerControl := by
  refine ⟨fun s hp => ⟨?_, fun w v a ht => exec_estimateGainCorrect hp ht w v a,
      fun freq duty hr ht => exec_limiterEval hr ht freq duty,
      fun demands other use hopen ht => exec_partitionAllocate hp hopen ht demands other use,
      exec_throttleSampleTick hp, fun freq duty want h hw => limiterEval_wish h hw⟩,
    fun g e m hlo hhi => nextGain_bounds e m hlo hhi, fun b l => ⟨allocate_scaled, allocate_fits⟩⟩
  rintro dyn stat u ht rfl
  exact exec_powerEstimateTick hp ht dyn stat

end Sys2Proof.Machine
end

section
/-! PROOFS. The brake, the Tamp, the input and the compute rails (R434, R435, R454, R455, R457, R478). -/

namespace Sys2Proof.Machine

/-! ### With the rails off, what stood on the dies is gone -/

/-- R478: no tile, no byte of HBM, no kernel and no channel is listed, and the die clocks stand. -/
structure DiesGone (s : State) : Prop where
  tiles : s.tiles = []
  hbm : s.hbm = []
  written : s.written = []
  kernels : s.kernels = []
  chans : s.chans = []
  clk0 : s.clk0.f = 0
  clk1 : s.clk1.f = 0

theorem diesGone_ite {p : Prop} [Decidable p] {x y : State} (hx : DiesGone x) (hy : DiesGone y) : DiesGone (if p then x else y) := by
  split <;> assumption

section
variable {s : State} (h : DiesGone s)
include h

theorem diesGone_of_logMask {t : State} (hm : logMask t = logMask s) : DiesGone t where
  tiles := (logMask_eq State.tiles (fun _ => rfl) hm).trans h.tiles
  hbm := (logMask_eq State.hbm (fun _ => rfl) hm).trans h.hbm
  written := (logMask_eq State.written (fun _ => rfl) hm).trans h.written
  kernels := (logMask_eq State.kernels (fun _ => rfl) hm).trans h.kernels
  chans := (logMask_eq State.chans (fun _ => rfl) hm).trans h.chans
  clk0 := (congrArg Clk.f (logMask_eq State.clk0 (fun _ => rfl) hm)).trans h.clk0
  clk1 := (congrArg Clk.f (logMask_eq State.clk1 (fun _ => rfl) hm)).trans h.clk1

theorem diesGone_setF (f : Fld) (v : Nat) : DiesGone (setF f v s) := { h with }

theorem diesGone_modP (f : Pwr → Pwr) : DiesGone (modP f s) := { h with }

theorem diesGone_timerSet (t : Timer) (n : Nat) : DiesGone (timerSet t n s) := { h with }

theorem diesGone_logEv (e : Ev) (p c : Option Nat) (l : Nat) (a : List Byte) : DiesGone (logEv e p c l a s) :=
  diesGone_of_logMask h (logMask_logEv e p c l a s)

theorem diesGone_finishCmd (r i st aux d : Nat) (p a : Bool) : DiesGone (finishCmd r i st aux d p a s) :=
  have hchans : (finishCmd r i st aux d p a s).chans = s.chans.filter fun e => e.2 ≠ cmdKey r i + 1 := rfl
  ⟨h.tiles, h.hbm, h.written, h.kernels, by rw [hchans, h.chans]; rfl, h.clk0, h.clk1⟩

theorem diesGone_capFinish (st aux : Nat) : DiesGone (capFinish st aux s) := by
  unfold capFinish
  exact List.foldlRecOn (motive := DiesGone) (capWaiters s) _ h fun _ hu w _ => diesGone_finishCmd hu w.1 w.2 st aux 0 false false

/-- R449: bringing the limits up to date touches registers, the log and commands that wait for a cap. -/
theorem diesGone_setLimits : DiesGone (setLimits s) := by
  unfold setLimits
  extract_lets s1 s2 s3 eff src s4 l s5 was s6
  have h1 : DiesGone s1 := diesGone_setF h ..
  have h2 : DiesGone s2 := diesGone_setF h1 ..
  have h3 : DiesGone s3 := diesGone_setF h2 ..
  have h4 : DiesGone s4 := diesGone_setF (diesGone_setF (diesGone_setF h3 ..) ..) ..
  have h5 : DiesGone s5 := diesGone_ite h4 (diesGone_setF (diesGone_modP h4 _) ..)
  have h6 : DiesGone s6 := diesGone_setF (diesGone_setF h5 ..) ..
  exact diesGone_ite (diesGone_capFinish (diesGone_logEv h6 ..) ..) h6

theorem diesGone_waitNote (a b : Nat) : DiesGone (waitNote a b s) := by
  unfold waitNote
  exact diesGone_ite (diesGone_timerSet h ..) (diesGone_ite { h with } h)

theorem diesGone_sensorNote (id a b : Nat) : DiesGone (sensorNote id a b s) := by
  unfold sensorNote
  refine diesGone_ite h (diesGone_ite ?_ (diesGone_of_logMask h (logMask_outboxPush ..)))
  exact { diesGone_of_logMask h (logMask_logRaw .sidebandOutboxFull none none 0 [] s) with }

theorem diesGone_setBoot (v : Nat) : DiesGone (setBoot v s) :=
  diesGone_sensorNote (diesGone_setF (diesGone_waitNote h ..) ..) ..

theorem diesGone_bootRailsOff : DiesGone (bootRailsOff s) := by
  unfold bootRailsOff
  extract_lets st
  have hrerun : DiesGone { s with rerun := some (st, getF Reg.BOOT_STAT_CAUSE s) } := { h with }
  have hstep : DiesGone { s with bootAt := s.tb } := { h with }
  exact diesGone_ite (diesGone_setBoot hrerun 1) (diesGone_ite (diesGone_setBoot (diesGone_setF hstep ..) 1) h)

end

/-- R478: the compute rails, turned off while they are on, leave nothing on the dies. -/
theorem diesGone_railsOff {s : State} (h : railsOn s = true) (cause : Nat) : DiesGone (railsOff cause s) := by
  rw [railsOff, h]
  exact diesGone_bootRailsOff (diesGone_setLimits ⟨rfl, rfl, rfl, rfl, rfl, rfl, rfl⟩)

theorem railsOff_off {s : State} (h : railsOn s = false) (cause : Nat) : railsOff cause s = s := by rw [railsOff, h]; rfl

/-! ### The brake and the clamps (R434, R435) -/

theorem clockDuty_tamped {s : State} (hr : s.pins.resetN = false) (h : tampOn s = true) : clockDuty s = 50 := by
  simp only [clockDuty, hr, h, Bool.false_eq_true, if_false, if_true]

theorem clockDuty_easing {s : State} (hr : s.pins.resetN = false) (h : tampOn s = false) (he : s.pwr.ease ≠ 0) : clockDuty s = 75 := by
  simp only [clockDuty, hr, h, he, Bool.false_eq_true, if_false, ne_eq, not_false_eq_true, if_true]

theorem exec_brakeRelease (s : State) : exec .brakeRelease s = .next (if s.pins.brake then
    setB Reg.PWR_RAILS_BRAKE false (modP (fun x => { x with ease := 20000 }) { s with pins := { s.pins with brake := false } })
  else s) := rfl

theorem exec_brakeRelease_braked {s : State} (hb : s.pins.brake = true) : exec .brakeRelease s = .next (
    setB Reg.PWR_RAILS_BRAKE false (modP (fun x => { x with ease := 20000 }) { s with pins := { s.pins with brake := false } })) := by
  rw [exec_brakeRelease, if_pos hb]

section
variable {s : State} (h : s.pwr.estHist.length = 25)
include h

theorem exec_tampTdpClamp : exec .tampTdpClamp s = .next (
    if tdp s * 25 * 105 < estAverage s * 100 then { s with pwr := { s.pwr with clampTdp := true } }
    else if estAverage s ≤ tdp s * 25 then { s with pwr := { s.pwr with clampTdp := false } } else s) := by
  unfold exec
  simp only [execTampTdpClamp, h, Nat.lt_irrefl, if_false, modP]

end

/-! ### Orders that turn the rails off (R455) -/

section
variable {s : State} (h : SbOpen s) (rq : Nat)
include h

theorem exec_setRackOff (v : Byte) : exec (.setRackOff rq v) s = .next (
    if v = 1 then sbCode rq 0 (railsOff 1 (setB Reg.PWR_RAILS_RACK_OFF true s))
    else if v = 2 then sbCode rq 0 (setB Reg.PWR_RAILS_RACK_OFF false s) else sbCode rq 0x81 s) := by
  unfold exec
  simp only [execSetRackOff, sbReq_open h]

end

section
variable {s : State} (hopen : s.frozen = false)
include hopen

theorem exec_hostOffWrite (v : Bool) : exec (.hostOffWrite v) s = .next (
    if v then railsOff 2 (setB Reg.PWR_RAILS_HOST_OFF v s) else setB Reg.PWR_RAILS_HOST_OFF v s) := by
  unfold exec
  simp only [execHostOffWrite, heldOr_open hopen]

theorem exec_undervoltage : exec .undervoltage s = .next (railsOff 6 { s with pins := { s.pins with under := true, hotswap := false } }) := by
  unfold exec
  simp only [execUndervoltage, heldOr_open hopen, modPins]

theorem exec_overvoltage : exec .overvoltage s = .next (railsOff 7 { s with pins := { s.pins with overV := true } }) := by
  unfold exec
  simp only [execOvervoltage, heldOr_open hopen, modPins]

end

section
variable {s : State} (h : s.powered = true)
include h

theorem exec_inputCurrentLimit : exec .inputCurrentLimit s = .next { s with pwr := { s.pwr with clampI := true } } := by
  unfold exec
  simp only [execInputCurrentLimit, h, if_true, modP]

theorem exec_inputSag : exec .inputSag s =
    .next (setLimits { s with pins := { s.pins with sag := true }, pwr := { s.pwr with lowV := true } }) := by
  unfold exec
  simp only [execInputSag, modPins, h, if_true, modP]

end

/-- Settles O49: each event by its condition, and the rails' end by what it leaves of the dies. -/
theorem brakeAndRails : Obligations.BrakeAndRails := by
  rintro cause rq s r rfl
  refine ⟨fun hp => ⟨exec_inputCurrentLimit hp, exec_inputSag hp⟩, rfl, rfl,
    fun hlen => ⟨fun hover => (exec_tampTdpClamp hlen).trans (by rw [if_pos hover]),
      fun hunder => (exec_tampTdpClamp hlen).trans (by rw [if_neg (by omega), if_pos hunder])⟩,
    fun hopen => ⟨exec_hostOffWrite hopen true, exec_hostOffWrite hopen false, exec_undervoltage hopen, exec_overvoltage hopen⟩,
    fun h => ⟨exec_setRackOff h rq 1, exec_setRackOff h rq 2⟩, ?assert, fun hb => ?release,
    fun hoff => railsOff_off hoff cause, fun hon _ => ?gone,
    fun hb => (exec_brakeRelease s).trans (by rw [hb]; rfl),
    fun hlen hover hunder => (exec_tampTdpClamp hlen).trans (by rw [if_neg (by omega), if_neg (by omega)]),
    fun h v h1 h2 => (exec_setRackOff h rq v).trans (by rw [if_neg h1, if_neg h2])⟩
  case assert =>
    refine ⟨_, rfl, rfl, rfl, getB_setB_self (by decide) .., fun hr => clockDuty_tamped hr ?_, rfl, rfl⟩
    exact Bool.or_true _
  case release =>
    refine ⟨_, exec_brakeRelease_braked hb, rfl, rfl, getB_setB_self (by decide) .., fun hr ht hi => clockDuty_easing hr ?_ ?_⟩
    · show (s.pwr.clampTdp || s.pwr.clampI || false) = false
      rw [ht, hi]; rfl
    · exact (by decide : (20000 : Nat) ≠ 0)
  case gone =>
    obtain ⟨ht, hh, hw, hk, hc, h0, h1⟩ := diesGone_railsOff hon cause
    exact ⟨ht, hh, hw, hk, hc, h0, h1⟩

end Sys2Proof.Machine
end

section
/-! PROOFS. A ring starts a command (R262 to R268): reading the descriptor, the checks, and the commands that pass them. -/

namespace Sys2Proof.Machine

/-! ### What a read of HBM can change besides its answer (R216, R217) -/

/-- The state with all taken out that a read of HBM can change: counters, the log and its outbox, the fate of a block, and the
repair queue. -/
def readMask (s : State) : State :=
  { s with
    freeCtr := 0, stamps := [], regs := [], sameCyc := [], log := [], logLast := [], outbox := [], fseq := 0
    outboxFull := false, sent := [], blkFate := [], repairRec := [], cfgQ := [] }

theorem readMask_of_logMask {s t : State} (h : logMask t = logMask s) : readMask t = readMask s := by
  have hmask := congrArg readMask h
  exact hmask

theorem readMask_eq {s t : State} {α : Type} (f : State → α) (hf : ∀ u, f (readMask u) = f u) (h : readMask t = readMask s) :
    f t = f s := by rw [← hf t, h, hf]

theorem readMask_ite {p : Prop} [Decidable p] {s x y : State} (hx : readMask x = readMask s) (hy : readMask y = readMask s) :
    readMask (if p then x else y) = readMask s := by split <;> assumption

theorem readMask_bump (f : Fld) (n : Nat) (s : State) : readMask (bump f n s) = readMask s := rfl

theorem readMask_setSame (f : Fld) (v : Nat) (s : State) : readMask (setSame f v s) = readMask s := rfl

theorem readMask_logEv (e : Ev) (p c : Option Nat) (l : Nat) (a : List Byte) (s : State) :
    readMask (logEv e p c l a s) = readMask s := readMask_of_logMask (logMask_logEv ..)

theorem readMask_logLimited (k g : Nat) (e : Ev) (p c : Option Nat) (l : Nat) (a : List Byte) (s : State) :
    readMask (logLimited k g e p c l a s) = readMask s := by
  unfold logLimited
  split
  · exact readMask_ite rfl (readMask_logEv ..)
  · exact readMask_logEv ..

theorem readMask_cfgPush (op : CfgOp) (s : State) : readMask (cfgPush op s) = readMask s := by
  unfold cfgPush; split <;> rfl

theorem readMask_queueRepair (k loc kind src : Nat) (s : State) : readMask (queueRepair k loc kind src s) = readMask s := by
  unfold queueRepair
  refine readMask_ite rfl (readMask_ite (readMask_logEv ..) (readMask_ite (readMask_logEv ..) ?_))
  exact (readMask_logEv ..).trans (readMask_cfgPush ..)

theorem readMask_noteCe (o n : Nat) (s : State) : readMask (noteCe o n s) = readMask s := by
  unfold noteCe
  simp only [readMask_setSame, readMask_bump]

theorem readMask_noteUe (o : Nat) (b : Bool) (s : State) : readMask (noteUe o b s) = readMask s := by
  unfold noteUe
  simp only [readMask_setSame]

theorem readMask_ueDemand (o q : Nat) (s : State) : readMask (ueDemand o q s) = readMask s := by
  unfold ueDemand repairOnUe
  simp only [readMask_queueRepair, readMask_logLimited, readMask_noteUe, readMask_bump]

theorem readMask_blockFate (o : Nat) (s : State) : readMask (blockFate o s).2 = readMask s := by
  unfold blockFate; split <;> rfl

theorem readMask_blockRead (o q : Nat) (s : State) : readMask (blockRead o q s).2 = readMask s := by
  unfold blockRead
  have hfate := readMask_blockFate o s
  split
  · rfl
  · dsimp only
    split
    · rfl
    · split
      · simp only [readMask_noteCe, readMask_bump]
      · split
        · next u hu => rw [hu] at hfate; exact (readMask_ueDemand o q u).trans hfate
        · next f u _ hu => rw [hu] at hfate; simpa only [readMask_noteCe, readMask_bump] using hfate

/-- A read of HBM changes nothing but what the mask takes out. -/
theorem readMask_hbmRead (o n q : Nat) (s : State) : readMask (hbmRead o n q s).2 = readMask s := by
  unfold hbmRead
  refine List.foldlRecOn (motive := fun a : Except Nat (List Byte) × State => readMask a.2 = readMask s) _ _ rfl fun acc hacc p _ => ?_
  obtain ⟨r, t⟩ := acc
  cases r with
  | error e => exact hacc
  | ok l =>
    have hblock := readMask_blockRead (p.1 / 512 * 512) q t
    dsimp only at hacc ⊢
    split <;> (next u hu => rw [hu] at hblock; exact hblock.trans hacc)

theorem hbmRead_rings (o n q : Nat) (s : State) : (hbmRead o n q s).2.rings = s.rings :=
  readMask_eq State.rings (fun _ => rfl) (readMask_hbmRead o n q s)

theorem hbmRead_ctxs (o n q : Nat) (s : State) : (hbmRead o n q s).2.ctxs = s.ctxs :=
  readMask_eq State.ctxs (fun _ => rfl) (readMask_hbmRead o n q s)

/-! ### A command is taken -/

theorem ringPart_congr {s t : State} (hr : t.rings = s.rings) (hc : t.ctxs = s.ctxs) (r : Nat) : ringPart r t = ringPart r s := by
  simp only [ringPart, getC, getR, hr, hc]

theorem ringPart_pushCmd (r : Nat) (d : List Byte) (s : State) : ringPart r (pushCmd r d s) = ringPart r s := by
  simp only [ringPart, pushCmd, modR_eq, getR_setR, if_true]; rfl

theorem ringPart_taken {r i : Nat} {d : List Byte} {s u : State} (h : readDesc r i s = (.ok d, u)) :
    ringPart r (taken r d u) = ringPart r s := by
  have hu : u = (readDesc r i s).2 := by rw [h]
  rw [taken, ringPart_pushCmd, hu]
  exact ringPart_congr (hbmRead_rings ..) (hbmRead_ctxs ..) r

theorem pushCmd_eq_taken (r : Nat) (d : List Byte) (u : State) : pushCmd r d u = taken r d u := rfl

theorem orElse_none (c : Chk) : orElse none c = c := rfl

section
variable {op r : Nat} {d : List Byte} {u s : State} {check : List Byte → State → Chk} {go : Nat → List Byte → State → State}

/-- R267: a command that may start is taken; its own check decides whether its work begins. -/
theorem startCmd_ready (h : CmdReady op r d u s) (hop : opAssigned op = true) (hcap : op ≠ 0x20 ∨ ringPart r s = 0) :
    startCmd op r check go s = match check d (taken r d u) with
      | some e => finishCmd r (getR r s).next e.1 0 e.2 false false (taken r d u)
      | none => go (getR r s).next d (taken r d u) := by
  have hcapped : refuse 0x0103 (decide (op = 0x20) && decide (ringPart r (taken r d u) ≠ 0)) = none := by
    by_cases ho : op = 0x20
    · simp [refuse, ringPart_taken h.read, hcap.resolve_left (Classical.not_not.mpr ho)]
    · simp [refuse, ho]
  have hheader : badLayout (!headerOk d) = none := by rw [h.header]; rfl
  have horder : ¬(dField d 1 1 % 2 = 1 ∧ (getR r s).cmds.any (·.st = .running) = true) := by
    rintro ⟨hbit, hany⟩
    rcases h.order with ho | ho
    · omega
    · rw [ho] at hany; exact absurd hany (by decide)
  rw [startCmd, if_neg (by simp [h.ready])]
  simp only [h.read, horder, h.isOp, hop, pushCmd_eq_taken, hcapped, hheader, orElse_none, Bool.not_true, Bool.false_eq_true,
    if_false, ne_eq, not_true_eq_false] <;> rfl

theorem startCmd_go (h : CmdReady op r d u s) (hop : opAssigned op = true) (hcap : op ≠ 0x20 ∨ ringPart r s = 0)
    (hcheck : check d (taken r d u) = none) : startCmd op r check go s = go (getR r s).next d (taken r d u) := by
  rw [startCmd_ready h hop hcap, hcheck]

theorem startCmd_unready (h : ringReady r s = false) : startCmd op r check go s = s := by rw [startCmd, h]; rfl

theorem startCmd_unassigned (h : ringReady r s = true) (hread : readDesc r (getR r s).next s = (.ok d, u))
    (hord : dField d 1 1 % 2 = 0) (hop : opAssigned (dField d 0 1) = false) :
    startCmd op r check go s = finishCmd r (getR r s).next 0x0101 0 0 false false (taken r d u) := by
  have horder : ¬(dField d 1 1 % 2 = 1 ∧ (getR r s).cmds.any (·.st = .running) = true) := by omega
  rw [startCmd, if_neg (by simp [h])]
  simp only [hread, horder, hop, Bool.not_false, if_true, if_false, taken]

end

theorem noAccess_ok {part g n : Nat} {w : Bool} {s : State} (h : addrOk part g n w s = true) : noAccess part g n w s = none := if_pos h

end Sys2Proof.Machine
end

section
/-! PROOFS. NOP, WRITE_VALUE, WAIT_VALUE, ACQUIRE and TRIM, and how a ring turns a command away (R229, R230, R263, R266 to
R268). -/

namespace Sys2Proof.Machine

theorem badLayout_false {b : Bool} (h : b = false) : badLayout b = none := by rw [h]; rfl

section
variable {ring : RingId} {d : List Byte} {u s : State}

theorem exec_cmdNop (h : CmdReady 0 ring d u s) : exec (.cmdNop ring) s = .next (if dZero d 8 56 then
    finishCmd ring (getR ring s).next 0 0 0 false false (taken ring d u)
    else finishCmd ring (getR ring s).next 0x0102 0 0 false false (taken ring d u)) := by
  unfold exec
  simp only [execCmdNop, startCmd_ready h rfl (.inl (by decide)), badLayout, refuse, cmdOk]
  cases dZero d 8 56 <;> rfl

theorem exec_cmdWriteValue (h : CmdReady 3 ring d u s) (ha : dField d 8 8 % 8 = 0) (hz : dZero d 24 40 = true)
    (hok : addrOk (ringPart ring s) (dField d 8 8) 8 true (taken ring d u) = true) :
    exec (.cmdWriteValue ring) s = .next (sendWrites ring (getR ring s).next
      (setWork ring (getR ring s).next (.writes [(dField d 8 8, sliceB d 16 8)] 0 0 false) (taken ring d u))) := by
  refine congrArg _ (startCmd_go h rfl (.inl (by decide)) ?_)
  rw [badLayout_false (by simp [ha, hz]), orElse_none, ringPart_taken h.read, noAccess_ok hok]

theorem exec_cmdWaitValue (h : CmdReady 4 ring d u s) (ha : dField d 8 8 % 8 = 0) (hf : dField d 32 1 ≤ 2)
    (hz : dZero d 33 31 = true) (hok : addrOk (ringPart ring s) (dField d 8 8) 8 false (taken ring d u) = true) :
    exec (.cmdWaitValue ring) s = .next (pollValue ring (getR ring s).next (setWork ring (getR ring s).next
      (.poll (dField d 8 8) (BitVec.ofNat 64 (dField d 16 8)) (BitVec.ofNat 64 (dField d 24 8)) (dField d 32 1) false)
      (taken ring d u))) := by
  refine congrArg _ (startCmd_go h rfl (.inl (by decide)) ?_)
  rw [badLayout_false (by simp [ha, hz]; omega), orElse_none, ringPart_taken h.read, noAccess_ok hok]

theorem exec_cmdAcquire (h : CmdReady 5 ring d u s) (ha : acquireBad d = false) (hz : dZero d 24 8 = true)
    (hz' : dZero d 33 31 = true) : exec (.cmdAcquire ring) s = .next (finishCmd ring (getR ring s).next 0 0 0 false false
      (acquire 1 (dField d 32 1) (dField d 8 8 % 32768) (dField d 8 8) (dField d 16 8)
        (acquire 0 (dField d 32 1) (dField d 8 8 % 32768) (dField d 8 8) (dField d 16 8) (taken ring d u)))) :=
  congrArg _ (startCmd_go h rfl (.inl (by decide)) (badLayout_false (by simp [ha, hz, hz'])))

theorem exec_cmdTrim (h : CmdReady 6 ring d u s) (hw : trimWaits ring (getR ring s).next s = false)
    (hc : trimCheck (ringPart ring s) d (taken ring d u) = none) : exec (.cmdTrim ring) s = .next (setWork ring (getR ring s).next
      (.trim (dField d 8 8 / 4096) (dField d 16 8 / 4096))
      (modCmd ring (getR ring s).next (fun c => { c with started := true, effect := true }) (taken ring d u))) := by
  unfold exec
  simp only [execCmdTrim, hw, Bool.false_eq_true, if_false, startCmd_go h rfl (.inl (by decide)) hc]

/-- R162: the ring's one command, when it waits for its next poll, polls. -/
theorem exec_waitValuePoll_one {c : RCmd} (hc : (getR ring s).cmds = [c]) (hopen : s.frozen = false)
    (ht : timerDue .pollValue (cmdKey ring c.idx) 256 s = true) : exec (.waitValuePoll ring) s = .next (pollValue ring c.idx s) := by
  unfold exec
  simp only [execWaitValuePoll, ringHeld, hopen, Bool.false_and, Bool.false_eq_true, if_false, hc, List.foldl_cons,
    List.foldl_nil, ht, if_true]

end

/-- Settles O17: each command by its own checks after those of every command, and the three ways a ring turns one away. -/
theorem simpleCommands : Obligations.SimpleCommands := by
  rintro ring d u v s i a rfl rfl rfl
  refine ⟨fun h hz => (exec_cmdNop h).trans (by rw [if_pos hz]), exec_cmdWriteValue, exec_cmdWaitValue, exec_cmdAcquire, exec_cmdTrim,
    fun c => exec_waitValuePoll_one, fun h => congrArg _ (startCmd_unready h),
    fun h hread hord hop => congrArg _ (startCmd_unassigned h hread hord hop),
    fun h hz => (exec_cmdNop h).trans (by rw [hz]; rfl)⟩

end Sys2Proof.Machine
end

section
/-! PROOFS. The commands that move data (R175, R180, R264, R265): a command that passes its checks begins. -/

namespace Sys2Proof.Machine

theorem refuse_false {n : Nat} {b : Bool} (h : b = false) : refuse n b = none := by rw [h]; rfl

section
variable {ring : RingId} {d : List Byte} {u s : State}

theorem exec_cmdRotaryTable (h : CmdReady 8 ring d u s) (hc : blockCheck d (taken ring d u) = none) :
    exec (.cmdRotaryTable ring) s = .next (gatherStage ring (getR ring s).next 0 [(dField d 8 8, 64)] [] (taken ring d u)) :=
  congrArg _ (startCmd_go h rfl (.inl (by decide)) hc)

theorem exec_cmdAppend (h : CmdReady 7 ring d u s) (hc : blockCheck d (taken ring d u) = none)
    (hl : getB Reg.LIC_CAP0_WALKERS (taken ring d u) = true) :
    exec (.cmdAppend ring) s = .next (gatherStage ring (getR ring s).next 0 [(dField d 8 8, 64)] [] (taken ring d u)) := by
  refine congrArg _ (startCmd_go h rfl (.inl (by decide)) ?_)
  rw [hc, orElse_none, refuse_false (by rw [hl]; rfl)]

theorem exec_cmdDma (h : CmdReady 2 ring d u s) (hc : dmaCheck (ringPart ring s) d (taken ring d u) = none) :
    exec (.cmdDma ring) s = .next (setWork ring (getR ring s).next
      (.copy (dField d 8 8) (dField d 16 8) (dField d 24 8) (dField d 32 1 = 1) 0 0 0) (taken ring d u)) :=
  congrArg _ (startCmd_go h rfl (.inl (by decide)) hc)

theorem exec_cmdCollective (h : CmdReady 0x10 ring d u s) (hc : collCheck (ringPart ring s) d (taken ring d u) = none) :
    exec (.cmdCollective ring) s = .next (collStart ring (getR ring s).next d (taken ring d u)) := by
  refine congrArg _ (startCmd_go h rfl (.inl (by decide)) ?_)
  rw [ringPart_taken h.read, hc]

/-- R264: a kernel with no bindings waits for its tiles. -/
theorem exec_cmdKernel (h : CmdReady 1 ring d u s) (hl : kernelLayout d (taken ring d u) = none)
    (hc : kernelCaps d (taken ring d u) = none) (hn : dField d 48 2 = 0)
    (ha : kernelAccess (ringPart ring (taken ring d u)) (getR ring (taken ring d u)).die d (taken ring d u) = none) :
    exec (.cmdKernel ring) s = .next (kernelWait ring (getR ring s).next d [] (taken ring d u)) := by
  have hcheck : orElse (kernelLayout d (taken ring d u)) (kernelCaps d (taken ring d u)) = none := by rw [hl, hc]; rfl
  refine congrArg _ ((startCmd_go h rfl (.inl (by decide)) hcheck).trans ?_)
  simp only [hn, Nat.zero_mul, if_true, kernelGo, ha, gatherOr]

theorem exec_cmdSysSnapshot (h : CmdReady 9 ring d u s) (hb : snapDestBad (dField d 8 8) (taken ring d u) = false)
    (hz : dZero d 16 48 = true) (ha : addrOk (ringPart ring s) (dField d 8 8) snapSize true (taken ring d u) = true) :
    exec (.cmdSysSnapshot ring) s = .next (snapAsk
      ⟨ringPart ring (taken ring d u), gOff (dField d 8 8), some (ring.val, (getR ring s).next)⟩
      (modCmd ring (getR ring s).next (fun c => { c with started := true })
        (setWork ring (getR ring s).next .elsewhere (taken ring d u)))) := by
  refine congrArg _ (startCmd_go h rfl (.inl (by decide)) ?_)
  rw [badLayout_false (by rw [hb, hz]; rfl), orElse_none, ringPart_taken h.read, noAccess_ok ha]

theorem exec_cmdPowerCap (h : CmdReady 0x20 ring d u s) (hp : ringPart ring s = 0) (hw : dField d 10 1 = 0) (hz : dZero d 11 53 = true) :
    exec (.cmdPowerCap ring) s = .next (finishCmd ring (getR ring s).next 0 0 0 false false
      (capWrite .host (capOfWrite (dField d 8 2) true)
        (modCmd ring (getR ring s).next (fun c => { c with started := true }) (taken ring d u)))) := by
  refine congrArg _ ((startCmd_go h rfl (.inr hp) (badLayout_false (by rw [hw, hz]; rfl))).trans ?_)
  simp only [hw, if_true, cmdOk]

end

/-- Settles O18: each command by its own checks after those of every command. -/
theorem dataCommands : Obligations.DataCommands := by
  rintro ring d u v s i p rfl rfl rfl
  refine ⟨exec_cmdRotaryTable, exec_cmdAppend, exec_cmdDma, exec_cmdCollective, exec_cmdKernel, ?_, ?_⟩
  · rintro h hb hz ha w rfl
    exact exec_cmdSysSnapshot h hb hz ha
  · rintro h hp hw hz - w rfl
    exact exec_cmdPowerCap h hp hw hz

end Sys2Proof.Machine
end

section
/-! PROOFS. The life of a ring (R259, R269, R272, R274, R277): its two enables, its completions and its timeout. -/

namespace Sys2Proof.Machine

section
variable {ring : RingId} {s : State}

/-- R277: the head command, still running, whose time has run out halts the ring. -/
theorem ringTimeout_head {r : Nat} {c : RCmd} {l : List RCmd} (hc : (getR r s).cmds = c :: l) (hboot : getF Reg.BOOT_STAT_STATE s = 2)
    (hen : (getR r s).enable = true) (hh : (getR r s).halted = false) (hb : (getR r s).blocked = false) (hrun : c.st = .running)
    (ht : timedOut (getR r s) c.idx = true) (hctx : (getC (getR r s).ctx s).st ≠ .resetting) :
    ringTimeout r s = timeoutHead r c (getF Reg.LOG_TAIL s)
      (modR r (fun x => { x with halted := true, haltSeq := getF Reg.LOG_TAIL s, haltNote := true })
        (logEv .ringHalted (some (ringPart r s)) (some (getR r s).ctx) r (leBytes 4 c.idx) s)) := by
  have hcover : ringCovers r s = some c := by simp only [ringCovers, hc, List.find?_cons, hrun]
  have hgo : ¬(getF Reg.BOOT_STAT_STATE s ≠ 2 ∨ !(getR r s).enable ∨ (getR r s).halted ∨ (getR r s).blocked ∨
      !timedOut (getR r s) c.idx ∨ (getC (getR r s).ctx s).st = .resetting) := by simp [hboot, hen, hh, hb, ht, hctx]
  simp only [ringTimeout, hcover, if_neg hgo, hrun]

variable (hopen : s.frozen = false)
include hopen

theorem exec_ringEnable (v : B64) : exec (.ringEnable ring v) s = .next (
    if (getR ring s).enable then (if cfg0Put v.toNat (getR ring s) = getR ring s then s else bump Reg.CMD_CFG_REJECTS 1 s)
    else if ringOk (cfg0Put v.toNat (getR ring s)) s then setR ring (ringFresh (cfg0Put v.toNat (getR ring s))) s
    else bump Reg.CMD_CFG_REJECTS 1 (setR ring (cfg0Put v.toNat (getR ring s)) s)) := by
  unfold exec
  simp only [execRingEnable, heldOr_open hopen, ringEnable, cfgReject]

theorem exec_ringDisable (v : B64) : exec (.ringDisable ring v) s = .next (
    if !(getR ring s).enable then setR ring (cfg0Put v.toNat (getR ring s)) s
    else if cfg0Put v.toNat (getR ring s) ≠ getR ring s then bump Reg.CMD_CFG_REJECTS 1 s
    else if ringState ring s = .idle ∨ ringState ring s = .halted then modR ring ringOff (ringDrop ring s) else s) := by
  unfold exec
  simp only [execRingDisable, heldOr_open hopen, ringDisable, cfgReject]

theorem exec_commandComplete (hb : (getR ring s).blocked = false) :
    exec (.commandComplete ring) s = .next (postLate ring 16 (postHead ring s).2) := by
  unfold exec
  simp only [execCommandComplete, heldOr_open hopen, hb, Bool.false_eq_true, if_false]

theorem exec_completionRetry (ht : timerDue .postRetry ring 900000 s = true) :
    exec (.completionRetry ring) s = .next (cqRetry ring (timerSet .postRetry ring s)) := by
  unfold exec
  simp only [execCompletionRetry, heldOr_open hopen, every_due ht]

theorem exec_ringTimeoutExpire : exec (.ringTimeoutExpire ring) s = .next (ringTimeout ring s) := by
  unfold exec
  simp only [execRingTimeoutExpire, heldOr_open hopen]

end

/-- Settles O19: the writes of the enable by the ring's state, and each event of a ring outside and inside a freeze. -/
theorem ringLifecycle : Obligations.RingLifecycle := by
  rintro ring v s x y rfl rfl
  refine ⟨fun hopen hoff => ⟨fun hok => ?_, fun hbad => ?_, ?_⟩, exec_commandComplete, exec_completionRetry,
    fun c l hopen hc hboot hen hh hb hrun ht hctx =>
      (exec_ringTimeoutExpire hopen).trans (congrArg _ (ringTimeout_head hc hboot hen hh hb hrun ht hctx)),
    fun hopen hon => ⟨fun hxy => ?_, fun hxy => ⟨?_, ?_⟩, fun hxy hst => ?_, fun hxy hi hh => ?_⟩, fun hfrozen c hc => ?frozen⟩
  · rw [exec_ringEnable hopen, hoff, if_neg (by decide), if_pos hok]
  · rw [exec_ringEnable hopen, hoff, if_neg (by decide), hbad, if_neg (by decide)]
  · rw [exec_ringDisable hopen, hoff, if_pos (by decide)]
  · rw [exec_ringEnable hopen, if_pos hon, if_pos hxy]
  · rw [exec_ringEnable hopen, if_pos hon, if_neg hxy]
  · rw [exec_ringDisable hopen, hon, if_neg (by decide), if_pos hxy]
  · rw [exec_ringDisable hopen, hon, if_neg (by decide), if_neg (Classical.not_not.mpr hxy), if_pos hst]
  · rw [exec_ringDisable hopen, hon, if_neg (by decide), if_neg (Classical.not_not.mpr hxy), if_neg (not_or.mpr ⟨hi, hh⟩)]
  case frozen =>
    simp only [List.mem_cons, List.not_mem_nil, or_false] at hc
    rcases hc with rfl | rfl | rfl | rfl <;> exact congrArg _ (heldOr_frozen hfrozen _ _)

end Sys2Proof.Machine
end

section
/-! PROOFS. RDMA operations on memory (R242 to R245, R253, R373): performed and answered, or refused. -/

namespace Sys2Proof.Machine

/-- An operation of a live queue pair whose port takes its frame, outside a freeze. -/
theorem qpOp_open {i : Instr} {fr : Frame} {q : B24} {stop : Bool} {f : State → State} {s : State} (hlive : qpLive q.toNat s = true)
    (hfr : frameOk fr q.toNat s = true) (hopen : s.frozen = false) : qpOp i fr q stop f s = .next (f s) := by
  simp only [qpOp, hlive, hfr, hopen, Bool.not_true, Bool.or_false, Bool.false_and, Bool.false_eq_true, if_false]

section
variable {q psn a rkey : Nat} {s u : State}

theorem rdmaAtomic_performed {op : Nat} {b c old : B64} (hk : rkeyOk q a rkey s = true) (ha : a % 8 = 0) (hend : a < hbmEnd)
    (hm : hostMem (getQ q s).part a 8 true s = true) (hw : winOk (getQ q s).part a 8 true true s = true)
    (h : hbmAtomic a op true false b c (freeNat s) (tick1 s) = (some old, u)) :
    rdmaAtomic q psn a rkey op b c s = emitQ q (.atomicOld q psn old) u := by
  have hok : ¬(!rkeyOk q a rkey s || a % 8 ≠ 0 || hbmEnd ≤ a || !hostMem (getQ q s).part a 8 true s ||
      !winOk (getQ q s).part a 8 true true s) := by simp [hk, ha, hm, hw, Nat.not_le.mpr hend]
  simp only [rdmaAtomic, if_neg hok, hostCode, h]

theorem rdmaRead_performed {n : Nat} {l : List Byte} (hn : n ≤ 2 ^ 31) (hk : rkeyOk q a rkey s = true) (hr : isReg a = false)
    (ha : a < dbWin) (hm : hostMem (getQ q s).part a n false s = true) (h : homeRead a n (freeNat s) (tick1 s) = (.ok, l, u)) :
    rdmaRead q psn a rkey n s = emitQ q (.readData q psn l) u := by
  simp only [rdmaRead, Nat.not_lt.mpr hn, hk, hr, Nat.not_le.mpr ha, hm, hostCode, h, Bool.not_true, Bool.false_eq_true, if_false,
    if_true]

variable {l : List Byte} (hn : l.length ≤ 2 ^ 31)
include hn

theorem rdmaWrite_performed (hk : rkeyOk q a rkey s = true) (hr : isReg a = false) (ha : a < dbWin)
    (hm : hostMem (getQ q s).part a l.length true s = true) (h : homeWrite a l (freeNat s) (tick1 s) = (.ok, u))
    (hlive : qpLive q u = true) : rdmaWrite q psn a rkey l s = emitQ q (.ack q psn) u := by
  simp only [rdmaWrite, Nat.not_lt.mpr hn, hk, hr, Nat.not_le.mpr ha, hm, hostCode, h, qpAnswer, hlive, Bool.not_true,
    Bool.false_eq_true, if_false, if_true]

/-- R253: another R_Key is answered with a NAK. -/
theorem rdmaWrite_otherKey (hk : rkeyOk q a rkey s = false) :
    rdmaWrite q psn a rkey l s = bump (ethF (qpPort q s) Reg.ETH_NAK_TX) 1 (emitQ q (.nakAccess q psn) s) := by
  simp only [rdmaWrite, Nat.not_lt.mpr hn, hk, if_false, Bool.not_false, if_true, qpNak]

end

/-- Settles O22: each operation that passes its checks does what its home answers, and the two refusals. -/
theorem rdmaMemory : Obligations.RdmaMemory := by
  rintro q psn fr addr rkey s n a p rfl rfl rfl hlive hfr hopen
  refine ⟨qpOp_open hlive hfr hopen, fun b c old u hk ha hend hm hw => ⟨fun h => ?_, fun h => ?_⟩,
    fun len l u hn hk hr ha hm h => (qpOp_open hlive hfr hopen).trans (congrArg _ (rdmaRead_performed hn hk hr ha hm h)),
    fun data hn => ⟨fun u hk hr ha hm h hl =>
        (qpOp_open hlive hfr hopen).trans (congrArg _ (rdmaWrite_performed hn hk hr ha hm h hl)),
      fun hk => (qpOp_open hlive hfr hopen).trans (congrArg _ (rdmaWrite_otherKey hn hk))⟩, fun o => rfl⟩
  · exact (qpOp_open hlive hfr hopen).trans (congrArg _ (rdmaAtomic_performed hk ha hend hm hw h))
  · exact (qpOp_open hlive hfr hopen).trans (congrArg _ (rdmaAtomic_performed hk ha hend hm hw h))

end Sys2Proof.Machine
end

section
/-! PROOFS. Register writes, and register space over RDMA (R14 to R16, R38, R237, R246). -/

namespace Sys2Proof.Machine

/-! ### Register space over RDMA (R246) -/

section
variable {q psn a rkey : Nat} {s : State}

theorem rdmaRead_register (hk : rkeyOk q a rkey s = true) (hr : isReg a = true) (hp : (getQ q s).part = 0) (ha : a % 8 = 0)
    (hb : regSpaceBacked (a - regWin) = true) : rdmaRead q psn a rkey 8 s =
      emitQ q (.readData q psn (leBytes 8 (readReg (a - regWin) s))) (readNote (a - regWin) s) := by
  simp [rdmaRead, hk, hr, regOk, hp, ha, hb]

/-- A host of another partition is refused, and no access of it counts as misaligned. -/
theorem refuseAccess_otherPart {n : Nat} (hp : (getQ q s).part ≠ 0) : refuseAccess q psn a n s =
    bump (ethF (qpPort q s) Reg.ETH_NAK_TX) 1 (emitQ q (.nakAccess q psn) s) := by
  simp [refuseAccess, regMisaligned, hp, qpNak]

theorem rdmaRead_otherPart (hk : rkeyOk q a rkey s = true) (hr : isReg a = true) (hp : (getQ q s).part ≠ 0) : rdmaRead q psn a rkey 8 s =
    bump (ethF (qpPort q s) Reg.ETH_NAK_TX) 1 (emitQ q (.nakAccess q psn) s) := by
  simp [rdmaRead, hk, hr, regOk, hp, refuseAccess_otherPart]

theorem rdmaWrite_otherPart {l : List Byte} (hn : l.length ≤ 2 ^ 31) (hk : rkeyOk q a rkey s = true) (hr : isReg a = true)
    (hp : (getQ q s).part ≠ 0) : rdmaWrite q psn a rkey l s =
    bump (ethF (qpPort q s) Reg.ETH_NAK_TX) 1 (emitQ q (.nakAccess q psn) s) := by
  have hbad : regOk q a l.length s = false := by simp [regOk, hp]
  simp only [rdmaWrite, Nat.not_lt.mpr hn, hk, hr, hbad, Bool.not_true, Bool.false_eq_true, if_false, if_true,
    refuseAccess_otherPart hp]

end

/-! ### Writes of a register -/

section
variable {off : BitVec 21} {v : B64} {s : State}

theorem exec_registerWrite_open (hhub : hubOn s = true) (hopen : s.frozen = false) (hal : off.toNat % 8 = 0)
    (hb : regSpaceBacked off.toNat = true) : exec (.registerWrite off v) s = .next (writeReg off.toNat v.toNat s) := by
  unfold exec
  simp [execRegisterWrite, hhub, hopen, hal, hb]

theorem exec_registerWrite_noRegister (h : hubOn s = false ∨ off.toNat % 8 ≠ 0 ∨ regSpaceBacked off.toNat = false) :
    exec (.registerWrite off v) s = .next s := congrArg _ (if_pos (by simpa [or_assoc] using h))

theorem exec_registerWrite_held (hhub : hubOn s = true) (hf : s.frozen = true) (hal : off.toNat % 8 = 0)
    (hb : regSpaceBacked off.toNat = true) (hr : regFrozen off.toNat = true) :
    exec (.registerWrite off v) s = .next { s with held := s.held ++ [.registerWrite off v] } := by
  unfold exec
  simp [execRegisterWrite, hhub, hf, hal, hb, hr]

variable (hhub : hubOn s = true) (hopen : s.frozen = false)
include hhub hopen

theorem exec_write_sysId : exec (.registerWrite 0 v) s = .next s := exec_registerWrite_open hhub hopen rfl rfl

theorem exec_write_ringSel : exec (.registerWrite 0x20000 v) s =
    .next (setF Reg.CMD_RING_SEL (v.toNat / 2 ^ Reg.CMD_RING_SEL.lo % 2 ^ Reg.CMD_RING_SEL.w) s) :=
  exec_registerWrite_open hhub hopen rfl rfl

theorem exec_write_ctxSel : exec (.registerWrite 0x20100 v) s =
    .next (setF Reg.CTX_SEL (v.toNat / 2 ^ Reg.CTX_SEL.lo % 2 ^ Reg.CTX_SEL.w) s) :=
  exec_registerWrite_open hhub hopen rfl rfl

theorem exec_write_fabClear : exec (.registerWrite 0x50140 v) s =
    .next (if v.toNat.testBit 0 then clearRegs 0 0x50100 0x50138 s else s) :=
  exec_registerWrite_open hhub hopen rfl rfl

theorem exec_write_gleaner : exec (.registerWrite 0x70200 v) s =
    .next (wPutIn Reg.MEM_GLN_CTL_PERIOD 1 168 v.toNat (wPutIn Reg.MEM_GLN_CTL_PAGE_THRESH 1 65535 v.toNat s)) :=
  exec_registerWrite_open hhub hopen rfl rfl

end

/-! ### A field that takes its range only (R237) -/

theorem wPutIn_out {f : Fld} {lo hi v : Nat} (h : wGet f v < lo ∨ hi < wGet f v) (s : State) : wPutIn f lo hi v s = s :=
  if_neg (by omega)

/-- A written field changes registers only. -/
theorem wPutIn_hbm_tiles (f : Fld) (lo hi v : Nat) (s : State) :
    (wPutIn f lo hi v s).hbm = s.hbm ∧ (wPutIn f lo hi v s).tiles = s.tiles := by unfold wPutIn; split <;> exact ⟨rfl, rfl⟩

theorem getF_wPutIn_in {f : Fld} {lo hi v : Nat} (hlo : lo ≤ wGet f v) (hhi : wGet f v ≤ hi) (s : State) :
    getF f (wPutIn f lo hi v s) = wGet f v := by
  rw [wPutIn, if_pos ⟨hlo, hhi⟩, wPut, getF_setF_self, wGet, bitsOf, Nat.mod_mod]

/-- Settles O23: each register by its own rule, the accesses that no register takes, and register space over RDMA. -/
theorem registerAccess : Obligations.RegisterAccess := by
  refine ⟨?rdma, fun off v s => ⟨fun hhub hopen => ⟨exec_write_sysId hhub hopen, exec_write_ringSel hhub hopen,
      exec_write_ctxSel hhub hopen, fun hv => ?_, fun hv => ?_, ?gleaner⟩,
    exec_registerWrite_noRegister, fun hhub hf hal hb hr => exec_registerWrite_held hhub hf hal hb hr⟩⟩
  case rdma =>
    rintro q psn fr addr rkey len s n o rfl hlive hfr hopen hlen hr ho hk
    refine ⟨fun hp ha hb => (qpOp_open hlive hfr hopen).trans (congrArg _ ?_), fun hp data hn u hu => ?_⟩
    · rw [ho] at hb
      rw [hlen, ho]
      exact rdmaRead_register hk hr hp ha hb
    · subst hu
      refine ⟨(qpOp_open hlive hfr hopen).trans (congrArg _ ?_), ?_⟩
      · rw [hlen]; exact rdmaRead_otherPart hk hr hp
      · exact (qpOp_open hlive hfr hopen).trans (congrArg _ (rdmaWrite_otherPart hn hk hr hp))
  · rw [exec_write_fabClear hhub hopen, if_pos (by simp [Nat.testBit_zero, hv])]
  · rw [exec_write_fabClear hhub hopen, if_neg (by simp [Nat.testBit_zero, hv])]
  case gleaner =>
    rintro g rfl
    refine ⟨fun hlo hhi => ⟨_, exec_write_gleaner hhub hopen, getF_wPutIn_in hlo hhi _, ?_, ?_⟩, fun hout hz => ?_⟩
    · exact (wPutIn_hbm_tiles ..).1.trans (wPutIn_hbm_tiles ..).1
    · exact (wPutIn_hbm_tiles ..).2.trans (wPutIn_hbm_tiles ..).2
    · rw [exec_write_gleaner hhub hopen, wPutIn_out hout, wPutIn_out (.inl (by omega))]

end Sys2Proof.Machine
end

section
/-! PROOFS. Connections, acknowledgement, retry and notifications of the module (R242, R243, R257). -/

namespace Sys2Proof.Machine

section
variable {q psn : B24} {s : State}

theorem exec_rdmaAckReceived_ack (h : qpLive q.toNat s = true) :
    exec (.rdmaAckReceived q psn .ack) s = .next (ackBefore q.toNat ((psn.toNat + 1) % 2 ^ 24) s) := by
  unfold exec
  simp only [execRdmaAckReceived, h, Bool.not_true, Bool.false_eq_true, if_false]

section
variable (hhub : hubOn s = true) (hconn : (getQ q.toNat s).conn = true) (herr : (getQ q.toNat s).err = false)
  (hw : (getQ q.toNat s).unacked ≠ [])
include hhub hconn herr hw

theorem exec_qpRetransmitTimeout : exec (.qpRetransmitTimeout q) s = .next (
    if (getQ q.toNat s).retries < (getQ q.toNat s).retryMax then
      qpResend q.toNat (setQ q.toNat { getQ q.toNat s with retries := (getQ q.toNat s).retries + 1, rnrWait := false } s)
    else setQ q.toNat { getQ q.toNat s with err := true, unacked := [], rnrWait := false } s) := by
  have hsome : (getQ q.toNat s).unacked.isEmpty = false := by simpa using hw
  unfold exec
  simp only [execQpRetransmitTimeout, hhub, hconn, herr, qpRetry, hsome, Bool.not_false, Bool.and_self, Bool.false_eq_true,
    if_true, if_false]

end

theorem exec_notifyRnrRetry {w : Wqe} {l : List Wqe} (h : qpLive q.toNat s = true) (hr : (getQ q.toNat s).rnrWait = true)
    (hl : (getQ q.toNat s).unacked = w :: l) : exec (.notifyRnrRetry q) s = .next (
      if w.rnr < 7 then qpResend q.toNat (setQ q.toNat
        { getQ q.toNat s with unacked := { w with rnr := w.rnr + 1 } :: l, rnrWait := false } s)
      else qpResend q.toNat (bump (partF w.part Reg.PART_NOTIFY_DROPS) 1 (setQ q.toNat (qpDrop (getQ q.toNat s)) s))) := by
  unfold exec
  simp only [execNotifyRnrRetry, h, hr, hl, Bool.not_true, Bool.or_self, Bool.false_eq_true, if_false]

section
variable {p : PortId} {b : Bool} {pkey : B16} {retries : Fin 8} {mtu : Fin 3} (hhub : hubOn s = true)
  (hup : halfUp (2 * p.val + bit b) s = true) (hq : 2 ≤ q.toNat) (hfree : qpInUse (getQ q.toNat s) = false)
include hhub hup hq hfree

theorem exec_connectRequest_accept {part : Nat} (hk : partOfKey pkey.toNat s = some part)
    (hroom : (s.qps.filter fun e => qpInUse e.2).length < 65536) :
    exec (.connectRequest q p b pkey retries mtu) s = .next (emitQ q.toNat (.connAccept q.toNat) (tick1 (setQ q.toNat
      { conn := true, part := part, half := 2 * p.val + bit b, psn := freeNat s % 2 ^ 24, retryMax := retries.val,
        mtu := 1024 * 2 ^ mtu.val } s))) := by
  unfold exec
  simp only [execConnectRequest, hhub, hup, Nat.not_lt.mpr hq, hfree, hk, Nat.not_le.mpr hroom, Bool.not_true, decide_false,
    Bool.or_self, Bool.false_eq_true, if_false]

theorem exec_connectRequest_reject (hk : partOfKey pkey.toNat s = none) :
    exec (.connectRequest q p b pkey retries mtu) s = .next { s with sent := s.sent ++ [.connReject] } := by
  unfold exec
  simp only [execConnectRequest, hhub, hup, Nat.not_lt.mpr hq, hfree, hk, Bool.not_true, decide_false,
    Bool.or_self, Bool.false_eq_true, if_false, emit]

end
end

/-- Settles O24: each event of a queue pair by its counts, and a connection by its P_Key. -/
theorem queuePairs : Obligations.QueuePairs := by
  rintro q psn s n x rfl rfl
  refine ⟨?ack, fun hhub hconn herr hw => ⟨fun hr => ?_, fun hr => ?_⟩, fun w l h hr hl => ⟨fun hw => ?_, fun hw => ?_⟩, ?connect⟩
  case ack =>
    rintro l h rfl
    exact exec_rdmaAckReceived_ack h
  · rw [exec_qpRetransmitTimeout hhub hconn herr hw, if_pos hr]
  · rw [exec_qpRetransmitTimeout hhub hconn herr hw, if_neg (Nat.not_lt.mpr hr)]
  · rw [exec_notifyRnrRetry h hr hl, if_pos hw]
  · rw [exec_notifyRnrRetry h hr hl, if_neg (Nat.not_lt.mpr hw)]
  case connect =>
    rintro p b pkey retries mtu h rfl hhub hup hq hfree
    refine ⟨?_, exec_connectRequest_reject hhub hup hq hfree⟩
    rintro part hk hroom u rfl
    exact exec_connectRequest_accept hhub hup hq hfree hk hroom

end Sys2Proof.Machine
end

section
/-! PROOFS. Congestion control of a queue pair and the Ethernet ports' state (R240 to R242, R247). -/

namespace Sys2Proof.Machine

theorem getB_setB_ne (f g : Fld) (b : Bool) (s : State) (h : fldKey g ≠ fldKey f) : getB g (setB f b s) = getB g s := by
  rw [getB, getB, getF_setB_ne f g b s h]

/-! ### A port that goes down -/

theorem portDown_upF (p : Nat) (b : Bool) (s : State) : getB (upF p b) (portDown p s) = false := by
  have hne : fldKey (upF p true) ≠ fldKey (upF p false) := fldKey_fldAt_ne (by decide) _
  cases b
  · exact getB_setB_self Nat.one_pos ..
  · rw [portDown, getB_setB_ne _ _ _ _ hne]
    exact getB_setB_self Nat.one_pos ..

theorem portDown_split (p : Nat) (s : State) : getB (ethF p Reg.ETH_CFG_SPLIT) (portDown p s) = getB (ethF p Reg.ETH_CFG_SPLIT) s := by
  have ha : fldKey (ethF p Reg.ETH_CFG_SPLIT) ≠ fldKey (upF p false) := fldKey_fldAt_ne (by decide) _
  have hb : fldKey (ethF p Reg.ETH_CFG_SPLIT) ≠ fldKey (upF p true) := fldKey_fldAt_ne (by decide) _
  rw [portDown, getB_setB_ne _ _ _ _ ha, getB_setB_ne _ _ _ _ hb]

theorem portDown_ports (p : Nat) (s : State) : (portDown p s).ports = s.ports := rfl

/-- A write of a field takes the bits of the value at its place. -/
theorem getF_setF_split (p v : Nat) (s : State) :
    getB (ethF p Reg.ETH_CFG_SPLIT) (setF (ethF p Reg.ETH_CFG_SPLIT) (v / 2 ^ Reg.ETH_CFG_SPLIT.lo) s) = v.testBit 0 := by
  have hlo : v / 2 ^ Reg.ETH_CFG_SPLIT.lo % 2 ^ (ethF p Reg.ETH_CFG_SPLIT).w = v % 2 := by
    show v / 2 ^ 0 % 2 ^ 1 = v % 2
    rw [Nat.pow_zero, Nat.div_one, Nat.pow_one]
  rw [getB, getF_setF_self, hlo, Nat.testBit_zero]
  rfl

/-- R241: a write that changes SPLIT takes both halves down. -/
theorem ethCfg_splitChange (p v : Nat) (s : State) (h : v.testBit 0 ≠ getB (ethF p Reg.ETH_CFG_SPLIT) s) :
    ∃ t, ethCfg p v s = portDown p t ∧ getB (ethF p Reg.ETH_CFG_SPLIT) t = v.testBit 0 ∧ t.ports = s.ports := by
  unfold ethCfg
  extract_lets old put s1 m s2
  have hput : getB (ethF p Reg.ETH_CFG_SPLIT) s1 = v.testBit 0 := getF_setF_split p v _
  have hs2 : getB (ethF p Reg.ETH_CFG_SPLIT) s2 = v.testBit 0 ∧ s2.ports = s1.ports := by
    unfold s2
    split
    · exact ⟨(congrArg (· == 1) (getF_setF_ne _ _ _ _ (fldKey_fldAt_ne (by decide) _))).trans hput, rfl⟩
    · exact ⟨hput, rfl⟩
  exact ⟨s2, if_pos (by rw [hs2.1]; exact h), hs2.1, hs2.2⟩

/-! ### Ports -/

section
variable {p : PortId} {b : Bool} {s : State} (hmay : ethMay s = true) (hp : ethPresent p s = true)
  (hplug : (getEth p s).plugged = true)
include hmay hp hplug

theorem exec_ethLinkUp (hf : getB (ethF p Reg.ETH_STAT_CMIS_FAULT) s = false)
    (hs : b = true → getB (ethF p Reg.ETH_CFG_SPLIT) s = true) :
    exec (.ethLinkUp p b) s = .next (setB (upF p b) true (portLatch p s)) := by
  have hhalf : (!b || getB (ethF p Reg.ETH_CFG_SPLIT) s) = true := by cases b <;> simp_all
  unfold exec
  simp only [execEthLinkUp, hmay, hp, hplug, hf, hhalf, Bool.not_false, Bool.and_self, if_true]

theorem exec_cmisActivationTimeout (code : Byte) (hm : (getEth p s).managed = true) :
    exec (.cmisActivationTimeout p code) s = .next (logEv .ethCableFault none none p []
      (setF (ethF p Reg.ETH_STAT_CMIS_FAULT) 1 (portDown p (modEth p (fun x => { x with code := code.toNat }) s)))) := by
  unfold exec
  simp only [execCmisActivationTimeout, hmay, hp, hplug, hm, Bool.not_true, Bool.or_self, Bool.false_eq_true, if_false]

end

theorem exec_ethLinkUp_unsplit {p : PortId} {s : State} (h : getB (ethF p Reg.ETH_CFG_SPLIT) s = false) :
    exec (.ethLinkUp p true) s = .next s := by
  unfold exec
  simp only [execEthLinkUp, h, Bool.not_true, Bool.or_self, Bool.and_false, Bool.false_eq_true, if_false]

theorem exec_ethSplitWrite {p : PortId} {v : B64} {s : State} (hp : ethPresent p s = true) (hhub : hubOn s = true) :
    exec (.ethSplitWrite p v) s = .next (ethCfg p v.toNat s) := by
  unfold exec
  simp only [execEthSplitWrite, hp, hhub, Bool.and_self, if_true]

/-! ### Congestion control (R242) -/

theorem since50_early {t : Nat} {s : State} (h : s.tb < t + 50000) : since50 (some t) s = false := by
  simpa [since50] using h

section
variable {q : B24} {s : State} (hlive : qpLive q.toNat s = true) (hecn : ecnOn q.toNat s = true)
include hlive hecn

theorem exec_cnpReceived : exec (.cnpReceived q) s = .next (setQ q.toNat
    (if since50 (getQ q.toNat s).cnpRx s then
      { getQ q.toNat s with rate := (getQ q.toNat s).rate / 2, cnpRx := some s.tb, rateAt := s.tb }
    else { getQ q.toNat s with rateAt := s.tb }) (bump (ethF (qpPort q.toNat s) Reg.ETH_CNP_RX) 1 s)) := by
  unfold exec
  simp only [execCnpReceived, hlive, hecn, Bool.not_true, Bool.false_eq_true, if_false]
  rfl

theorem exec_ceMarkedPacket : exec (.ceMarkedPacket q) s = .next (if since50 (getQ q.toNat s).cnpTx s then
    bump (ethF (qpPort q.toNat s) Reg.ETH_CNP_TX) 1 (emitQ q.toNat (.cnp q.toNat)
      (setQ q.toNat { getQ q.toNat s with cnpTx := some s.tb } s)) else s) := by
  unfold exec
  simp only [execCeMarkedPacket, hlive, hecn, Bool.true_and, modQ]

theorem exec_rateIncreaseTimer : exec (.rateIncreaseTimer q) s = .next (if (getQ q.toNat s).rateAt + 55000 ≤ s.tb then
    setQ q.toNat { getQ q.toNat s with rate := min 1000000000 ((getQ q.toNat s).rate + 50000000), rateAt := s.tb } s else s) := by
  unfold exec
  simp only [execRateIncreaseTimer, hlive, hecn, Bool.true_and, modQ, decide_eq_true_eq]

end

/-- Settles O25: each event of a port by its flags, and each of a queue pair's rate by the time since the last one. -/
theorem congestionAndPorts : Obligations.CongestionAndPorts := by
  refine ⟨?ports, ?rate, fun p s => exec_ethLinkUp_unsplit⟩
  case ports =>
    rintro p b s x rfl
    refine ⟨rfl, fun _ _ => rfl, fun hmay hp hplug => ⟨exec_ethLinkUp hmay hp hplug, exec_cmisActivationTimeout hmay hp hplug⟩,
      fun v hp hhub hv => ?_⟩
    obtain ⟨t, hcfg, hsplit, hports⟩ := ethCfg_splitChange p v.toNat s hv
    refine ⟨_, exec_ethSplitWrite hp hhub, ?_⟩
    rw [hcfg]
    exact ⟨(portDown_split ..).trans hsplit, portDown_upF .., portDown_upF .., hports⟩
  case rate =>
    rintro q s n x rfl rfl hlive hecn
    refine ⟨fun h => ?_, fun h => ?_, fun h => ?_, fun t ht => ⟨fun h => ?_, fun h => ?_⟩, fun h => ?_⟩
    · rw [exec_cnpReceived hlive hecn, h, since50, if_pos rfl]
    · rw [exec_ceMarkedPacket hlive hecn, h, since50, if_pos rfl]
    · rw [exec_rateIncreaseTimer hlive hecn, if_pos h]
    · rw [exec_ceMarkedPacket hlive hecn, h, since50_early ht, if_neg Bool.false_ne_true]
    · have hearly : since50 (getQ q.toNat s).cnpRx s = false := by rw [h, since50_early ht]
      simp only [exec_cnpReceived hlive hecn, hearly, Bool.false_eq_true, if_false]
    · rw [exec_rateIncreaseTimer hlive hecn, if_neg (Nat.not_le.mpr h)]

end Sys2Proof.Machine
end

section
/-! PROOFS. PTP (R249, R250): Announce, Sync, Follow_Up, Delay_Resp and a silent master. -/

namespace Sys2Proof.Machine

/-! ### Registers that logging an event leaves alone (R481, R524) -/

/-- The fields that logging an event writes. -/
def logFields : List Fld := [Reg.LOG_HEAD, Reg.LOG_TAIL, Reg.MGT_SB_STAT_OUTBOX_PENDING, Reg.MGT_SB_SEQ_LAST_SENT]

/-- A field that logging an event does not write. -/
def OffLog (g : Fld) : Prop := ∀ f ∈ logFields, fldKey g ≠ fldKey f

section
variable {g : Fld} (h : OffLog g)
include h

theorem getF_setF_offLog {f : Fld} (hf : f ∈ logFields) (v : Nat) (s : State) : getF g (setF f v s) = getF g s :=
  getF_setF_ne f g v s (h f hf)

theorem getF_logAppend (r : LogRec) (s : State) : getF g (logAppend r s) = getF g s := by
  rw [logAppend, getF_setF_offLog h (by simp [logFields]), getF_setF_offLog h (by simp [logFields])]
  rfl

theorem getF_outboxPush (b : OutBody) (s : State) : getF g (outboxPush b s) = getF g s := by
  unfold outboxPush
  extract_lets m s1
  have h1 : getF g s1 = getF g s := getF_setF_offLog h (by simp [logFields]) _ _
  split
  · split
    · exact (getF_setF_offLog h (by simp [logFields]) _ _).trans h1
    · exact h1
  · rfl

theorem getF_logRaw (e : Ev) (p c : Option Nat) (l : Nat) (a : List Byte) (s : State) : getF g (logRaw e p c l a s) = getF g s := by
  rw [logRaw, getF_outboxPush h, getF_logAppend h]
  rfl

theorem getF_logEv (e : Ev) (p c : Option Nat) (l : Nat) (a : List Byte) (s : State) : getF g (logEv e p c l a s) = getF g s := by
  unfold logEv
  extract_lets full s1
  have h1 : getF g s1 = getF g s := getF_logRaw h ..
  split
  · exact (getF_logRaw h ..).trans h1
  · exact h1

end

/-! ### The lock's end and the messages -/

theorem exec_ptpLockLost {s : State} (hp : s.powered = true) (hs : ptpSilent s = true) : exec .ptpLockLost s = .next
    (setB Reg.SYS_TIME_STAT_LOCKED false (setB Reg.SYS_TIME_STAT_BACKWARD_SLEW false (modPtp (fun x => { x with
      slew := 0, annAt := none, t1 := none, t2 := none, wantFollow := false, t3 := none }) s))) := by
  unfold exec
  simp only [execPtpLockLost, hp, hs, Bool.and_self, if_true]

theorem ptpSilent_iff {s : State} {t : Nat} (h : s.ptp.annAt = some t) : ptpSilent s = decide (t + 3 * s.ptp.annIv ≤ s.tb) := by
  simp only [ptpSilent, h]

theorem exec_ptpLockLost_heard {s : State} (hs : ptpSilent s = false) : exec .ptpLockLost s = .next s := by
  unfold exec
  simp only [execPtpLockLost, hs, Bool.and_false, Bool.false_eq_true, if_false]

section
variable {tr : Fin 3} {dom : Byte} {s : State}

section
variable (h : ptpTaken tr dom s = true)
include h

theorem exec_ptpAnnounceReceived (iv : Nat) : exec (.ptpAnnounceReceived tr dom iv) s =
    .next { s with ptp := { s.ptp with annAt := some s.tb, annIv := iv } } := by
  unfold exec
  simp only [execPtpAnnounceReceived, h, if_true, modPtp]

theorem exec_ptpSyncReceived_oneStep (o : Nat) : exec (.ptpSyncReceived tr dom (some o)) s =
    .next (ptpAsk (tick1 (modPtp (fun x => { x with t1 := some o, t2 := some (ptpStamp s), wantFollow := false, t3 := none }) s))) := by
  unfold exec
  simp only [execPtpSyncReceived, h, if_true, Option.isSome_some, Option.isNone_some]

theorem exec_ptpSyncReceived_twoStep : exec (.ptpSyncReceived tr dom none) s =
    .next (tick1 { s with ptp := { s.ptp with t1 := none, t2 := some (ptpStamp s), wantFollow := true, t3 := none } }) := by
  unfold exec
  simp only [execPtpSyncReceived, h, if_true, Option.isSome_none, Option.isNone_none, Bool.false_eq_true, if_false, modPtp]

theorem exec_ptpFollowUpReceived (hw : s.ptp.wantFollow = true) (o : Nat) : exec (.ptpFollowUpReceived tr dom o) s =
    .next (ptpAsk (modPtp (fun x => { x with t1 := some o, wantFollow := false }) s)) := by
  unfold exec
  simp only [execPtpFollowUpReceived, h, hw, Bool.and_self, if_true]

/-- R250: with both ends' times and a master heard, the offset corrects the time base. -/
theorem exec_ptpDelayRespReceived {t1 t2 t3 : Nat} (h1 : s.ptp.t1 = some t1) (h2 : s.ptp.t2 = some t2) (h3 : s.ptp.t3 = some t3)
    (ha : s.ptp.annAt.isSome = true) (t4 : Nat) : exec (.ptpDelayRespReceived tr dom t4) s =
      .next (ptpCorrect (((t1 : Int) - t2 + (t4 - t3)) / 2)
        (setF (ethF 0 Reg.ETH_PTP_OFFSET) ((((t1 : Int) - t2 + (t4 - t3)) / 2) % 2 ^ 64).toNat
          (modPtp (fun x => { x with t1 := none, t2 := none, t3 := none }) s))) := by
  have hann : ∀ v, (setF (ethF 0 Reg.ETH_PTP_OFFSET) v (modPtp (fun x => { x with t1 := none, t2 := none, t3 := none }) s)).ptp.annAt.isSome
      = true := fun _ => ha
  unfold exec
  simp only [execPtpDelayRespReceived, h, h1, h2, h3, if_true, hann]

end

/-- A message that is not taken changes nothing. -/
theorem exec_ptp_notTaken (h : ptpTaken tr dom s = false) (iv : Nat) (o : Option Nat) (t : Nat) :
    exec (.ptpAnnounceReceived tr dom iv) s = .next s ∧ exec (.ptpSyncReceived tr dom o) s = .next s ∧
      exec (.ptpFollowUpReceived tr dom t) s = .next s ∧ exec (.ptpDelayRespReceived tr dom t) s = .next s := by
  unfold exec
  simp only [execPtpAnnounceReceived, execPtpSyncReceived, execPtpFollowUpReceived, execPtpDelayRespReceived, h,
    Bool.false_and, Bool.false_eq_true, if_false, and_self]

end

/-! ### The correction (R250) -/

/-- The time base locked, its rate corrected and its slew ended. -/
def ptpLocked (s : State) : State :=
  let s := setB Reg.SYS_TIME_STAT_LOCKED true (setB Reg.SYS_TIME_STAT_EVER_LOCKED true s)
  tick1 (modPtp (fun x => { x with rate := (freeNat s % 200001 : Nat) - 100000, slew := 0 }) s)

theorem modPtp_regs (f : Ptp → Ptp) (s : State) : (modPtp f s).regs = s.regs := rfl

/-- What a corrected time base shows, whichever way the offset is taken out. -/
structure PtpShown (u : State) : Prop where
  locked : getF Reg.SYS_TIME_STAT_LOCKED u = 1
  ever : getF Reg.SYS_TIME_STAT_EVER_LOCKED u = 1

theorem ptpShown_locked (s : State) : PtpShown (ptpLocked s) where
  locked := getF_setB_self (f := Reg.SYS_TIME_STAT_LOCKED) (by decide) true _
  ever := (getF_setB_ne Reg.SYS_TIME_STAT_LOCKED _ true _ (by decide)).trans
    (getF_setB_self (f := Reg.SYS_TIME_STAT_EVER_LOCKED) (by decide) true s)

theorem ptpShown_setBack {t : State} (ht : PtpShown t) (b : Bool) : PtpShown (setB Reg.SYS_TIME_STAT_BACKWARD_SLEW b t) :=
  ⟨(getF_setB_ne _ _ _ _ (by decide)).trans ht.locked, (getF_setB_ne _ _ _ _ (by decide)).trans ht.ever⟩

theorem ptpShown_logEv {t : State} (ht : PtpShown t) (e : Ev) (p c : Option Nat) (l : Nat) (a : List Byte) :
    PtpShown (logEv e p c l a t) :=
  ⟨(getF_logEv (by unfold OffLog; decide) ..).trans ht.locked, (getF_logEv (by unfold OffLog; decide) ..).trans ht.ever⟩

section
variable {o : Int} {s : State}

theorem ptpCorrect_back (h : o < 0) : ptpCorrect o s =
    setB Reg.SYS_TIME_STAT_BACKWARD_SLEW true (modPtp (fun x => { x with slew := o * 100000000 }) (ptpLocked s)) := if_pos h

/-- The state in which an offset forward is taken out. -/
def ptpForward (s : State) : State := setB Reg.SYS_TIME_STAT_BACKWARD_SLEW false (ptpLocked s)

theorem ptpShown_forward (s : State) : PtpShown (ptpForward s) := ptpShown_setBack (ptpShown_locked s) false

theorem ptpCorrect_first (h : 0 ≤ o) (he : getF Reg.SYS_TIME_STAT_EVER_LOCKED s ≠ 1) :
    ptpCorrect o s = { ptpForward s with tb := (ptpForward s).tb + o.toNat } := by
  have hb : getB Reg.SYS_TIME_STAT_EVER_LOCKED s = false := beq_eq_false_iff_ne.mpr he
  rw [ptpCorrect, if_neg (Int.not_lt.mpr h), hb]
  rfl

variable (h : 0 ≤ o) (he : getF Reg.SYS_TIME_STAT_EVER_LOCKED s = 1)
include h he

theorem ptpCorrect_again : ptpCorrect o s = if 1000000 < o then
    logEv .timeStep none none 0 [] { ptpForward s with tb := (ptpForward s).tb + o.toNat }
    else modPtp (fun x => { x with slew := o * 100000000 }) (ptpForward s) := by
  have hb : getB Reg.SYS_TIME_STAT_EVER_LOCKED s = true := beq_iff_eq.mpr he
  rw [ptpCorrect, if_neg (Int.not_lt.mpr h), hb]
  rfl

theorem ptpCorrect_step (hbig : 1000000 < o) : ptpCorrect o s =
    logEv .timeStep none none 0 [] { ptpForward s with tb := (ptpForward s).tb + o.toNat } := by
  rw [ptpCorrect_again h he, if_pos hbig]

theorem ptpCorrect_slew (hsmall : o ≤ 1000000) : ptpCorrect o s =
    modPtp (fun x => { x with slew := o * 100000000 }) (ptpForward s) := by
  rw [ptpCorrect_again h he, if_neg (Int.not_lt.mpr hsmall)]

end

theorem modPtp_tb (f : Ptp → Ptp) (s : State) : (modPtp f s).tb = s.tb := rfl

theorem ptpLocked_tb (s : State) : (ptpLocked s).tb = s.tb := rfl

theorem ptpForward_tb (s : State) : (ptpForward s).tb = s.tb := ptpLocked_tb s

theorem ptpShown_of_regs {t u : State} (h : t.regs = u.regs) (hu : PtpShown u) : PtpShown t :=
  ⟨(getF_congr h _).trans hu.locked, (getF_congr h _).trans hu.ever⟩

theorem ptpShown_atTime {t : State} (h : PtpShown t) (n : Nat) : PtpShown { t with tb := n } := ptpShown_of_regs (u := t) rfl h

/-- R250: a correction locks the time base and never takes it back. -/
theorem ptpCorrect_shown (o : Int) (s : State) : PtpShown (ptpCorrect o s) ∧ s.tb ≤ (ptpCorrect o s).tb := by
  by_cases h : o < 0
  · rw [ptpCorrect_back h]
    exact ⟨ptpShown_setBack (ptpShown_of_regs (modPtp_regs ..) (ptpShown_locked s)) true, Nat.le_of_eq (ptpLocked_tb s).symm⟩
  · have h0 := Int.not_lt.mp h
    by_cases he : getF Reg.SYS_TIME_STAT_EVER_LOCKED s = 1
    · by_cases hbig : 1000000 < o
      · rw [ptpCorrect_step h0 he hbig, logEv_tb, ptpForward_tb]
        exact ⟨ptpShown_logEv (ptpShown_atTime (ptpShown_forward s) _) .., Nat.le_add_right s.tb _⟩
      · rw [ptpCorrect_slew h0 he (Int.not_lt.mp hbig)]
        exact ⟨ptpShown_of_regs (modPtp_regs ..) (ptpShown_forward s), Nat.le_of_eq (ptpForward_tb s).symm⟩
    · rw [ptpCorrect_first h0 he]
      exact ⟨ptpShown_atTime (ptpShown_forward s) _, Nat.le_add_right s.tb _⟩

theorem getF_offset_everLocked (v : Nat) (s : State) :
    getF Reg.SYS_TIME_STAT_EVER_LOCKED (setF (ethF 0 Reg.ETH_PTP_OFFSET) v s) = getF Reg.SYS_TIME_STAT_EVER_LOCKED s :=
  getF_setF_ne _ _ _ _ (by decide)

/-- R250: what a Delay_Resp that completes a measurement of offset `o` leaves, `u` being the state it is taken in. -/
theorem ptpCorrected {s : State} (o : Int) (v : Nat) {u : State} (hr : u.regs = s.regs) (ht : u.tb = s.tb) :
    ∀ t, t = ptpCorrect o (setF (ethF 0 Reg.ETH_PTP_OFFSET) v u) →
      getF Reg.SYS_TIME_STAT_LOCKED t = 1 ∧ getF Reg.SYS_TIME_STAT_EVER_LOCKED t = 1 ∧ s.tb ≤ t.tb ∧
      (o < 0 → t.tb = s.tb ∧ t.ptp.slew = o * 100000000 ∧ getF Reg.SYS_TIME_STAT_BACKWARD_SLEW t = 1) ∧
      (0 ≤ o → getF Reg.SYS_TIME_STAT_EVER_LOCKED s = 1 → o ≤ 1000000 → t.tb = s.tb ∧ t.ptp.slew = o * 100000000) ∧
      (0 ≤ o → getF Reg.SYS_TIME_STAT_EVER_LOCKED s = 1 → 1000000 < o → t.tb = s.tb + o.toNat) ∧
      (0 ≤ o → getF Reg.SYS_TIME_STAT_EVER_LOCKED s ≠ 1 → t.tb = s.tb + o.toNat) := by
  rintro t rfl
  have hever : getF Reg.SYS_TIME_STAT_EVER_LOCKED (setF (ethF 0 Reg.ETH_PTP_OFFSET) v u) = getF Reg.SYS_TIME_STAT_EVER_LOCKED s :=
    (getF_offset_everLocked v u).trans (getF_congr hr _)
  have htb : (setF (ethF 0 Reg.ETH_PTP_OFFSET) v u).tb = s.tb := ht
  generalize setF (ethF 0 Reg.ETH_PTP_OFFSET) v u = w at hever htb
  rw [← hever, ← htb]
  obtain ⟨⟨hlocked, hever⟩, hle⟩ := ptpCorrect_shown o w
  refine ⟨hlocked, hever, hle, fun hneg => ?_, fun hpos he hsmall => ?_, fun hpos he hbig => ?_, fun hpos he => ?_⟩
  · rw [ptpCorrect_back hneg]
    exact ⟨ptpLocked_tb w, rfl, getF_setB_self (f := Reg.SYS_TIME_STAT_BACKWARD_SLEW) (by decide) true _⟩
  · rw [ptpCorrect_slew hpos he hsmall]
    exact ⟨ptpForward_tb w, rfl⟩
  · rw [ptpCorrect_step hpos he hbig, logEv_tb, ptpForward_tb]
  · rw [ptpCorrect_first hpos he, ptpForward_tb]

/-- Settles O26: each message by what it leaves, and a correction by the offset's sign, its size and the first lock. -/
theorem ptpMessages : Obligations.PtpMessages := by
  intro tr dom s
  refine ⟨fun t hp ha ht => ?lost, fun h => ⟨exec_ptpAnnounceReceived h, fun o => ?sync, fun o hw => ?follow, ?resp,
    exec_ptpSyncReceived_twoStep h⟩, fun t ha ht => ?heard, exec_ptp_notTaken⟩
  case lost =>
    refine ⟨_, exec_ptpLockLost hp ((ptpSilent_iff ha).trans (decide_eq_true ht)), ?_, rfl, rfl, rfl⟩
    exact getF_setB_self (f := Reg.SYS_TIME_STAT_LOCKED) (by decide) false _
  case sync => exact ⟨_, exec_ptpSyncReceived_oneStep h o, rfl, rfl, rfl, rfl, rfl, rfl⟩
  case follow => exact ⟨_, exec_ptpFollowUpReceived h hw o, rfl, rfl, rfl, rfl, rfl⟩
  case resp =>
    intro t1 t2 t3 t4 o h1 h2 h3 ha ho
    rw [ho]
    refine ⟨_, exec_ptpDelayRespReceived h h1 h2 h3 ha t4, ?_⟩
    exact ptpCorrected _ _ (modPtp_regs _ s) (modPtp_tb _ s) _ rfl
  case heard => exact exec_ptpLockLost_heard ((ptpSilent_iff ha).trans (decide_eq_false (Nat.not_le.mpr ht)))

end Sys2Proof.Machine
end

section
/-! PROOFS. Enabling and disabling partitions and contexts (R254 to R256, R283, R356). -/

namespace Sys2Proof.Machine

/-! ### Partitions -/

section
variable {p pkey rkey : Nat} {s : State}

theorem partEnable_admin (h : p = 0) : partEnable p pkey rkey s = adminKeys pkey rkey s := if_pos h

theorem partDisable_admin (h : p = 0) : partDisable p pkey rkey s = adminKeys pkey rkey s := if_pos h

variable (hp : p ≠ 0)
include hp

theorem partEnable_on (hon : partOn p s = true) : partEnable p pkey rkey s = s := by rw [partEnable, if_neg hp, if_pos hon]

theorem partDisable_on (hon : partOn p s = true) : partDisable p pkey rkey s =
    realloc (rrcPartOff p (setB (partF p Reg.PART_CFG_ENABLE) false s)) := by rw [partDisable, if_neg hp, if_pos hon]

theorem partDisable_off (hoff : partOn p s = false) : partDisable p pkey rkey s = setKeys p pkey rkey s := by
  rw [partDisable, if_neg hp, hoff, if_neg Bool.false_ne_true]

/-- R254: no other enabled partition holds a tile of the partition or its P_Key. -/
theorem partEnable_free (hoff : partOn p s = false) (ht : tilesClash p (setKeys p pkey rkey s) = false)
    (hk : pkeyClash p pkey (setKeys p pkey rkey s) = false) : partEnable p pkey rkey s =
      realloc (setB (partF p Reg.PART_CFG_ENABLE) true (rrcPartOff p (setKeys p pkey rkey s))) := by
  simp only [partEnable, hp, hoff, ht, hk, Bool.or_self, Bool.false_eq_true, if_false]

theorem partEnable_clash (hoff : partOn p s = false)
    (h : tilesClash p (setKeys p pkey rkey s) = true ∨ pkeyClash p pkey (setKeys p pkey rkey s) = true) :
    partEnable p pkey rkey s = bump Reg.CMD_CFG_REJECTS 1 (setKeys p pkey rkey s) := by
  have hclash := Bool.or_eq_true_iff.mpr h
  simp only [partEnable, hp, hoff, hclash, Bool.false_eq_true, if_false, if_true, cfgReject]

end

/-! ### Contexts -/

section
variable {c part : Nat} {s : State}

theorem ctxEnable_free (h : (getC c s).st = .free) : ctxEnable c part s =
    setC c { getC c s with part := part, st := .active, faultStatus := 0 } s := if_pos h

theorem ctxEnable_used (h : (getC c s).st ≠ .free) : ctxEnable c part s = s := if_neg h

theorem ctxDisable_free (h : (getC c s).st = .free) : ctxDisable c part s = setC c { getC c s with part := part } s := if_pos h

theorem ctxDisable_used (h : (getC c s).st ≠ .free) : ctxDisable c part s = if (ctxRings c s).isEmpty then
    setC c { getC c s with st := .free, faultStatus := 0, resetProd := [] } s else s := if_neg h

end

section
variable {s : State} (hopen : s.frozen = false)
include hopen

theorem exec_partEnable (p : PartId) (pkey : B16) (rkey : B32) :
    exec (.partEnable p pkey rkey) s = .next (partEnable p pkey.toNat rkey.toNat s) := congrArg _ (heldOr_open hopen _ _)

theorem exec_partDisable (p : PartId) (pkey : B16) (rkey : B32) :
    exec (.partDisable p pkey rkey) s = .next (partDisable p pkey.toNat rkey.toNat s) := congrArg _ (heldOr_open hopen _ _)

theorem exec_ctxEnable (c : CtxId) (p : PartId) : exec (.ctxEnable c p) s = .next (ctxEnable c p.val s) :=
  congrArg _ (heldOr_open hopen _ _)

theorem exec_ctxDisable (c : CtxId) (p : PartId) : exec (.ctxDisable c p) s = .next (ctxDisable c p.val s) :=
  congrArg _ (heldOr_open hopen _ _)

end

/-- Settles O27: each write by the partition's or the context's state, and what a freeze holds. -/
theorem partitionsAndContexts : Obligations.PartitionsAndContexts := by
  rintro p c pkey rkey s x rfl
  refine ⟨fun hopen hf => ⟨(exec_ctxEnable hopen c p).trans (congrArg _ (ctxEnable_free hf)),
      (exec_ctxDisable hopen c p).trans (congrArg _ (ctxDisable_free hf))⟩,
    ?off, fun hopen hp hon => ⟨(exec_partEnable hopen p pkey rkey).trans (congrArg _ (partEnable_on hp hon)),
      (exec_partDisable hopen p pkey rkey).trans (congrArg _ (partDisable_on hp hon))⟩,
    fun hopen hp => ⟨?_, (exec_partEnable hopen p pkey rkey).trans (congrArg _ (partEnable_admin hp))⟩,
    fun hopen hu => ⟨(exec_ctxEnable hopen c p).trans (congrArg _ (ctxEnable_used hu)), fun hr => ?_, fun hr => ?_⟩,
    fun hf => ⟨congrArg _ (heldOr_frozen hf _ _), congrArg _ (heldOr_frozen hf _ _)⟩⟩
  case off =>
    rintro hopen hp hoff u rfl
    exact ⟨(exec_partDisable hopen p pkey rkey).trans (congrArg _ (partDisable_off hp hoff)),
      fun ht hk => (exec_partEnable hopen p pkey rkey).trans (congrArg _ (partEnable_free hp hoff ht hk)),
      fun h => (exec_partEnable hopen p pkey rkey).trans (congrArg _ (partEnable_clash hp hoff h))⟩
  · rw [exec_partEnable hopen, exec_partDisable hopen, partEnable_admin hp, partDisable_admin hp]
  · rw [exec_ctxDisable hopen, ctxDisable_used hu, hr]; rfl
  · rw [exec_ctxDisable hopen, ctxDisable_used hu, if_neg (by simpa using hr)]

end Sys2Proof.Machine
end

section
/-! PROOFS. The remote-read caches and the Gleaner's visits (R157, R218 to R222, R355 to R357, R366, R381). -/

namespace Sys2Proof.Machine

/-! ### A die's cache and its fills -/

section
variable (d : Nat) (s : State)

theorem rrcOf_bump (f : Fld) (n : Nat) : rrcOf d (bump f n s) = rrcOf d s := rfl

theorem rrcOf_setRrc (l : List RrcEntry) : rrcOf d (setRrc d l s) = l := by unfold rrcOf setRrc; split <;> rfl

theorem rrcOf_setFills (e : Nat) (l : List RrcFill) : rrcOf d (setFills e l s) = rrcOf d s := by
  unfold rrcOf setFills; split <;> split <;> rfl

theorem fillsOf_setRrc (e : Nat) (l : List RrcEntry) : fillsOf d (setRrc e l s) = fillsOf d s := by
  unfold fillsOf setRrc; split <;> split <;> rfl

theorem fillsOf_bump (f : Fld) (n : Nat) : fillsOf d (bump f n s) = fillsOf d s := rfl

/-- R157, R355: an acquire of scope 0 discards every entry of its die and keeps the fills in flight from being installed. -/
theorem acquire_all : acquire d 0 0 0 0 s = setFills d ((fillsOf d s).map fun f => { f with installable := false })
    (setRrc d [] (bump (rrcF d Reg.MEM_RRC_INVALIDATED) (rrcOf d s).length s)) := by
  have hall : (rrcOf d s).filter (fun _ => true) = rrcOf d s := List.filter_eq_self.mpr fun _ _ => rfl
  have hnone : (rrcOf d s).filter (fun _ => false) = [] := List.filter_eq_nil_iff.mpr fun _ _ => Bool.false_ne_true
  simp only [acquire, rrcDrop, acqCovers, hall, Bool.not_true, rrcOf_bump, hnone, if_true, fillsOf_setRrc, fillsOf_bump]

theorem rrcOf_acquire_all : rrcOf d (acquire d 0 0 0 0 s) = [] := by rw [acquire_all, rrcOf_setFills, rrcOf_setRrc]

end

theorem rrcOf_setRrc_other (d : DieId) (l : List RrcEntry) (s : State) : rrcOf (1 - d) (setRrc d l s) = rrcOf (1 - d) s := by
  match d with
  | 0 => rfl
  | 1 => rfl

theorem rrcOf_acquire_other (d : DieId) (s : State) : rrcOf (1 - d) (acquire d 0 0 0 0 s) = rrcOf (1 - d) s := by
  rw [acquire_all, rrcOf_setFills, rrcOf_setRrc_other, rrcOf_bump]

/-- R356, R357: a fill without waiting reads returns. -/
theorem exec_rrcFillReturn {d : DieId} {id : Nat} {f : RrcFill} {r : Req} {st : RStatus} {data : List Byte} {s u : State}
    (hf : (fillsOf d s).find? (·.id = id) = some f) (hr : lookO s.reqs id = some r) (hd : r.stage = .done st data)
    (hw : f.waiters = []) (hu : u = delReq id (setFills d ((fillsOf d s).filter fun x => x.id ≠ id) s)) :
    exec (.rrcFillReturn d id) s = if f.installable && st = .ok then .next (rrcInstall d ⟨f.block, f.part, data, []⟩ u)
      else .next (bump (rrcF d Reg.MEM_RRC_FILLS_DROPPED) 1 u) := by
  unfold exec
  simp only [execRrcFillReturn, hf, hr, hd, hw, List.foldl_nil, ← hu]

/-! ### The Gleaner -/

section
variable {k o : Nat} {s : State}

theorem gleanBlock_unwritten (h : granuleWritten o s = false) : gleanBlock k o s = s := by simp [gleanBlock, h]

theorem gleanBlock_clean (h : smLook 0 s.blkErr (o / 512) = 0) : gleanBlock k o s = s := by simp [gleanBlock, h]

theorem gleanBlock_correctable {n : Nat} (hw : granuleWritten o s = true) (hn : smLook 0 s.blkErr (o / 512) = n) (h0 : 0 < n)
    (hc : n ≤ codeT o s) : gleanBlock k o s = gleanCorrect k o n s := by
  simp [gleanBlock, hw, hn, Nat.pos_iff_ne_zero.mp h0, hc]

theorem upset_soft (sym : Nat) : upset o sym 0 s = blockDecay o sym s := rfl

theorem blockDecay_written (sym : Nat) : granuleWritten o (blockDecay o sym s) = granuleWritten o s := by
  unfold blockDecay; split <;> rfl

theorem blockDecay_glnPos (sym : Nat) : (blockDecay o sym s).glnPos = s.glnPos := by
  unfold blockDecay; split <;> rfl

end

/-- What the Gleaner's visit makes of the state before its position goes on. -/
def gleanAt (k i sym : Nat) (s : State) : State :=
  match gleanOffset k i s with
  | some o => gleanBlock k o (if granuleWritten o s then upset o sym 0 s else s)
  | none => s

section
variable {k i sym o : Nat} {s : State}

theorem gleanAt_none (h : gleanOffset k i s = none) : gleanAt k i sym s = s := by rw [gleanAt, h]

theorem gleanAt_unwritten (h : gleanOffset k i s = some o) (hw : granuleWritten o s = false) : gleanAt k i sym s = s := by
  simp only [gleanAt, h, hw, Bool.false_eq_true, if_false, gleanBlock_unwritten hw]

theorem gleanAt_written (h : gleanOffset k i s = some o) (hw : granuleWritten o s = true) :
    gleanAt k i sym s = gleanBlock k o (blockDecay o sym s) := by
  simp only [gleanAt, h, hw, if_true, upset_soft]

end

section
variable {k : StackId} {sym i : Nat} {s : State} (hi : i = smLook 0 s.glnPos k)
include hi

theorem exec_gleanerBlockVisit (hp : (stacksPresent s).testBit k = true) (hmore : i + 1 < gleanPlaces) :
    exec (.gleanerBlockVisit k sym 0) s = .next { gleanAt k i sym s with glnPos := smPut 0 (gleanAt k i sym s).glnPos k (i + 1) } := by
  subst hi
  unfold exec
  simp only [execGleanerBlockVisit, hp, Nat.not_le.mpr hmore, Bool.not_true, Bool.false_eq_true, if_false]
  rfl

/-- R218: after the last place a stack's position starts again and a pass is counted. -/
theorem exec_gleanerBlockVisit_last (hp : (stacksPresent s).testBit k = true) (hlast : gleanPlaces ≤ i + 1)
    (ho : gleanOffset k i s = none) : exec (.gleanerBlockVisit k sym 0) s = .next { s with
      glnPos := smPut 0 s.glnPos k 0
      glnPasses := smPut 0 s.glnPasses k (min (smLook 0 s.glnPasses k + 1) (2 ^ 32 - 1)) } := by
  subst hi
  unfold exec
  simp only [execGleanerBlockVisit, hp, hlast, ho, Bool.not_true, Bool.false_eq_true, if_false, if_true, smMod]

omit hi in
theorem exec_gleanerBlockVisit_absent (hp : (stacksPresent s).testBit k = false) : exec (.gleanerBlockVisit k sym 0) s = .next s := by
  unfold exec
  simp only [execGleanerBlockVisit, hp, Bool.not_false, if_true]

end

/-- Settles O29: the caches by what an acquire leaves and a fill finds, and a visit by what stands at its place. -/
theorem cachesAndGleaner : Obligations.CachesAndGleaner := by
  refine ⟨fun d s => ⟨⟨rfl, rfl, rrcOf_acquire_all d s, rrcOf_acquire_other d s, acquire_all d s⟩, ?fill⟩,
    fun k sym i s hi => ⟨fun hp hmore => ⟨?block, ?empty⟩, exec_gleanerBlockVisit_last hi, exec_gleanerBlockVisit_absent⟩⟩
  case fill =>
    intro id f r st data u hf hr hd hw hu
    refine ⟨fun hi hok => (exec_rrcFillReturn hf hr hd hw hu).trans (if_pos (by simp [hi, hok])),
      fun hno => (exec_rrcFillReturn hf hr hd hw hu).trans (if_neg ?_)⟩
    rcases hno with hno | hno <;> simp [hno]
  case block =>
    rintro o u n ho hw rfl rfl
    refine ⟨fun h0 hc v hv => ?_, fun h0 => ?_⟩
    · rw [exec_gleanerBlockVisit hi hp hmore, gleanAt_written ho hw,
        gleanBlock_correctable ((blockDecay_written sym).trans hw) rfl h0 hc, hv]
    · rw [exec_gleanerBlockVisit hi hp hmore, gleanAt_written ho hw, gleanBlock_clean h0, blockDecay_glnPos]
  case empty =>
    rintro (ho | ⟨o, ho, hw⟩)
    · rw [exec_gleanerBlockVisit hi hp hmore, gleanAt_none ho]
    · rw [exec_gleanerBlockVisit hi hp hmore, gleanAt_unwritten ho hw]

end Sys2Proof.Machine
end

section
/-! PROOFS. The start of a link's training (R305, R307, R310, R311, R317). -/

namespace Sys2Proof.Machine

/-! ### Events of a link -/

section
variable {i : Instr} {l : LinkId} {st : LSt} {f : State → State} {s : State}

/-- An event of a link in its state, outside a freeze. -/
theorem inLSt_in (h : LinkIn l st s) : inLSt i l st f s = .next (f s) := by
  simp only [inLSt, lnkEv, h.present, h.inSt, heldOr_open h.open_, if_true]

theorem inLSt_other {st' : LSt} (h : LinkIn l st s) (hne : st ≠ st') : inLSt i l st' f s = .next s := by
  simp only [inLSt, lnkEv, h.present, h.inSt, heldOr_open h.open_, if_true, hne, if_false]

theorem lnkEv_present (hp : linkPresent l s = true) (hopen : s.frozen = false) : lnkEv i l f s = .next (f s) := by
  simp only [lnkEv, hp, heldOr_open hopen, if_true]

end

/-! ### What a change of a link's state leaves -/

theorem logMask_ite {p : Prop} [Decidable p] {s x y : State} (hx : logMask x = logMask s) (hy : logMask y = logMask s) :
    logMask (if p then x else y) = logMask s := by split <;> assumption

theorem logMask_sensorNote (id a b : Nat) (s : State) : logMask (sensorNote id a b s) = logMask s := by
  unfold sensorNote
  refine logMask_ite rfl (logMask_ite ?_ (logMask_outboxPush ..))
  exact logMask_logRaw .sidebandOutboxFull none none 0 [] s

/-- A link's record as a change of its state leaves it. -/
def withLSt (st : LSt) (tb : Nat) (x : Link) : Link := { x with st := st, downAt := if x.st = .active then tb else x.downAt }

section
variable {α : Type} (g : State → α) (hg : ∀ u, g (logMask u) = g u) (hm : ∀ m u, g { u with mgmt := m } = g u)
  (hr : ∀ f v u, g (setF f v u) = g u) (ht : ∀ t n u, g (timerSet t n u) = g u)
include hg hm hr ht

/-- A field that no event of a link's state uses is left as the change of the link's record leaves it. -/
theorem setLSt_keeps (l : Nat) (st : LSt) (s : State) : g (setLSt l st s) = g (modL l (withLSt st s.tb) s) := by
  unfold setLSt
  extract_lets old s1 m s2
  have h1 : g s1 = g (modL l (withLSt st s.tb) s) :=
    (logMask_eq g hg (logMask_sensorNote ..)).trans ((ht _ _ _).trans (ht _ _ _))
  have h2 : g s2 = g s1 := by
    unfold s2
    split
    · exact hm _ _
    · rfl
  split
  · exact (logMask_eq g hg (logMask_logEv ..)).trans ((hr _ _ _).trans ((hr _ _ _).trans (h2.trans h1)))
  · split
    · exact (logMask_eq g hg (logMask_logEv ..)).trans (h2.trans h1)
    · exact h2.trans h1

end

theorem setLSt_links (l : Nat) (st : LSt) (s : State) : (setLSt l st s).links = (modL l (withLSt st s.tb) s).links :=
  setLSt_keeps State.links (fun _ => rfl) (fun _ _ => rfl) (fun _ _ _ => rfl) (fun _ _ _ => rfl) l st s

@[simp] theorem setLSt_hbm (l : Nat) (st : LSt) (s : State) : (setLSt l st s).hbm = s.hbm :=
  setLSt_keeps State.hbm (fun _ => rfl) (fun _ _ => rfl) (fun _ _ _ => rfl) (fun _ _ _ => rfl) l st s

theorem getL_setLSt (l m : Nat) (st : LSt) (s : State) :
    getL m (setLSt l st s) = if m = l then withLSt st s.tb (getL l s) else getL m s := by
  rw [getL, setLSt_links, ← getL, modL_eq, getL_setL]

/-! ### The stages -/

section
variable {l : LinkId} {s : State}

theorem exec_linkEnable (hp : linkPresent l s = true) (hopen : s.frozen = false) (he : getLF l Reg.LNK_CFG_ENABLE s ≠ 1) :
    exec (.linkEnable l) s = .next (startTraining l false (setLF l Reg.LNK_CFG_ENABLE 1 s)) :=
  (lnkEv_present hp hopen).trans (congrArg _ (if_neg he))

section
variable (h : LinkIn l .clockDetect s)
include h

theorem exec_partnerClockDetected {lanes : Fin 4} (hl : lanes.val ≠ 0) : exec (.partnerClockDetected l lanes) s = .next
    (setLF l Reg.LNK_STATE_CLOCK_LANES lanes (setLF l Reg.LNK_STATE_NO_PARTNER 0
      (setLSt l (if (getL l s).fast then .restore else .eqCoarse) s))) :=
  (inLSt_in h).trans (congrArg _ (if_neg hl))

theorem exec_partnerRateAlternate_auto (hw : (getL l s).want = 0) (ht : timerDue .linkRate l 100000000 s = true) :
    exec (.partnerRateAlternate l) s = .next (modL l (fun x => { x with lx7Rate := !x.lx7Rate }) (timerSet .linkRate l s)) :=
  (inLSt_in h).trans (congrArg _ ((if_pos hw).trans (every_due ht _)))

theorem exec_partnerRateAlternate_fixed (hw : (getL l s).want ≠ 0) : exec (.partnerRateAlternate l) s = .next s :=
  (inLSt_in h).trans (congrArg _ (if_neg hw))

theorem exec_noPartnerTimer : exec (.noPartnerTimer l) s =
    .next (if timerDue .linkState l 1000000000 s then setLF l Reg.LNK_STATE_NO_PARTNER 1 s else s) := inLSt_in h

end
end

/-- Settles O33: each stage's event in its own state, and a change of state by the link's record. -/
theorem trainingStart : Obligations.TrainingStart := by
  rintro l s x rfl
  refine ⟨fun hp hopen => ⟨exec_linkEnable hp hopen, lnkEv_present hp hopen⟩, fun h => inLSt_in h,
    fun h => ⟨fun lanes => exec_partnerClockDetected h, exec_partnerRateAlternate_auto h,
      fun ht => (exec_noPartnerTimer h).trans (by rw [if_pos ht]), exec_partnerRateAlternate_fixed h,
      fun ht => (exec_noPartnerTimer h).trans (by rw [ht]; rfl)⟩,
    fun h => ⟨inLSt_in h, inLSt_other h (by decide)⟩, fun h => ⟨inLSt_in h, inLSt_other h (by decide)⟩,
    fun st => ⟨?_, fun m hm => ?_, setLSt_hbm ..⟩⟩
  · rw [getL_setLSt, if_pos rfl]; rfl
  · rw [getL_setLSt, if_neg hm]

end Sys2Proof.Machine
end

section
/-! PROOFS. Topology discovery (R487, R499, R505 to R509): the end of step 8, the wait for a partner, probes and replies. -/

namespace Sys2Proof.Machine

section
variable {s : State}

theorem exec_linkTrainingStepEnd : exec .linkTrainingStepEnd s = .next (
    if getF Reg.BOOT_STAT_STEP s = 8 ∧ trainingOver s then topoDecide (stepBegin 9 (stepDone 8 s)) else s) := rfl

theorem exec_discoveryWaitExpire (hstep : getF Reg.BOOT_STAT_STEP s = 9) (hc : getF Reg.SYS_CHIP_CONFIRMED s = 0)
    (ht : s.bootAt + discoveryWait s ≤ s.tb) :
    exec .discoveryWaitExpire s = .next (bootHoldAt 6 { s with bootWait := s.tb - s.bootAt }) :=
  congrArg _ (if_pos ⟨hstep, hc, ht⟩)

theorem exec_topoProbeReceived {p : Packet} (hup : s.mgmt.up = true) (hp : ctrlOf 0x10 s = some p) :
    exec .topoProbeReceived s = .next (topoPacket 0x11 p.src (ctrlTake p s)) := by
  unfold exec
  simp only [execTopoProbeReceived, hp, hup, if_true]

theorem exec_topoProbeReceived_ignored (h : s.mgmt.up = false ∨ ctrlOf 0x10 s = none) : exec .topoProbeReceived s = .next s := by
  rcases h with hup | hp
  · unfold exec
    simp only [execTopoProbeReceived, hup, Bool.false_eq_true, if_false]
    split <;> rfl
  · unfold exec
    simp only [execTopoProbeReceived, hp]

/-- R507: a reply is compared with the chip's own sizes. -/
theorem exec_topoReplyReceived {p : Packet} {u : State} (hup : s.mgmt.up = true) (hp : ctrlOf 0x11 s = some p)
    (hu : u = (probedLinks p.src s).foldl (fun (v : State) n => modL n (fun x => { x with probes := 0 }) v) (ctrlTake p s)) :
    exec .topoReplyReceived s = .next (
      if (p.data.take 3).map BitVec.toNat = [getF Reg.FAB_TOPO_SX u, getF Reg.FAB_TOPO_SY u, getF Reg.FAB_TOPO_SZ u] then u
      else logBoot .topologyPeerDiffers ((probedLinks p.src s).headD 0) (setF Reg.BOOT_TOPO_PEER_DIFFERS 1 u)) := by
  unfold exec
  simp only [execTopoReplyReceived, hp, hup, if_true, topoReply, ← hu]

variable {l : LinkId}

theorem exec_topoProbeTimer (ht : timerDue .probe l 1000000 s = true) :
    exec (.topoProbeTimer l) s = .next (probeAgain l (timerSet .probe l s)) := congrArg _ (every_due ht _)

theorem probeAgain_resend {l : Nat} (h0 : 0 < (getL l s).probes) (h3 : (getL l s).probes < 3) : probeAgain l s =
    topoPacket 0x10 (getLF l Reg.LNK_PARTNER_CHIP s) (modL l (fun x => { x with probes := (getL l s).probes + 1 }) s) := by
  rw [probeAgain, if_neg (Nat.pos_iff_ne_zero.mp h0), if_pos h3]

theorem probeAgain_silent {l : Nat} (h3 : 3 ≤ (getL l s).probes) : probeAgain l s =
    logBoot .topologyPeerSilent l (setF Reg.BOOT_TOPO_PEER_SILENT 1 (modL l (fun x => { x with probes := 0 }) s)) := by
  rw [probeAgain, if_neg (by omega), if_neg (Nat.not_lt.mpr h3)]

end

theorem getLF_timerSet (l : Nat) (f : Fld) (t : Timer) (n : Nat) (s : State) : getLF l f (timerSet t n s) = getLF l f s := rfl

/-- Settles O35: each event of discovery by its step, its packet or the probes already sent. -/
theorem discovery : Obligations.Discovery := by
  rintro l p s n rfl
  refine ⟨fun hs ht => exec_linkTrainingStepEnd.trans (by rw [if_pos ⟨hs, ht⟩]), exec_discoveryWaitExpire, exec_topoProbeReceived,
    ?reply, fun ht => ⟨fun h0 h3 => ?_, fun h3 => ?_⟩, fun ht => congrArg _ (every_early ht _),
    fun hs ht => exec_linkTrainingStepEnd.trans (by rw [ht, if_neg (by simp)]), exec_topoProbeReceived_ignored⟩
  case reply =>
    rintro ls u hup hp rfl hu
    exact ⟨fun heq => (exec_topoReplyReceived hup hp hu).trans (by rw [if_pos heq]),
      fun hne => (exec_topoReplyReceived hup hp hu).trans (by rw [if_neg hne])⟩
  · rw [exec_topoProbeTimer ht, probeAgain_resend (by rwa [getL_timerSet]) (by rwa [getL_timerSet]), getL_timerSet, getLF_timerSet]
  · rw [exec_topoProbeTimer ht, probeAgain_silent (by rwa [getL_timerSet])]

end Sys2Proof.Machine
end

section
/-! PROOFS. What disturbs a link and what its controls do (R289, R292, R293, R295, R304, R311, R321, R322). -/

namespace Sys2Proof.Machine

section
variable {l : LinkId} {s : State}

theorem LinkIn.active (h : LinkIn l .active s) : lnkActive l s = true := by simp [lnkActive, h.inSt]

/-! ### A lost lock or alignment (R289, R292, R311) -/

theorem exec_alignmentLost (h : LinkIn l .active s) :
    exec (.alignmentLost l) s = .next (if getLF l Reg.LNK_STATE_FALLOW_RX s = 1 then s else startRetrain l s) := inLSt_in h

theorem exec_blockLockLost_awake (h : LinkIn l .active s) (hf : getLF l Reg.LNK_STATE_FALLOW_RX s = 0) {lane : Fin 24}
    {hdrs : List (BitVec 2)} (hh : lockLost hdrs = true) (hl : (getL l s).locked.testBit lane = true) :
    exec (.blockLockLost l lane hdrs) s =
      .next (startRetrain l (setL l { getL l s with locked := (getL l s).locked - 2 ^ lane.val } s)) := by
  refine (lnkEv_present h.present h.open_).trans (congrArg _ (if_neg ?_))
  simp [hf, h.inSt, hh, hl]

theorem exec_blockLockLost_asleep (h : LinkIn l .active s) (hf : getLF l Reg.LNK_STATE_FALLOW_RX s = 1) (lane : Fin 24)
    (hdrs : List (BitVec 2)) : exec (.blockLockLost l lane hdrs) s = .next s :=
  (lnkEv_present h.present h.open_).trans (congrArg _ (if_pos (by simp [hf])))

theorem exec_linkClockLaneLost (hp : linkPresent l s = true) (hopen : s.frozen = false) {c : Fin 2}
    (hc : (getLF l Reg.LNK_STATE_CLOCK_LANES s).testBit c = true) : exec (.linkClockLaneLost l c) s = .next (
      if getLF l Reg.LNK_STATE_CLOCK_LANES s = 2 ^ c.val then
        startRetrain l (modL l (fun x => { x with locked := 0 })
          (setLF l Reg.LNK_STATE_CLOCK_LANES (getLF l Reg.LNK_STATE_CLOCK_LANES s - 2 ^ c.val) s))
      else logEv .linkClockLaneLost none none l []
        (setLF l Reg.LNK_STATE_CLOCK_LANES (getLF l Reg.LNK_STATE_CLOCK_LANES s - 2 ^ c.val) s)) :=
  (lnkEv_present hp hopen).trans (congrArg _ (if_neg (by simp [hc])))

/-! ### The controls (R321) -/

theorem exec_lnkRetrain (h : LinkIn l .active s) : exec (.lnkRetrain l) s = .next (emit (.laneMsg l .retrain)
    (modL l (fun x => { x with resume := true, nakSame := 0, naks := [], resends := 0, brief := false, wakeIn := 0 })
      (setLSt l .retrain (bumpLF l Reg.LNK_RETRAINS 1 s)))) := by
  unfold exec
  simp only [execLnkRetrain, h.present, startRetrain, retrainNow, h.active, h.open_, Bool.not_false, Bool.not_true,
    Bool.and_self, Bool.false_eq_true, if_true, if_false]

theorem exec_lnkSave (h : LinkIn l .active s) : exec (.lnkSave l) s = .next (linkSave l s) := by
  unfold exec
  simp only [execLnkSave, h.present, h.active, Bool.and_self, if_true]

theorem exec_linkDegradedCheck (h : LinkIn l .active s) (lane : Fin 24) (corrected bytes : Nat)
    (ht : timerDue .degraded (l.val * 32 + lane) 1000000000 s = true) : exec (.linkDegradedCheck l lane corrected bytes) s = .next (
      if bytes < corrected * 100000 then logLimited (2 ^ 61 + (l.val * 32 + lane)) 3600000000000 .linkDegraded none none l (arg16 [lane])
        (timerSet .degraded (l.val * 32 + lane) s)
      else timerSet .degraded (l.val * 32 + lane) s) := by
  unfold exec
  simp only [execLinkDegradedCheck, h.present, h.active, Bool.and_self, if_true, every_due ht]

/-! ### Lane messages (R295) -/

theorem leBytes_head (b : B64) : ((leBytes 8 b.toNat).headD 0).toNat = b.toNat % 256 := by
  simp [leBytes]

section
variable (hp : linkPresent l s = true) (hopen : s.frozen = false)
include hp hopen

theorem exec_laneMsgReceived_unknown (lane : Fin 24) {b : B64} (a : LaneAsk) (hb : knownControl (b.toNat % 256) = false) :
    exec (.laneMsgReceived l lane b a) s = .next (bumpLF l Reg.LNK_BAD_CONTROL 1 s) := by
  refine (lnkEv_present hp hopen).trans (congrArg _ (if_pos (.inl ?_)))
  rw [execLaneMsgReceived.dField', leBytes_head, hb]; rfl

theorem exec_laneMsgReceived_retrain (lane : Fin 24) {b : B64} (hb : b.toNat % 256 = 0x8C)
    (hcrc : crc16 ((leBytes 8 b.toNat).take 6) = leNat ((leBytes 8 b.toNat).drop 6)) :
    exec (.laneMsgReceived l lane b .retrain) s = .next (retrainNow l s) := by
  have ht : execLaneMsgReceived.dField' (leBytes 8 b.toNat) = 0x8C := (leBytes_head b).trans hb
  refine (lnkEv_present hp hopen).trans (congrArg _ ?_)
  dsimp only
  rw [ht, if_neg (by decide), if_neg (by simp [hcrc])]

end
end

/-- Settles O36: each event of a link by whether its direction sleeps, its clock lanes, and the control block received. -/
theorem linkUpkeep : Obligations.LinkUpkeep := by
  intro l lane s
  refine ⟨fun h hf => ⟨(exec_alignmentLost h).trans (by rw [hf, if_neg (by decide)]), fun hdrs => exec_blockLockLost_awake h hf⟩,
    ?controls, ?degraded, fun hp hopen => ⟨lnkEv_present hp hopen, ?lane,
      fun b a => ⟨exec_laneMsgReceived_unknown hp hopen lane a, ?_⟩⟩,
    fun c hp hopen hc => ?_, fun h corrected bytes ht hb => ?_,
    fun h hf => ⟨(exec_alignmentLost h).trans (by rw [if_pos hf]), exec_blockLockLost_asleep h hf lane⟩⟩
  case controls =>
    rintro h u rfl
    exact ⟨exec_lnkRetrain h, exec_lnkSave h⟩
  case degraded =>
    rintro h corrected bytes ht u rfl hb
    rw [exec_linkDegradedCheck h lane corrected bytes ht, if_pos hb]
  case lane =>
    rintro c n rfl hc hne
    rw [exec_linkClockLaneLost hp hopen hc, if_neg hne]
  · rintro hb hcrc rfl
    exact exec_laneMsgReceived_retrain hp hopen lane hb hcrc
  · have hbit : (getLF l Reg.LNK_STATE_CLOCK_LANES s).testBit c = true := by rw [hc]; exact Nat.testBit_two_pow_self
    rw [exec_linkClockLaneLost hp hopen hbit, if_pos hc, hc, Nat.sub_self]
  · rw [exec_linkDegradedCheck h lane corrected bytes ht, if_neg (Nat.not_lt.mpr hb)]

end Sys2Proof.Machine
end

section
/-! PROOFS. An idle direction sleeps and wakes (R313 to R315). -/

namespace Sys2Proof.Machine

section
variable {l : LinkId} {s : State} (h : LinkIn l .active s)
include h

/-! ### Going to sleep -/

theorem exec_fallowEnter_idle (hen : getLF l Reg.LNK_CFG_FALLOW_EN s = 1) (hlx : getLF l Reg.LNK_STATE_LX7 s = 0)
    (hf : getLF l Reg.LNK_STATE_FALLOW_TX s = 0) (ha : (getL l s).awake = false) (hw : (getL l s).wakeIn = 0)
    (hi : idleLong l s = true) : exec (.fallowEnter l) s =
      .next (backToSleep l (sendGroup l { nullGroup (getL l s) with fallow := true } s)) :=
  (inLSt_in h).trans (congrArg _ (if_pos (by simp [hen, hlx, hf, ha, hw, hi])))

theorem exec_fallowEnter_busy (hi : idleLong l s = false) : exec (.fallowEnter l) s = .next s :=
  (inLSt_in h).trans (congrArg _ (if_neg (by simp [hi])))

theorem exec_sleepReceived (hlx : getLF l Reg.LNK_STATE_LX7 s = 0) :
    exec (.sleepReceived l) s = .next (setLF l Reg.LNK_STATE_FALLOW_RX 1 (timerSet .wakeRows l s)) :=
  (inLSt_in h).trans (congrArg _ (if_neg (by omega)))

/-- R315: a wake without a lock within a microsecond is counted and retrains. -/
theorem exec_wakeLockTimeout (hf : getLF l Reg.LNK_STATE_FALLOW_RX s = 1) (ht : timerDue .wakeRows l 1000 s = true) :
    exec (.wakeLockTimeout l) s =
      .next (startRetrain l (setLF l Reg.LNK_STATE_FALLOW_RX 0 (bumpLF l Reg.LNK_WAKE_FAILS 1 s))) :=
  (inLSt_in h).trans (congrArg _ (if_neg (by simp [hf, ht])))

/-! ### Waking -/

section
variable (hf : getLF l Reg.LNK_STATE_FALLOW_TX s = 1)
include hf

theorem exec_lnkWake : exec (.lnkWake l) s = .next (wakeTx l false s) := (inLSt_in h).trans (congrArg _ (if_pos hf))

theorem exec_fallowWake : exec (.fallowWake l) s = .next (if wakeForData l s then wakeTx l false s
    else if (getL l s).nakDue || ackOld (getL l s) s || creditDue (getL l s).owed then wakeTx l true s else s) :=
  (inLSt_in h).trans (congrArg _ (if_neg (by omega)))

theorem exec_fallowSleepLimit (ht : (getL l s).sleepAt + 100000000 ≤ s.tb) : exec (.fallowSleepLimit l) s =
    .next (wakeTx l false (modL l (fun x => { x with awake := true, awakeAt := s.tb }) s)) :=
  (inLSt_in h).trans (congrArg _ (if_neg (by omega)))

end

theorem exec_fallowSleepLimit_early (ht : s.tb < (getL l s).sleepAt + 100000000) : exec (.fallowSleepLimit l) s = .next s :=
  (inLSt_in h).trans (congrArg _ (if_pos (.inr ht)))

end

theorem exec_fallowAwakeHoldEnd {l : LinkId} {s : State} (ht : (getL l s).awakeAt + 10000 ≤ s.tb) :
    exec (.fallowAwakeHoldEnd l) s = .next (setL l { getL l s with awake := false } s) := by
  unfold exec
  simp only [execFallowAwakeHoldEnd, modL_eq, ht, if_true]

/-- R314: a wake sends between 256 rows and the rows of the slots before its first group. -/
theorem wakeTx_rows {l : Nat} {s : State} (h : s.mgmt.dark.testBit l = false) (brief : Bool) {n : Nat} (hn : n = 16 + freeNat s % 79) :
    ∃ rows, 256 ≤ rows ∧ rows ≤ max 256 (17 * n) ∧
      wakeTx l brief s = emit (.row l rows (ctlRow (wakeBlock (13 + 17 * (((getL l s).pos + n) % 963)))))
        (setLF l Reg.LNK_STATE_FALLOW_TX 0 (setL l { getL l s with brief := brief, wakeIn := n, idle := 0 }
          { s with freeCtr := s.freeCtr + 2 })) := by
  subst hn
  refine ⟨256 + freeNat (tick1 s) % (17 * (16 + freeNat s % 79) - 255), Nat.le_add_right .., ?_, ?_⟩
  · have hlt := Nat.mod_lt (freeNat (tick1 s)) (show 0 < 17 * (16 + freeNat s % 79) - 255 by omega)
    omega
  · rw [wakeTx, h, if_neg Bool.false_ne_true]
    rfl

/-- Settles O37: each event by the direction's state and what it has to send. -/
theorem fallow : Obligations.Fallow := by
  rintro l s x rfl h
  refine ⟨exec_fallowEnter_idle h, fun hf => ⟨exec_lnkWake h hf, fun hd => ?_, fun hd ho => ?_, exec_fallowSleepLimit h hf⟩,
    exec_fallowAwakeHoldEnd, exec_sleepReceived h, inLSt_in h, exec_wakeLockTimeout h, fun hdark brief n hn => wakeTx_rows hdark brief hn,
    exec_fallowEnter_busy h, exec_fallowSleepLimit_early h⟩
  · rw [exec_fallowWake h hf, if_pos hd]
  · rw [exec_fallowWake h hf, hd, if_neg Bool.false_ne_true, if_pos (by simpa [or_assoc] using ho)]

end Sys2Proof.Machine
end

section
/-! PROOFS. Tests, far loops and the idling of links to LX7 modules (R316, R318 to R320). -/

namespace Sys2Proof.Machine

section
variable {l : LinkId} {s : State}

/-! ### Tests and far loops (R318 to R320) -/

section
variable (hp : linkPresent l s = true) (hopen : s.frozen = false)
include hp hopen

theorem exec_farLoopRequest (hst : (getL l s).st ≠ .disabled) : exec (.farLoopRequest l) s = .next (
    if getLF l Reg.LNK_CFG_ALLOW_FAR s = 1 then emit (.laneMsg l .farGranted) (enterTest l true true s)
    else emit (.laneMsg l .farRefused) s) := (lnkEv_present hp hopen).trans (congrArg _ (if_neg hst))

/-- A write of mode 1 and pattern 0 to an active link starts a near test. -/
theorem exec_lnkTestCtlWrite_near {v : B64} (hv : v.toNat = 1) (hst : (getL l s).st = .active) : exec (.lnkTestCtlWrite l v) s =
    .next (enterTest l false true (setLF l Reg.LNK_TEST_CTL_MODE 1 (setLF l Reg.LNK_TEST_CTL_PATTERN 0 s))) := by
  have hst' : (getL l (setLF l Reg.LNK_TEST_CTL_PATTERN 0 s)).st = .active := hst
  refine (lnkEv_present hp hopen).trans (congrArg _ ?_)
  simp [testCtl, hv, hst', testMode]

end

/-- What a checker that synchronises leaves: the lane's errors grow, up to all ones. -/
def checked (lane errs : Nat) (x : Link) : Link := { x with prbs := smMod 0 x.prbs lane fun n => min (n + errs) (2 ^ 32 - 1) }

theorem exec_testCheckerSync (h : LinkIn l .test s) (hr : getLF l Reg.LNK_TEST_STAT_RUNNING s = 1) (lane : Fin 24) (errs : Nat) :
    ∃ t, exec (.testCheckerSync l lane errs) s = .next (modL l (checked lane errs) t) ∧ getL l t = getL l s := by
  refine ⟨_, (inLSt_in h).trans (congrArg _ (if_neg (by omega))), ?_⟩
  split <;> rfl

theorem getL_modL_self (l : Nat) (f : Link → Link) (s : State) : getL l (modL l f s) = f (getL l s) := by
  rw [modL_eq, getL_setL, if_pos rfl]

/-! ### Legacy idle (R316) -/

section
variable (h : LinkIn l .active s)
include h

theorem exec_legacyIdleRequest : exec (.legacyIdleRequest l) s = .next (
    if getLF l Reg.LNK_STATE_LX7 s = 1 && idleLong l s then
      emit (.row l 1 (ctlRow (legacyBlock 1))) (timerSet .legacyAsk l (modL l (fun x => { x with legacyReq := true }) s))
    else s) := inLSt_in h

theorem exec_legacyIdleReceived (grant : Bool) : exec (.legacyIdleReceived l grant) s = .next (
    if getLF l Reg.LNK_STATE_LX7 s = 0 then s
    else if grant then
      if (getL l s).legacyReq then setLSt l .legacyIdle (modL l (fun x => { x with legacyReq := false }) s) else s
    else if idleLong l s then setLSt l .legacyIdle (emit (.row l 1 (ctlRow (legacyBlock 2))) s)
    else s) := inLSt_in h

end
end

/-- Settles O38: each request by what the link allows, a checker by its lane, and legacy idle by who asked. -/
theorem testsAndLegacy : Obligations.TestsAndLegacy := by
  intro l s
  refine ⟨fun hp hopen => ⟨fun v => lnkEv_present hp hopen, fun hst ha => ?_, fun hst ha => ?_⟩, fun lane errs h hr => ?checker,
    fun h hlx => ⟨fun hi => ⟨?_, ?_⟩, fun hreq => ?_⟩, fun ht => congrArg _ (if_pos ht),
    fun h => ⟨inLSt_in h, inLSt_in h⟩, fun h hi => ⟨?_, ?_⟩, fun v hp hopen => exec_lnkTestCtlWrite_near hp hopen⟩
  · rw [exec_farLoopRequest hp hopen hst, if_pos ha]
  · rw [exec_farLoopRequest hp hopen hst, ha, if_neg (by decide)]
  case checker =>
    obtain ⟨t, hexec, ht⟩ := exec_testCheckerSync h hr lane errs
    refine ⟨_, hexec, ?_, fun m hm => ?_, ?_⟩
    · rw [getL_modL_self, checked, ht, smLook_smMod, if_pos rfl]
    · rw [getL_modL_self, checked, ht, smLook_smMod, if_neg hm]
    · rw [getL_modL_self, checked, ht]; exact h.inSt
  · rw [exec_legacyIdleRequest h, hlx, hi]; rfl
  · rw [exec_legacyIdleReceived h, hlx, hi]; rfl
  · rw [exec_legacyIdleReceived h, hlx, hreq]; rfl
  · rw [exec_legacyIdleRequest h, hi, Bool.and_false]; rfl
  · rw [exec_legacyIdleReceived h, hi]
    split <;> rfl

end Sys2Proof.Machine
end

section
/-! PROOFS. Groups (R294, R297 to R304, R307): what a slot sends, what is accepted, NAK and replay. -/

namespace Sys2Proof.Machine

section
variable {l : LinkId} {s : State} (hp : linkPresent l s = true)
include hp

/-! ### What a slot sends while the link trains (R294, R307) -/

theorem exec_groupSlot_framed (hst : (getL l s).st ∈ ([.blockLock, .eqFine, .identify, .held, .retrain] : List LSt)) :
    exec (.groupSlot l) s = .next (sendGroup l (nullGroup (getL l s)) s) := by
  simp only [List.mem_cons, List.not_mem_nil, or_false] at hst
  unfold exec
  rcases hst with h | h | h | h | h <;>
    simp only [execGroupSlot, hp, h, Bool.not_true, Bool.false_eq_true, if_false]

theorem exec_groupSlot_pattern (hst : (getL l s).st ∈ ([.clockDetect, .eqCoarse, .restore] : List LSt)) :
    exec (.groupSlot l) s = .next (sendPrbs l true s) := by
  simp only [List.mem_cons, List.not_mem_nil, or_false] at hst
  unfold exec
  rcases hst with h | h | h <;> simp only [execGroupSlot, hp, h, Bool.not_true, Bool.false_eq_true, if_false]

omit hp in
theorem sendsFramed_training (hst : (getL l s).st ∈ ([.blockLock, .eqFine, .identify, .held, .retrain] : List LSt)) :
    sendsFramed l s = true := by
  simp only [List.mem_cons, List.not_mem_nil, or_false] at hst
  rcases hst with h | h | h | h | h <;> simp only [sendsFramed, h]

omit hp in
theorem sendsFramed_active (hst : (getL l s).st = .active) : sendsFramed l s = true := by simp only [sendsFramed, hst]

theorem exec_periodStart (hf : sendsFramed l s = true) (ht : getLF l Reg.LNK_STATE_FALLOW_TX s = 0) (hw : (getL l s).wakeIn = 0) :
    exec (.periodStart l) s = .next (periodRows l (setL l { getL l s with pos := 0 } s)) := by
  unfold exec
  simp [execPeriodStart, hp, hf, ht, hw, modL_eq]

/-! ### Reception, NAK and replay (R302, R303) -/

theorem exec_groupReceived (hst : (getL l s).st = .active) (hf : getLF l Reg.LNK_STATE_FALLOW_RX s = 0) {rx : RxGroup} {w : RxWord}
    (hw : w = groupDecode rx.lanes (getLF l Reg.LNK_STATE_REVERSED s = 1) (getL l s).dscr) {u : State}
    (hu : u = fecCounts l w (setL l { getL l s with dscr := w.dscr } s)) :
    exec (.groupReceived l rx) s = .next (if w.bad then groupLost l u else takeGroup l (w.group rx.used) u) := by
  have hgo : ¬(!linkPresent l s ∨ !(sendsFramed l s || (getL l s).st = .test) ∨ getLF l Reg.LNK_STATE_FALLOW_RX s = 1) := by
    simp [hp, sendsFramed_active hst, hf]
  have hst' : (getL l (setL l { getL l s with dscr := w.dscr } s)).st = .active := by rw [getL_setL, if_pos rfl]; exact hst
  subst hw hu
  unfold exec
  simp only [execGroupReceived, if_neg hgo, modL_eq, hst']

omit hp in
theorem exec_nakRepeatTimer (hst : (getL l s).st = .active) (hm : (getL l s).missing = true) (ht : timerDue .nakRepeat l 2000 s = true) :
    exec (.nakRepeatTimer l) s = .next (modL l (fun x => { x with nakDue := true }) (timerSet .nakRepeat l s)) := by
  unfold exec
  simp only [execNakRepeatTimer, hm, lnkActive, hst, decide_true, Bool.and_self, if_true, every_due ht]

end

section
variable {l : Nat} {s : State}

theorem takeGroup_data {g : Group} (hst : (getL l s).st = .active) (hg : g.null = false) : takeGroup l g s =
    if seqDiff g.seq (getL l s).rxNext = 0 then
      (if (getL l (takeControl l g s)).peerReleased then acceptData l g (takeControl l g s) else takeControl l g s)
    else if seqDiff g.seq (getL l s).rxNext < 32768 then groupLost l s else s := by
  simp only [takeGroup, hst, hg, Bool.false_eq_true, reduceCtorEq, or_self, if_false]

theorem brief_eq {x : Link} (h : x.brief = false) : { x with brief := false } = x := by rw [← h]

end

/-! ### What a slot of an active link sends (R301, R303) -/

/-- An active link that neither sleeps nor wakes nor resumes, in the state `u` in which its slot is filled. -/
structure SlotOpen (l : Nat) (x : Link) (u : State) : Prop where
  link : getL l u = x
  going : x.resume = false

section
variable {l : Nat} {x : Link} {u : State} (h : SlotOpen l x u)
include h

theorem slotActive_replay {i : Nat} {g : Group} (hr : x.resend = some i) (hg : x.kept[i]? = some g) : slotActive l u =
    sendGroup l g (bumpLF l Reg.LNK_REPLAYED 1 (setL l { x with
      sentAt := x.sentAt.set i u.tb
      resend := (if i + 1 < x.kept.length then some (i + 1) else none) } u)) := by
  simp only [slotActive, h.link, h.going, hr, hg, modL_eq, Bool.false_eq_true, if_false]

theorem slotActive_full (hr : x.resend = none) (hfull : 256 ≤ x.kept.length) :
    slotActive l u = sendGroup l (nullGroup x) (bumpLF l Reg.LNK_REPLAY_FULL 1 u) := by
  simp only [slotActive, h.link, h.going, hr, hfull, Bool.false_eq_true, if_false, if_true]

theorem slotActive_data (hr : x.resend = none) (hroom : x.kept.length < 256) {r : (List Packet × List Byte) × State}
    (hfill : r = fillGroup l 200 3056 u) (hne : r.1.2 ≠ []) {g : Group}
    (hg : g = ⟨false, x.txSeq, 0, (0, 0), (0, 0), false, false, false, r.1.1, r.1.2⟩) : slotActive l u =
      sendGroup l g (modL l (fun y => { y with
        txSeq := (y.txSeq + 1) % 65536, kept := y.kept ++ [g], sentAt := y.sentAt ++ [u.tb], idle := 0 }) r.2) := by
  have hbytes : r.1.2.isEmpty = false := by simpa using hne
  subst hg
  simp only [slotActive, h.link, h.going, hr, Nat.not_le.mpr hroom, ← hfill, hbytes, Bool.false_eq_true, if_false]

end

section
variable {l : LinkId} {s : State} {u : State} (hp : linkPresent l s = true) (hst : (getL l s).st = .active)
  (hf : getLF l Reg.LNK_STATE_FALLOW_TX s = 0) (hw : (getL l s).wakeIn = 0) (hb : (getL l s).brief = false)
  (hu : u = if s.frozen then s else setL l (getL l s) s)
include hu

theorem slotState_link : getL l u = getL l s := by
  subst hu
  split
  · rfl
  · rw [getL_setL, if_pos rfl]

theorem slotState_tb : u.tb = s.tb := by
  subst hu
  split <;> rfl

include hp hst hf hw hb

theorem exec_groupSlot_active : exec (.groupSlot l) s = .next (slotActive l u) := by
  have hgo : ¬(getLF l Reg.LNK_STATE_FALLOW_TX s = 1 ∨ (getL l s).wakeIn ≠ 0) := by rw [hf, hw]; decide
  have hs : sleepsAgain l s = false := by simp only [sleepsAgain, hb, Bool.false_and]
  have hbrief : modL l (fun x => { x with brief := false }) s = setL l (getL l s) s := congrArg (setL l · s) (brief_eq hb)
  subst hu
  unfold exec
  simp only [execGroupSlot, hp, hst, if_neg hgo, hs, hbrief, Bool.not_true, Bool.false_eq_true, if_false]

end

/-- Settles O39: each slot by the link's state and its replay buffer, and each group received by its bytes and its SEQ. -/
theorem linkGroups : Obligations.LinkGroups := by
  rintro l rx s x rfl hp
  refine ⟨fun hst => ⟨exec_groupSlot_framed hp hst, exec_periodStart hp (sendsFramed_training hst)⟩, fun w hw hst hf u hu => ?received,
    exec_nakRepeatTimer, ?replay, exec_groupSlot_pattern hp, ?accept, rfl, fun hst hf hw hb hr u hu => ?slot⟩
  case received =>
    have hexec := exec_groupReceived hp hst hf hw hu
    exact ⟨fun hbad => hexec.trans (congrArg _ (if_pos hbad)), fun hgood => hexec.trans (congrArg _ (if_neg (Bool.eq_false_iff.mp hgood)))⟩
  case replay =>
    rintro hst hd u rfl
    have hexec : exec (.replayTimeout l) s = .next (replayAll l s) := by
      unfold exec
      simp only [execReplayTimeout, lnkActive, hst, hd, decide_true, Bool.and_self, if_true]
    refine ⟨fun h4 => hexec.trans (congrArg _ (if_pos h4)), fun h4 => hexec.trans (congrArg _ (if_neg (Nat.not_le.mpr h4)))⟩
  case accept =>
    rintro g d hst hg rfl
    refine ⟨fun h0 hrel => ?_, fun h0 hlt => ?_, fun hge => ?_⟩
    · rw [takeGroup_data hst hg, if_pos h0, if_pos hrel]
    · rw [takeGroup_data hst hg, if_neg (Nat.pos_iff_ne_zero.mp h0), if_pos hlt]
    · rw [takeGroup_data hst hg, if_neg (by omega), if_neg (Nat.not_lt.mpr hge)]
  case slot =>
    have hexec := exec_groupSlot_active hp hst hf hw hb hu
    have hopen : SlotOpen l (getL l s) u := ⟨slotState_link hu, hr⟩
    rw [hexec, ← slotState_tb hu]
    exact ⟨fun i g hri hg => congrArg _ (slotActive_replay hopen hri hg), fun hrn hfull => congrArg _ (slotActive_full hopen hrn hfull),
      fun r g hrn hroom hfill hne hg => congrArg _ (slotActive_data hopen hrn hroom hfill hne hg)⟩

end Sys2Proof.Machine
end

section
/-! PROOFS. The router (R327, R329, R331, R333, R334, R338, R341, R342, R346): drops, delivery, waiting and the Headland channel. -/

namespace Sys2Proof.Machine

/-! ### A packet at the head of an input -/

section
variable {inp : Nat} {p : Packet} {t u : State} (hu : { t with nextPkt := t.nextPkt + 1 } = u)
include hu

theorem routePacket_malformed (hm : malformed p = true) : routePacket inp p t =
    bufferFree inp (creditCode p) (creditsOf p) (dropPacket Reg.FAB_DROP_MALFORMED false p u) := by
  simp only [routePacket, hu, hm, if_true]

theorem routePacket_noGroup (hm : malformed p = false) (hc : p.mcast = true)
    (he : (smLook 0 u.mcast (p.epoch * 4096 + p.group)).testBit 7 = false) : routePacket inp p t =
      bufferFree inp (creditCode p) (creditsOf p) (dropPacket Reg.FAB_DROP_NOROUTE false p u) := by
  have htable : u.mcast = t.mcast := by rw [← hu]
  rw [htable] at he
  simp only [routePacket, hu, hm, hc, he, Bool.not_false, Bool.false_eq_true, if_false, if_true]

variable (hm : malformed p = false) (hc : p.mcast = false)
include hm hc

theorem routePacket_here (hd : p.dst = ownChip u) :
    routePacket inp p t = enqueueLocal (localPort p u) t.nextPkt inp (creditCode p) p u := by
  simp only [routePacket, hu, hm, hc, hd, Bool.false_eq_true, if_false, if_true]

/-- R331, R341: a packet for another module, by its route and its hops. -/
theorem routePacket_on (hd : p.dst ≠ ownChip u) : routePacket inp p t = match routePort (routeCode p u) u with
    | none => bufferFree inp (creditCode p) (creditsOf p) (dropPacket Reg.FAB_DROP_NOROUTE true p u)
    | some l =>
      if 96 ≤ p.hops then bufferFree inp (creditCode p) (creditsOf p) (dropPacket Reg.FAB_DROP_HOPS true p u)
      else enqueue l t.nextPkt inp (creditCode p) p u := by
  simp only [routePacket, hu, hm, hc, hd, Bool.false_eq_true, if_false] <;> rfl

end

/-! ### Packets that wait -/

section
variable {k : LinkId} {s u : State}

theorem exec_headlandMove {q : QPkt} {j : Nat}
    (hq : (smLook [] s.outQ k).find? (fun q => q.p.vc < 5 && getF Reg.FAB_CFG_HL_WAIT_NS s ≤ q.wait) = some q)
    (hc : q.p.mcast = false) (hu : u = bump Reg.FAB_HL_ENTRIES 1 { s with outQ := smMod [] s.outQ k (·.erase q) })
    (hj : routePort (routeEntry q.p.epoch q.p.dst u / 8 % 8) u = some j) : exec (.headlandMove k) s = .next { u with
      outQ := smMod [] u.outQ j (· ++ [{ q with p := { q.p with vc := 5, hlc := (if crossesDateline j u then 1 else 0) } }]) } := by
  unfold exec
  simp only [execHeadlandMove, hq, hc, ← hu, hj, Bool.false_eq_true, if_false]

theorem exec_linkDownHoldExpire (hd : lnkActive k s = false) (ht : getF Reg.FAB_CFG_DOWN_HOLD_MS s * 1000000 ≤ downFor k s) :
    exec (.linkDownHoldExpire k) s = .next ((smLook [] s.outQ k).foldl (fun (t : State) q =>
      dropPacket Reg.FAB_DROP_LINKDOWN (!q.p.mcast) q.p (dequeue k q t)) s) :=
  if_neg (by simp [hd, ht])

end

theorem exec_packetArrival {port : Fin 9} {p : Packet} {l : List Packet} {s : State} (h : smLook [] s.rtIn port = p :: l) :
    exec (.packetArrival port) s = .next (routePacket port p { s with rtIn := smPut [] s.rtIn port l }) := by
  unfold exec
  simp only [execPacketArrival, h]

/-- Settles O40: a packet by its form, its kind, its destination, its route and its hops. -/
theorem routing : Obligations.Routing := by
  rintro port p l s u n rfl
  refine ⟨fun k q j hq hc hu hj => exec_headlandMove hq hc hu hj, fun k => ⟨exec_linkDownHoldExpire, fun h => if_pos h⟩, ?arrival,
    fun h => by unfold exec; simp only [execPacketArrival, h]⟩
  case arrival =>
    rintro h hu free rfl
    have hexec := exec_packetArrival h
    have ht := hu.symm
    refine ⟨fun hm hc hd => hexec.trans (congrArg _ (routePacket_here ht hm hc hd)),
      fun hm => hexec.trans (congrArg _ (routePacket_malformed ht hm)),
      fun hm hc hd => ⟨fun hr => ?_, fun k hr => ⟨fun hh => ?_, fun hh => ?_⟩⟩,
      fun hm hc he => hexec.trans (congrArg _ (routePacket_noGroup ht hm hc he))⟩
    · rw [hexec, routePacket_on ht hm hc hd, hr]
    · rw [hexec, routePacket_on ht hm hc hd, hr]
      exact congrArg _ (if_pos hh)
    · rw [hexec, routePacket_on ht hm hc hd, hr]
      exact congrArg _ (if_neg (Nat.not_le.mpr hh))

end Sys2Proof.Machine
end

section
/-! PROOFS. Group definitions, and the admission of collectives (R383, R384, R401 to R404, R412). -/

namespace Sys2Proof.Machine

/-! ### Admission -/

/-- The state in which a collective is admitted (R402): it runs, LAST_SEQ is its number, and its command has started. -/
def collAdmitted (p n : Nat) (c : Coll) (foot : Nat) (s : State) : State :=
  modCmd c.ring c.idx (fun k => { k with started := true })
    (setColl n { c with st := .running, slice := 0, foot := foot } (setF (fldNth Reg.COL_LAST_SEQ p) c.seq s))

/-- How an admitted collective goes on from what the read of its input answers. -/
def collAfterRead (n : Nat) (r : Except Nat (List Byte) × State) : Ans :=
  match r with
  | (.error b, v) => .next (collFail n 0x0202 b v)
  | (.ok l, v) => .next (collBegin n l v)

section
variable {p : PartId} {n : Nat} {c : Coll} {s : State} {q : Nat} {m : Nat × Nat} (h : collHead p s = some (n, c))
include h

theorem exec_collAdmit_old (ho : c.seq ≤ getF (fldNth Reg.COL_LAST_SEQ p) s) :
    exec (.collAdmit p) s = .next (collFail n 0x0303 0 s) := by
  unfold exec
  simp only [execCollAdmit, h, ho, if_true]

variable (hnew : getF (fldNth Reg.COL_LAST_SEQ p) s < c.seq) (hq : q = getF (quotaF p) s * 2 ^ 20)
  (hm : m = collMode c.op c.count c.g c.a q)
include hnew hq hm

theorem exec_collAdmit_waits (hw : q < gristUsed p s + m.2 ∨ collTurn c s = false) : exec (.collAdmit p) s = .next s := by
  have hstay : (q < gristUsed p s + m.2 || (isReduce c.op && m.2 = 0) || !collTurn c s) = true := by
    rcases hw with hw | hw <;> simp [hw]
  unfold exec
  simp only [execCollAdmit, h, Nat.not_le.mpr hnew, ← hq, ← hm, if_pos hstay, if_false]

/-- R402, R412: the head fits, it is its turn and it is read whole: its input decides how it goes on. -/
theorem exec_collAdmit_admits (hfit : gristUsed p s + m.2 ≤ q) (hturn : collTurn c s = true) (hfoot : m.2 ≠ 0) (hwhole : m.1 = 0) :
    exec (.collAdmit p) s = collAfterRead n
      (collRead c.src (readLen c.op c.count c.g c.pos c.e c.rowBytes) (collAdmitted p n c m.2 s)) := by
  have hgo : ¬(q < gristUsed p s + m.2 || (isReduce c.op && m.2 = 0) || !collTurn c s) := by
    simp [Nat.not_lt.mpr hfit, hfoot, hturn]
  unfold exec
  simp only [execCollAdmit, h, Nat.not_le.mpr hnew, ← hq, ← hm, if_neg hgo, hwhole, if_true, if_false]
  rfl

end

/-! ### Group definitions -/

section
variable {s : State}

theorem exec_colGroupUndefine : exec .colGroupUndefine s = if groupBusyC (getF Reg.COL_GROUP_SEL s) s then
      .next { s with groupFail := smPut 0 s.groupFail (getF Reg.COL_GROUP_SEL s) 4 }
    else .next { s with
      groups := smDel s.groups (getF Reg.COL_GROUP_SEL s), groupFail := smDel s.groupFail (getF Reg.COL_GROUP_SEL s) } := rfl

section
variable {d : Nat × Nat} {l : List (Nat × Nat)} {u : State} (hd : s.groupDefs = d :: l)
include hd

theorem exec_groupDefineDone_ok {x : CollGroup} (hr : groupRead d.1 d.2 { s with groupDefs := l } = (.ok x, u)) :
    exec .groupDefineDone s = .next { u with groups := putO u.groups d.1 x, groupFail := smDel u.groupFail d.1 } := by
  unfold exec
  simp only [execGroupDefineDone, hd, hr]

theorem exec_groupDefineDone_error {e : Nat} (hr : groupRead d.1 d.2 { s with groupDefs := l } = (.error e, u)) :
    exec .groupDefineDone s = .next { u with groupFail := smPut 0 u.groupFail d.1 e } := by
  unfold exec
  simp only [execGroupDefineDone, hd, hr]

end
end

/-- Settles O42: the head of a partition's queue by its number, its footprint, its turn and its input; a group by its use and
what its definition reads. -/
theorem groupsAndAdmission : Obligations.GroupsAndAdmission := by
  refine ⟨?admission, ?groups⟩
  case admission =>
    rintro p n c m s q last hq rfl h hm
    refine ⟨?_, exec_collAdmit_old h, fun hnew hw => exec_collAdmit_waits h hnew hq hm hw⟩
    rintro u hnew hfit hturn hfoot hwhole rfl
    have hexec := exec_collAdmit_admits h hnew hq hm hfit hturn hfoot hwhole
    refine ⟨fun l v hr => hexec.trans ?_, fun b v hr => hexec.trans ?_⟩
    · rw [collAdmitted, hr]; rfl
    · rw [collAdmitted, hr]; rfl
  case groups =>
    rintro s g rfl
    refine ⟨rfl, fun hb => ?_, fun hb => ?_, fun d l u x hd hr => exec_groupDefineDone_ok hd hr,
      fun d l u e hd hr => exec_groupDefineDone_error hd hr,
      fun hd => ?_⟩
    · rw [exec_colGroupUndefine, hb]; rfl
    · rw [exec_colGroupUndefine, if_pos hb]
    · unfold exec
      simp only [execGroupDefineDone, hd]

end Sys2Proof.Machine
end

section
/-! PROOFS. The packets of collectives (R392, R396, R398, R403, R415, R416). -/

namespace Sys2Proof.Machine

/-! ### A packet finds its collective -/

section
variable {typ ph : Nat} {f : Nat → Coll → Nat → Nat → List Byte → State → State} {p : Packet} {s : State}

/-- R416: a packet of a member for a collective that the module holds. -/
theorem collTake_got {n : Nat} {c : Coll} (h : CollGot typ ph p n c s) : collTake typ ph f s =
    .next (f n c (c.members.idxOf p.src) (p.addr % 2 ^ (if typ = 5 then 36 else 40)) p.data (hubTook p s)) := by
  have howner : collFor p { s with hubIn := s.hubIn.erase p } = some (n, c) := h.owner
  simp only [collTake, h.arrived, howner, h.member, if_true, hubTook]

theorem collTake_unicast {n : Nat} {c : Coll} (h : CollGot 5 ph p n c s) : collTake 5 ph f s =
    .next (f n c (c.members.idxOf p.src) (p.addr % 2 ^ 36) p.data (hubTook p s)) := collTake_got h

theorem collTake_multicast {n : Nat} {c : Coll} (h : CollGot 6 ph p n c s) : collTake 6 ph f s =
    .next (f n c (c.members.idxOf p.src) (p.addr % 2 ^ 40) p.data (hubTook p s)) := collTake_got h

theorem collTake_stray (hp : collPkt typ ph s = some p) (hn : collFor p (hubTook p s) = none) :
    collTake typ ph f s = .next (bump Reg.COL_STRAY_PACKETS 1 (hubTook p s)) := by
  have howner : collFor p { s with hubIn := s.hubIn.erase p } = none := hn
  simp only [collTake, hp, howner, collStray, hubTook]

end

section
variable {p : Packet} {n : Nat} {c : Coll} {i o : Nat} {s u : State} (hu : u = hubTook p s) (hi : i = c.members.idxOf p.src)
  (ho : o = p.addr % 2 ^ 36) (hst : c.st = .running)
include hu hi hst

/-! ### Reductions, gatherings and broadcasts -/

section
include ho

/-- R392: a final piece is written, and goes on unless the successor has it. -/
theorem exec_collAgSegment {x : Nat} (h : CollGot 5 1 p n c s) (hop : c.op = 0 ∨ c.op = 2) (hfrom : i = c.back 1)
    (hin : o + p.data.length ≤ c.count * c.e) (hx : x = o / c.e) : exec .collAgSegment s =
      .next (stripGot n ((x - chunkAt c.count c.g (c.chunkOf x)) / c.sliceLen) (p.data.length / c.e)
        (collRegrant n i p.data.length (if c.chunkOf x = c.succ then collOut n o p.data u
          else collQueue n (collPieces c.succ 1 o p.data) (collOut n o p.data u)))) := by
  subst hu hi ho hx
  show execCollAgSegment s = _
  rw [execCollAgSegment, collTake_unicast h]
  exact congrArg _ (if_neg (by
    rintro (hr | hr | hr | hr)
    · exact hr hst
    · exact hop.elim hr.1 hr.2
    · exact hr hfrom
    · exact absurd hin (Nat.not_le.mpr hr)))

/-- R392: a received partial is the left operand; the result is final or goes on. -/
theorem exec_collRsSegment {x : Nat} {out : List Byte} {v : State} (h : CollGot 5 0 p n c s) (hop : isReduce c.op = true)
    (hfrom : i = c.back 1) (hin : o + p.data.length ≤ c.count * c.a) (hx : x = o / c.a)
    (hout : out = bytesLe c.a (((wordsLe c.a p.data).zip (wordsLe c.a (sliceB c.acc o p.data.length))).map fun e =>
      collCombine c.dtype c.ctl e.1 e.2))
    (hv : v = setColl n { c with acc := c.acc.take o ++ out ++ c.acc.drop (o + p.data.length) } u) : exec .collRsSegment s =
      .next (stripGot n ((x - chunkAt c.count c.g (c.chunkOf x)) / c.sliceLen) (p.data.length / c.a)
        (collRegrant n i p.data.length (if c.chunkOf x = c.pos then collFinal n x out v
          else collQueue n (collPieces c.succ 0 o out) v))) := by
  subst hv hout hu hi ho hx
  show execCollRsSegment s = _
  rw [execCollRsSegment, collTake_unicast h]
  exact congrArg _ (if_neg (by
    rintro (hr | hr | hr | hr)
    · exact hr hst
    · rw [hop] at hr; exact absurd hr (by decide)
    · exact hr hfrom
    · exact absurd hin (Nat.not_le.mpr hr)))

/-- R396: rows are written at DST. -/
theorem exec_collRowData (h : CollGot 5 4 p n c s) (hop : c.op = 3 ∨ c.op = 4)
    (hin : o + p.data.length ≤ writeLen c.op c.count c.g c.pos c.e c.rowBytes c.cap) :
    exec .collRowData s = .next (collSettle n (collRegrant n i p.data.length (collOut n o p.data u))) := by
  subst hu hi ho
  show execCollRowData s = _
  rw [execCollRowData, collTake_unicast h]
  exact congrArg _ (if_neg (by
    rintro (hr | hr | hr)
    · exact hr hst
    · exact hop.elim hr.1 hr.2
    · exact absurd hin (Nat.not_le.mpr hr)))

end

/-- R398: broadcast data is written at DST. -/
theorem exec_mcWriteReceived (h : CollGot 6 0 p n c s) (hop : c.op = 5) (hfrom : i = 0)
    (hin : p.addr % 2 ^ 40 + p.data.length ≤ c.count * c.e) :
    exec .mcWriteReceived s = .next (collSettle n (collRegrant n i p.data.length (collOut n (p.addr % 2 ^ 40) p.data u))) := by
  subst hu hi
  show execMcWriteReceived s = _
  rw [execMcWriteReceived, collTake_multicast h]
  exact congrArg _ (if_neg (by
    rintro (hr | hr | hr | hr)
    · exact hr hst
    · exact hr hop
    · exact hr hfrom
    · exact absurd hin (Nat.not_le.mpr hr)))

/-! ### All-to-all and readiness -/

theorem exec_collRowCount (h : CollGot 5 2 p n c s) (hop : c.op = 4) : exec .collRowCount s = .next (collSettle n (collGrantRows n
    (setColl n { c with counts := putO c.counts i (dField p.data 0 8) } u))) := by
  subst hu hi
  show execCollRowCount s = _
  rw [execCollRowCount, collTake_unicast h]
  exact congrArg _ (if_neg (not_or.mpr ⟨Classical.not_not.mpr hst, Classical.not_not.mpr hop⟩))

theorem exec_collGrant (h : CollGot 5 3 p n c s) (hop : c.op = 4) : exec .collGrant s = .next (collSettle n (collQueue n
    (collPieces i 4 (dField p.data 8 8 * c.rowBytes) (sliceB c.acc (i * c.count * c.rowBytes) (dField p.data 0 8 * c.rowBytes)))
    (setColl n { c with grants := putO c.grants i (dField p.data 0 8, dField p.data 8 8) } u))) := by
  subst hu hi
  show execCollGrant s = _
  rw [execCollGrant, collTake_unicast h]
  exact congrArg _ (if_neg (not_or.mpr ⟨Classical.not_not.mpr hst, Classical.not_not.mpr hop⟩))

section
variable (h : CollGot 5 5 p n c s)
include h

omit hst in
theorem exec_collReadyGrant_match (hh : dField p.data 8 8 = c.hash + collPrint c * 2 ^ 32) (hop : c.op ≠ 4) :
    exec .collReadyGrant s = .next (collFlush n (setColl n { c with
      credit := smMod 0 c.credit i (· + dField p.data 0 8)
      ready := (if c.ready.contains i then c.ready else c.ready ++ [i]) } u)) := by
  have hcounts : ¬(c.op = 4 ∧ c.st = .running ∧ !c.ready.contains i) := fun hr => hop hr.1
  subst hu hi
  show execCollReadyGrant s = _
  rw [execCollReadyGrant, collTake_unicast h]
  refine congrArg _ ((if_neg fun hr => hr.2 hh).trans ?_)
  rw [if_neg hcounts]

/-- R415: another HASH or fingerprint ends the collective. -/
theorem exec_collReadyGrant_mismatch (hh : dField p.data 8 8 ≠ c.hash + collPrint c * 2 ^ 32) : exec .collReadyGrant s = .next
    (collFail n 0x0305 (c.members.getD i 0 * 2 ^ 40) (logEv .collParamMismatch (some c.part) (some c.ctx) c.group
      (leBytes 8 c.seq ++ leBytes 2 (c.members.getD i 0)) u)) := by
  have hlive : collLive c = true := by simp [collLive, hst]
  subst hu hi
  show execCollReadyGrant s = _
  rw [execCollReadyGrant, collTake_unicast h]
  exact congrArg _ (if_pos ⟨hlive, hh⟩)

end
end

/-- Settles O43: each packet of a reduction, a gathering or a broadcast by its phase. -/
theorem reductionPackets : Obligations.ReductionPackets := by
  intro p n c i o s u hu hi ho hst
  refine ⟨fun x => exec_collAgSegment hu hi ho hst, exec_mcWriteReceived hu hi hst, fun x out v => exec_collRsSegment hu hi ho hst,
    fun hp hn => ?_⟩
  rw [hu] at hn ⊢
  show execCollRsSegment s = _
  rw [execCollRsSegment, collTake_stray hp hn]

/-- Settles O44: each packet of an all-to-all by its phase, and a readiness by what it names. -/
theorem allToAllPackets : Obligations.AllToAllPackets := by
  intro p n c i o s u hu hi ho hst
  exact ⟨exec_collRowCount hu hi hst, exec_collGrant hu hi hst, exec_collRowData hu hi ho hst,
    fun h => ⟨exec_collReadyGrant_match hu hi h, exec_collReadyGrant_mismatch hu hi hst h⟩⟩

end Sys2Proof.Machine
end

section
/-! PROOFS. Residue checks, REVOKE and SETTLED (R407, R411, R413). -/

namespace Sys2Proof.Machine

section
variable {g : GroupId} {seq : B64} {n : Nat} {c : Coll} {s : State} (h : collOf g seq.toNat s = some (n, c))
include h

/-! ### Residue checks -/

theorem exec_residueCheckResult_failed {lane : Fin 1024} (hop : isReduce c.op = true) (hst : c.st = .running) :
    exec (.residueCheckResult g seq lane true) s = .next (collDetect n lane s) := by
  unfold exec
  simp only [execResidueCheckResult, h]
  exact if_pos (by simp [hop, hst])

theorem exec_residueCheckResult_clean (lane : Fin 1024) : exec (.residueCheckResult g seq lane false) s = .next s := by
  unfold exec
  simp only [execResidueCheckResult, h, Bool.false_and, Bool.false_eq_true, if_false]

/-! ### The end of a settle window -/

section
variable (hopen : s.frozen = false) {t : Nat}
include hopen

theorem exec_settleWindowExpire_settled (hst : c.st = .resulted t) (hs : c.sends = []) (ht : t + c.window ≤ s.tb) :
    exec (.settleWindowExpire g seq) s = .next (delColl n (lateAdd c.ring (lateCompl c 0 2 0 0) s)) := by
  unfold exec
  simp only [execSettleWindowExpire, heldOr_open hopen, h, hst, hs, Nat.not_lt.mpr ht, List.isEmpty_nil, if_true, if_false]

theorem exec_settleWindowExpire_revoked (hst : c.st = .revoked t) (hs : c.sends = []) (ht : t + c.window ≤ s.tb) :
    exec (.settleWindowExpire g seq) s = .next (delColl n s) := by
  unfold exec
  simp only [execSettleWindowExpire, heldOr_open hopen, h, hst, hs, Nat.not_lt.mpr ht, List.isEmpty_nil, if_true, if_false]

theorem exec_settleWindowExpire_early (hst : c.st = .resulted t) (ht : s.tb < t + c.window) :
    exec (.settleWindowExpire g seq) s = .next s := by
  unfold exec
  simp only [execSettleWindowExpire, heldOr_open hopen, h, hst, ht, if_true]

end
end

/-! ### REVOKE -/

section
variable {p : Packet} {s : State}

/-- R413: member 0 multicasts the REVOKE that another member asks for. -/
theorem exec_revokeToRootReceived_root {x : CollGroup} (hp : ctrlOf 2 s = some p)
    (hg : lookO (ctrlTake p s).groups p.group = some x) (hroot : x.members.headD 0 = ownChip (ctrlTake p s)) :
    ∃ d : Coll, exec .revokeToRootReceived s = .next (revokeAll d (dField p.data 8 2) (dField p.data 10 2) (ctrlTake p s)) ∧
      d.group = p.group ∧ d.seq = dField p.data 0 8 ∧ d.members = x.members := by
  unfold exec
  simp only [execRevokeToRootReceived, hp, hg, hroot, if_true]
  exact ⟨_, rfl, rfl, rfl, rfl⟩

theorem exec_revokeToRootReceived_stray (hp : ctrlOf 2 s = some p) (hg : lookO (ctrlTake p s).groups p.group = none) :
    exec .revokeToRootReceived s = .next (bump Reg.COL_STRAY_PACKETS 1 (ctrlTake p s)) := by
  unfold exec
  simp only [execRevokeToRootReceived, hp, hg, collStray]

variable {u : State} (hp : ctrlOf 1 s = some p) (hu : u = bump Reg.COL_REVOKES_RECEIVED 1 (ctrlTake p s))
include hp hu

theorem exec_revokeReceived_learns {n : Nat} {c : Coll} (hc : collOf p.group (dField p.data 0 8) u = some (n, c)) (hst : c.st ≠ .settled) :
    exec .revokeReceived s = .next (collLearn n (dField p.data 8 2) u) := by
  unfold exec
  simp only [execRevokeReceived, hp, ← hu, hc, hst, if_false]

theorem exec_revokeReceived_late (hc : collOf p.group (dField p.data 0 8) u = none) (hg : lookO u.groups p.group = none) :
    exec .revokeReceived s = .next
      (bump Reg.COL_LATE_REVOKES 1 (logEv .collLateRevoke none none p.group (leBytes 8 (dField p.data 0 8)) u)) := by
  unfold exec
  simp only [execRevokeReceived, hp, ← hu, hc, hg]

end

/-- Settles O45: a check by its result, a window by the collective's end, and a REVOKE by who receives it. -/
theorem collectiveRevocation : Obligations.CollectiveRevocation := by
  intro g seq lane n c p s
  exact ⟨fun h => ⟨exec_residueCheckResult_failed h, exec_residueCheckResult_clean h lane,
      fun t hopen => exec_settleWindowExpire_settled h hopen, fun t hopen => exec_settleWindowExpire_revoked h hopen,
      fun t hopen => exec_settleWindowExpire_early h hopen⟩,
    fun x hp => ⟨exec_revokeToRootReceived_root hp, exec_revokeToRootReceived_stray hp⟩,
    fun u hp hu => ⟨exec_revokeReceived_learns hp hu, exec_revokeReceived_late hp hu⟩⟩

end Sys2Proof.Machine
end

section
/-! PROOFS. Clocks and heat (R430, R436, R438 to R440, R445, R446, R448): frequency moves, droop, ageing, the thermal loop and trips. -/

namespace Sys2Proof.Machine

/-! ### Frequency moves (R430, R438) -/

/-- A change of a die's clock depends on what it makes of that clock only. -/
theorem modClk_congr {d : Nat} {f g : Clk → Clk} {s : State} (h : f (clkOf d s) = g (clkOf d s)) : modClk d f s = modClk d g s := by
  unfold clkOf at h
  unfold modClk
  split
  · next hd => rw [if_pos hd] at h; rw [h]
  · next hd => rw [if_neg hd] at h; rw [h]

section
variable {d : Nat} {s : State}

theorem freqStep_up (h : (clkOf d s).f < clkTarget d s) : freqStep d s =
    timerSet .freq d (modClk d (fun c => { c with f := c.f + 25, moving := decide (c.f + 25 < clkTarget d s) }) s) := by
  unfold freqStep
  exact congrArg (timerSet .freq d) (modClk_congr (if_pos h))

theorem freqStep_down (h : clkTarget d s ≤ (clkOf d s).f) {g : Nat} (hg : g = max (clkTarget d s) ((clkOf d s).f - 25)) : freqStep d s =
    timerSet .freq d (modClk d (fun c => { c with f := g, vmax := g, moving := decide (clkTarget d s < c.f - 25) }) s) := by
  subst hg
  unfold freqStep
  exact congrArg (timerSet .freq d) (modClk_congr (if_neg (Nat.not_lt.mpr h)))

end

section
variable {d : DieId} {s : State} (hon : railsOn s = true) (hm : (clkOf d s).moving = true)
include hon hm

theorem exec_voltageSettled : exec (.voltageSettled d) s =
    .next (modClk d (fun c => { c with vmax := max c.vmax (clkTarget d s) }) s) := congrArg _ (if_pos (by rw [hon, hm]; rfl))

variable (hw : (clkOf d s).waiting = false) (ht : timerDue .freq d 1000 s = true)
include hw ht

/-- A clock that moves, with its time come, steps unless the voltage is short of what a step upward needs. -/
theorem mayStep_eq : mayStep d s = decide (clkTarget d s ≤ (clkOf d s).f ∨ (clkOf d s).f + 25 ≤ (clkOf d s).vmax) := by
  simp only [mayStep, hon, hm, hw, ht, Bool.and_true, Bool.true_and, Bool.not_false, ← Bool.decide_or]

theorem exec_freqStep (hv : clkTarget d s ≤ (clkOf d s).f ∨ (clkOf d s).f + 25 ≤ (clkOf d s).vmax) :
    exec (.freqStep d) s = .next (freqStep d s) :=
  congrArg _ (if_pos ((mayStep_eq hon hm hw ht).trans (decide_eq_true hv)))

theorem exec_freqStep_voltage (hup : (clkOf d s).f < clkTarget d s) (hv : (clkOf d s).vmax < (clkOf d s).f + 25) :
    exec (.freqStep d) s = .next s :=
  congrArg _ (if_neg (by rw [mayStep_eq hon hm hw ht]; simp only [decide_eq_true_eq]; omega))

end

theorem exec_droopStretch {d : DieId} {s : State} (hon : railsOn s = true) :
    exec (.droopStretch d) s = .next (modClk d (fun c => { c with stretchAt := some s.tb }) s) := congrArg _ (if_pos hon)

theorem exec_droopWaitExpire {d : DieId} {s : State} (h : droopOver d s = true) :
    exec (.droopWaitExpire d) s = .next (modClk d (fun c => { c with waiting := false }) s) := congrArg _ (if_pos h)

/-! ### The thermal loop, ageing and trips (R436, R440, R446, R448) -/

section
variable {d : DieId} {s : State} (hon : railsOn s = true)
include hon

theorem exec_thermalLoopStepDown (hh : dieHot d s = true) (ht : timerDue .loopDown d 100000 s = true) :
    exec (.thermalLoopStepDown d) s = .next (loopDown d (timerSet .loopDown d s)) :=
  congrArg _ ((if_pos (by rw [hon, hh]; rfl)).trans (every_due ht _))

theorem exec_thermalLoopStepUp (hh : loopMayRise d s = true) (ht : timerDue .loopUp d 1000000 s = true) :
    exec (.thermalLoopStepUp d) s = .next (loopUp d (timerSet .loopUp d s)) :=
  congrArg _ ((if_pos (by rw [hon, hh]; rfl)).trans (every_due ht _))

theorem exec_ageingCalibration (hup : s.mgmt.up = true) (ht : timerDue .ageing 0 82800000000000 s = true) :
    exec .ageingCalibration s = .next (ageRun s) :=
  congrArg _ ((if_neg (by simp [hon, ht])).trans (if_pos hup))

end

theorem exec_thermalLoopStepDown_cool {d : DieId} {s : State} (hh : dieHot d s = false) : exec (.thermalLoopStepDown d) s = .next s :=
  congrArg _ (if_neg (by simp [hh]))

theorem exec_thermalModelTick {s : State} (hp : s.powered = true) (ht : timerDue .thermal 0 1000000 s = true) {r m : List (BitVec 12)} :
    exec (.thermalModelTick r m) s = .next (modelTick r m (timerSet .thermal 0 s)) :=
  congrArg _ ((if_pos hp).trans (every_due ht _))

section
variable {n : SensorId} {s : State} (hf : s.frozen = false)
include hf

theorem exec_thermalTrip_cool (h : effTemp n s < 840) : exec (.thermalTrip n) s = .next s := by
  unfold exec
  simp only [execThermalTrip, heldOr_open hf, h, true_or, or_true, if_true]

theorem exec_thermalTrip (hp : s.powered = true) (hn : n.val < 40) (h : 840 ≤ effTemp n s) (ht : getB Reg.THM_STAT_TRIPPED s = false) {u : State}
    (hu : u = railsOff 5 (logEv .thermalTrip none none n [] (setB Reg.THM_STAT_TRIPPED true (modP (fun x => { x with tripHold := true }) s)))) :
    exec (.thermalTrip n) s = .next (if n.val < 32 then u else hubOff u) := by
  unfold exec
  simp only [execThermalTrip, heldOr_open hf, hp, ht, Bool.not_true, Bool.false_and, Bool.false_eq_true, Nat.not_le.mpr hn, Nat.not_lt.mpr h,
    or_self, if_false, ← hu, ← Nat.not_lt, ite_not]

end

section
variable {s : State}

/-- What stamps the cross-check's time keeps. -/
theorem crossNote_id : crossNote (fun s => s) s = s ∨ crossNote (fun s => s) s = timerSet .crossCheck 0 s ∨
    crossNote (fun s => s) s = timerSet .crossCheck 0 (timerSet .crossCheck 0 s) := by
  unfold crossNote
  grind

theorem sensorPresent_crossNote (n : Nat) : sensorPresent n (crossNote (fun s => s) s) = sensorPresent n s := by
  obtain h | h | h := crossNote_id (s := s) <;> rw [h] <;> rfl

/-- A tick of the thermal model with no new reading and no new prediction judges the stored ones. -/
theorem modelTick_nil {ns : List Nat} {u : State} (hns : ns = (List.range 58).filter (fun n => sensorPresent n s))
    (hu : u = ns.foldl sensorCount (crossNote (fun s => s) s)) :
    modelTick [] [] s = loopNote 1 (loopNote 0 (divergence ns ((ns.filter fun n => sensorBad n u).foldl (fun s n => sensorFail n s) u))) := by
  simp only [modelTick, List.length_nil, Nat.min_zero, List.range_zero, List.foldl_nil, sensorPresent_crossNote, ← hns, ← hu]

end

/-- Settles O48: a clock's step goes by what it makes of that clock, a trip by the rails that its die leaves, and every other command by its condition. -/
theorem clocksAndHeat : Obligations.ClocksAndHeat := by
  unfold Obligations.ClocksAndHeat
  rintro d n s c rfl hp
  refine ⟨fun r m ht => exec_thermalModelTick hp ht, fun hn h hf ht u hu => exec_thermalTrip hf hp hn h ht hu, exec_droopWaitExpire,
    fun hon => ⟨exec_droopStretch hon, exec_ageingCalibration hon, exec_thermalLoopStepDown hon, exec_thermalLoopStepUp hon,
      exec_voltageSettled hon, fun hm hw ht => ⟨?up, ?down, ?voltage⟩, exec_thermalLoopStepDown_cool⟩,
    fun h hf => exec_thermalTrip_cool hf h, fun ns u hns hu => modelTick_nil hns hu⟩
  case up => exact fun hlt hv => (exec_freqStep hon hm hw ht (.inr hv)).trans (congrArg _ (freqStep_up hlt))
  case down => exact fun hle g hg => (exec_freqStep hon hm hw ht (.inl hle)).trans (congrArg _ (freqStep_down hle hg))
  case voltage => exact exec_freqStep_voltage hon hm hw ht

end Sys2Proof.Machine
end

section
/-! PROOFS. Coolant and leaks (R450 to R454). -/

namespace Sys2Proof.Machine

/-! ### COOLANT_OK (R450, R454) -/

section
variable {s u : State}

section
variable {b : Bool} (hu : u = showCoolant (modPins (fun p => { p with coolantOk := b }) s))
include hu

theorem exec_coolantOkAssert (hb : b = true) (hl : u.pwr.lost = true) : exec .coolantOkAssert s =
    .next (setLimits (logEv .coolantLost none none 0 [] { u with pwr := { u.pwr with lost := false, graceEnd := none } })) := by
  subst hb
  unfold exec
  simp only [execCoolantOkAssert, ← hu, hl, if_true, modP]

theorem exec_coolantOkDeassert (hb : b = false) (hon : railsOn u = true) (hl : u.pwr.lost = false) : exec .coolantOkDeassert s =
    .next (setLimits (logEv .coolantLost none none 0 [] (bump Reg.CLN_EVENTS_COOLANT_LOSSES 1
      { u with pwr := { u.pwr with lost := true, graceEnd := some (u.tb + getF Reg.CLN_CFG_GRACE_S u * 1000000000) } }))) := by
  subst hb
  unfold exec
  simp only [execCoolantOkDeassert, ← hu, hon, hl, Bool.not_false, and_self, if_true, modP]

end

section
variable (hf : s.frozen = false)
include hf

theorem exec_coolantGraceExpire (hd : delayOver s.pwr.graceEnd s = true) (hc : s.pins.coolantOk = false) :
    exec .coolantGraceExpire s = .next (railsOff 3 s) := by
  unfold exec
  simp only [execCoolantGraceExpire, heldOr_open hf, hd, hc, Bool.not_false, and_self, if_true]

theorem exec_coolantGraceExpire_none (hd : s.pwr.graceEnd = none) : exec .coolantGraceExpire s = .next s := by
  unfold exec
  simp only [execCoolantGraceExpire, heldOr_open hf, hd, delayOver, Bool.false_eq_true, false_and, if_false]

theorem exec_leakOffExpire (hd : delayOver s.pwr.leakEnd s = true) (hu : u = { s with pwr := { s.pwr with leakEnd := none, leakOff := true } }) :
    exec .leakOffExpire s = .next (if railsOn u then railsOff 4 u else setF Reg.PWR_RAILS_LAST_OFF_CAUSE 4 u) := by
  have hmod : modP (fun x => { x with leakEnd := none, leakOff := true }) s = u := hu.symm
  unfold exec
  simp only [execLeakOffExpire, heldOr_open hf, hd, if_true, hmod]

end

/-! ### The leak loop (R452) -/

section
variable {ohms : Nat} {k : State} (hk : k = showLoop (modPins (fun p => { p with ohms := ohms }) s)) (hp : s.powered = true)
include hk hp

/-- What a change of the loop's resistance does, by the loop's old and new state. -/
theorem exec_leakLoopStateChange : exec (.leakLoopStateChange ohms) s = .next (
    let now := loopState ohms
    if now = getF Reg.CLN_STAT_LEAK_STATE s then k
    else if now = 1 then
      let v := logEv .coolantLeak none none 0 [] (bump Reg.CLN_EVENTS_LEAKS 1 k)
      setLimits (if v.pwr.leak then v else leakBegin v)
    else if now = 0 then
      if k.pwr.leak then
        setLimits (logEv .coolantLeak none none 0 [] (modP (fun x => { x with leak := false, leakEnd := none }) k))
      else k
    else logEv .leakSenseFault none none 0 [] (bump Reg.CLN_EVENTS_LOOP_FAULTS 1 k)) := by
  subst hk
  exact congrArg _ (if_neg (by simp [modPins, hp]))

theorem exec_leakLoopStateChange_same (h : loopState ohms = getF Reg.CLN_STAT_LEAK_STATE s) : exec (.leakLoopStateChange ohms) s = .next k :=
  (exec_leakLoopStateChange hk hp).trans (congrArg _ (if_pos h))

theorem exec_leakLoopStateChange_leak (h : loopState ohms = 1) (ho : getF Reg.CLN_STAT_LEAK_STATE s ≠ 1)
    {v : State} (hv : v = logEv .coolantLeak none none 0 [] (bump Reg.CLN_EVENTS_LEAKS 1 k)) :
    exec (.leakLoopStateChange ohms) s = .next (setLimits (if v.pwr.leak then v else leakBegin v)) := by
  simp only [exec_leakLoopStateChange hk hp, h, ho.symm, if_true, if_false, ← hv]

theorem exec_leakLoopStateChange_fault (h : 2 ≤ loopState ohms) (ho : getF Reg.CLN_STAT_LEAK_STATE s ≠ loopState ohms) :
    exec (.leakLoopStateChange ohms) s = .next (logEv .leakSenseFault none none 0 [] (bump Reg.CLN_EVENTS_LOOP_FAULTS 1 k)) := by
  have h0 : loopState ohms ≠ 0 := by omega
  have h1 : loopState ohms ≠ 1 := by omega
  simp only [exec_leakLoopStateChange hk hp, h0, h1, ho.symm, if_false]

end

/-! ### The coolant's temperatures (R450, R451, R453) -/

/-- A condition that is not shown is set and logged. -/
theorem coolantCond_set {f : Fld} {e : Ev} (h : getB f u = false) : coolantCond f e true u = logEv e none none 0 [] (setB f true u) :=
  if_neg (by simp [h])

/-- A condition that is as it was changes nothing. -/
theorem coolantCond_same {f : Fld} {e : Ev} {b : Bool} (h : getB f u = b) : coolantCond f e b u = u := if_pos h

theorem riseSample_excess {r : B16} (hr : 200 < r.toInt) (hu : u = { setF Reg.CLN_STAT_EXCESS_RATE r.toNat s with pwr := { s.pwr with riseLow := 0 } })
    (h : getB Reg.CLN_STAT_EXCESS_RISE u = false) : riseSample r s =
      setLimits (bump Reg.CLN_EVENTS_RISES 1 (logEv .coolantRise none none 0 [] (setB Reg.CLN_STAT_EXCESS_RISE true u))) := by
  have hwas : getB Reg.CLN_STAT_EXCESS_RISE (setF Reg.CLN_STAT_EXCESS_RATE r.toNat s) = false := by rw [← h, hu]; rfl
  have hn : (if r.toInt < 50 then min 500 (s.pwr.riseLow + 1) else 0) = 0 := if_neg (by omega)
  rw [← coolantCond_set h]
  subst hu
  simp only [riseSample, setF_pwr, hn, hwas, hr, Bool.not_false, and_self, if_true]
  rfl

section
variable (hp : s.powered = true)
include hp

theorem exec_excessRiseSample {r : B16} (ht : timerDue .rise 0 10000000 s = true) :
    exec (.excessRiseSample r) s = .next (riseSample r (timerSet .rise 0 s)) :=
  congrArg _ ((if_pos hp).trans (every_due ht _))

theorem exec_coolantSensorCrosscheck (hc : s.pwr.cSensor = false) (ho : crossOff s = true) (ht : timerDue .crossCheck 0 10000000000 s = true) :
    exec .coolantSensorCrosscheck s = .next (setLimits (logEv .coolantSensorFault none none 0 []
      (sensorFail 59 (sensorFail 58 { s with pwr := { s.pwr with cSensor := true } })))) :=
  congrArg _ (if_pos ⟨hp, by rw [hc]; rfl, ho, ht⟩)

theorem exec_inletTempChange {t : BitVec 12} (hu : u = crossNote (setF (thmF 58 Reg.THM_SENSOR_READING) t.toNat) s) (hlo : 120 ≤ t.toNat)
    (hhi : t.toNat ≤ 312) (hh : getB Reg.CLN_STAT_INLET_HIGH u = false) (hs : getB Reg.CLN_STAT_INLET_SEVERE u = false) :
    exec (.inletTempChange t) s = .next (setLimits (setB Reg.CLN_STAT_INLET_LOW false u)) := by
  have h320 : ¬ 320 < t.toNat := by omega
  have h360 : ¬ 360 < t.toNat := by omega
  have h120 : ¬ t.toNat < 120 := by omega
  unfold exec
  simp only [execInletTempChange, hp, ← hu, hh, hs, Bool.not_true, Bool.false_eq_true, if_false, h320, h360, h120, decide_false,
    coolantCond_same hh, coolantCond_same hs, inletLow]

end

end

/-- Settles O50: each event of the coolant by the condition that it finds, with the loop's events by its old and new state. -/
theorem coolantAndLeaks : Obligations.CoolantAndLeaks := by
  unfold Obligations.CoolantAndLeaks
  intro s ohms k hk
  exact ⟨
    fun hp => ⟨fun r ht => exec_excessRiseSample hp ht, exec_coolantSensorCrosscheck hp, exec_leakLoopStateChange_same hk hp,
      fun t u hu hlo hhi => exec_inletTempChange hp hu hlo hhi⟩,
    fun hf => exec_coolantGraceExpire hf, fun u hf hd hu => exec_leakOffExpire hf hd hu,
    fun b u hu => ⟨exec_coolantOkAssert hu, exec_coolantOkDeassert hu⟩,
    fun hp => ⟨fun h ho v hv => exec_leakLoopStateChange_leak hk hp h ho hv, exec_leakLoopStateChange_fault hk hp⟩,
    fun r u hr hu _ h => riseSample_excess hr hu h, exec_coolantGraceExpire_none⟩

end Sys2Proof.Machine
end

section
/-! PROOFS. Power, bring-up and module resets (R454, R462, R476, R493, R494, R497, R553, R563, R567, R568). -/

namespace Sys2Proof.Machine

section
variable {s : State}

/-! ### Power (R493, R567, R568) -/

theorem exec_powerOn (h : s.powered = false) {u : State} (hu : u = { s with powered := true, bootAt := s.tb }) : exec .powerOn s =
    .next (bootStart false (stepDone 1 (showAlways (stepBegin 1 (setF Reg.PWR_AGEING_TRIM_D0 s.kept.trim0
      (setF Reg.PWR_AGEING_TRIM_D1 s.kept.trim1 (setF Reg.PWR_AGEING_FMAX_D0 s.kept.fmax0
        (setF Reg.PWR_AGEING_FMAX_D1 s.kept.fmax1 u)))))))) := by
  subst hu
  unfold exec
  simp only [execPowerOn, h, Bool.false_eq_true, if_false]

theorem exec_powerOn_already (h : s.powered = true) : exec .powerOn s = .next s := congrArg _ (if_pos h)

theorem exec_prechargeSettled (h : s.powered = true) :
    exec .prechargeSettled s = .next (railsResume { s with pins := { s.pins with hotswap := true } }) := congrArg _ (if_pos h)

theorem exec_powerLoss : ∃ u, exec .powerLoss s = .next u ∧ u.powered = false ∧ u.hbm = [] ∧ u.tiles = [] ∧ u.regs = [] ∧ u.log = [] ∧
    u.rings = [] ∧ u.flash = s.flash ∧ u.fuse = s.fuse ∧ u.kept = s.kept ∧ u.pins.hotswap = false ∧ u.pending = s.pending :=
  ⟨_, rfl, rfl, rfl, rfl, rfl, rfl, rfl, rfl, rfl, rfl, rfl, rfl⟩

/-! ### The rails come back (R454, R494, R497) -/

theorem railsResume_elsewhere (h : getF Reg.BOOT_STAT_STATE s ≠ 1) : railsResume s = s := if_pos (.inl h)

section
variable (hf : s.frozen = false)
include hf

theorem exec_railsWaitEnd : exec .railsWaitEnd s = .next (railsResume s) := congrArg _ (heldOr_open hf _ _)

theorem exec_railsOn (h : 5 ≤ getF Reg.BOOT_STAT_STEP s) : exec .railsOn s = .next (railsResume s) :=
  congrArg _ ((heldOr_open hf _ _).trans (if_pos h))

/-! ### Resets of the module (R462, R476, R553, R563) -/

theorem exec_resetNRelease (hr : s.pins.resetN = true) (hp : s.powered = true) (hb : getF Reg.BOOT_STAT_STATE s ≠ 1) :
    exec .resetNRelease s = .next (bootStart false { s with pins := { s.pins with resetN := false } }) :=
  congrArg _ ((heldOr_open hf _ _).trans ((if_pos hr).trans ((if_neg (by simp [modPins, hp])).trans (if_neg hb))))

section
variable (hp : s.powered = true)
include hp

theorem exec_resetNAssert : exec .resetNAssert s = .next (moduleReset false 1 { s with pins := { s.pins with resetN := true } }) := by
  unfold exec
  simp only [execResetNAssert, heldOr_open hf, modPins, hp, if_true]

variable (hh : s.pwr.hubDown = false)
include hh

/-- A write of SYS_RESET that asks for a module reset: it is one unless RACK_OFF is set. -/
theorem exec_sysResetModule : exec .sysResetModule s = .next (if getB Reg.PWR_RAILS_RACK_OFF s then s else moduleReset false 2 s) := by
  unfold exec
  cases hr : getB Reg.PWR_RAILS_RACK_OFF s <;> simp [execSysResetModule, heldOr_open hf, hp, hh, hr]

theorem exec_sysResetWarm : exec .sysResetWarm s = .next (if getB Reg.PWR_RAILS_RACK_OFF s then s else moduleReset true 3 s) := by
  unfold exec
  cases hr : getB Reg.PWR_RAILS_RACK_OFF s <;> simp [execSysResetWarm, heldOr_open hf, hp, hh, hr]

theorem exec_sysResetPowerCycle : exec .sysResetPowerCycle s = .next (if s.pwr.cycle then s else cycleRequest s) := by
  unfold exec
  cases hc : s.pwr.cycle <;> simp [execSysResetPowerCycle, heldOr_open hf, hp, hh, hc]

end

end

theorem exec_powerCycleReportTimer {r : LogRec} (hr : cycleRecord s = some r) (hc : s.pwr.cycle = true) (hup : s.mgmt.up = true)
    (ht : timerDue .cycleReport 0 30000000000 s = true) :
    exec .powerCycleReportTimer s = .next (outboxPush (.record r) (timerSet .cycleReport 0 s)) := by
  unfold exec
  simp only [execPowerCycleReportTimer, hr, hc, hup, Bool.and_self, if_true, every_due ht]

end

/-- Settles O51: each event of the module's power and resets by the pins and registers that it finds. -/
theorem moduleResets : Obligations.ModuleResets := by
  unfold Obligations.ModuleResets
  intro s
  refine ⟨fun u h hu => exec_powerOn h hu, exec_prechargeSettled, fun r hr => exec_powerCycleReportTimer hr,
    fun hf => ⟨exec_railsWaitEnd hf, exec_railsOn hf, exec_resetNAssert hf, exec_resetNRelease hf,
      fun hp hh => ⟨fun hr => ⟨?module, ?warm⟩, fun hc => ?cycle⟩⟩,
    exec_powerLoss,
    fun hf => ⟨fun hb => (exec_railsWaitEnd hf).trans (congrArg _ (railsResume_elsewhere hb)),
      fun hp hh => ⟨fun hr => ⟨(exec_sysResetModule hf hp hh).trans (congrArg _ (if_pos hr)),
        (exec_sysResetWarm hf hp hh).trans (congrArg _ (if_pos hr))⟩,
        fun hc => (exec_sysResetPowerCycle hf hp hh).trans (congrArg _ (if_pos hc))⟩⟩,
    exec_powerOn_already⟩
  case module => exact (exec_sysResetModule hf hp hh).trans (congrArg _ (if_neg (by simp [hr])))
  case warm => exact (exec_sysResetWarm hf hp hh).trans (congrArg _ (if_neg (by simp [hr])))
  case cycle => exact (exec_sysResetPowerCycle hf hp hh).trans (congrArg _ (if_neg (by simp [hc])))

end Sys2Proof.Machine
end

section
/-! PROOFS. Resets of contexts and partitions, and the ladder's timeouts (R469 to R476, R553). -/

namespace Sys2Proof.Machine

section
variable {s : State}

/-! ### Requests (R469, R473, R553) -/

theorem ctxReset_off {c : Nat} (hoff : railsOn s = false) : ctxReset c s = s := if_pos (by simp [hoff])

theorem partReset_off {p : Nat} (hoff : railsOn s = false) : partReset p s = s := if_pos (by simp [hoff])

section
variable {c : Nat} (hon : railsOn s = true)
include hon

theorem ctxReset_free (h : (getC c s).st = .free) : ctxReset c s = bump Reg.RST_REJECTS 1 s := by
  simp [ctxReset, hon, h]

theorem ctxReset_resetting (h : (getC c s).st = .resetting) : ctxReset c s = s := by
  simp [ctxReset, hon, h]

/-- The work of an active or faulted context is removed, and a run waits for the engines that hold it. -/
theorem ctxReset_begin (h : (getC c s).st = .active ∨ (getC c s).st = .faulted) :
    ctxReset c s = jobStart ⟨1, (getC c s).part, [c], enginesWith [c] s, false, false⟩ (removeWork [c] (ctxResetting s c)) := by
  obtain h | h := h <;> simp [ctxReset, hon, h]

end

section
variable (hf : s.frozen = false) {c : CtxId}
include hf

theorem exec_ctxResetRequest : exec (.ctxResetRequest c) s = .next (ctxReset c s) := congrArg _ (heldOr_open hf _ _)

theorem exec_partitionResetRequest {p : PartId} : exec (.partitionResetRequest p) s = .next (partReset p s) := congrArg _ (heldOr_open hf _ _)

theorem exec_autoResetTimer (h : (getC c s).st = .faulted) (ha : (getC c s).autoMs ≠ 0)
    (ht : timerDue .autoReset c ((getC c s).autoMs * 1000000) s = true) : exec (.autoResetTimer c) s = .next (ctxReset c s) :=
  congrArg _ ((heldOr_open hf _ _).trans (if_pos ⟨h, ha, ht⟩))

theorem exec_autoResetTimer_never (ha : (getC c s).autoMs = 0) : exec (.autoResetTimer c) s = .next s :=
  congrArg _ ((heldOr_open hf _ _).trans (if_neg fun ⟨_, h, _⟩ => h ha))

/-! ### Reports and timeouts (R470, R474, R476) -/

theorem exec_engineWorkRemoved {e : Engine} {n : Nat} {j : RJob} (hj : jobOf c s = some (n, j)) (hw : j.wait.contains e = true)
    (hm : mayReport e s = true) : exec (.engineWorkRemoved c e) s =
      .next (jobTry n (reportWork j e (setJob n { j with wait := j.wait.filter (· ≠ e) } s))) := by
  unfold exec
  simp only [execEngineWorkRemoved, heldOr_open hf, hj, hw, hm, Bool.and_self, if_true]

theorem exec_engineWorkRemoved_none {e : Engine} (hj : jobOf c s = none) : exec (.engineWorkRemoved c e) s = .next s := by
  unfold exec
  simp only [execEngineWorkRemoved, heldOr_open hf, hj]

/-- A step of a run that has exceeded its timeout is counted; with AUTO_ESCALATE the ladder goes on, and else the run stops. -/
theorem exec_ladderStepTimeout {n : Nat} {j : RJob} (hj : lookO s.jobs n = some j) (hs : j.stopped = false) (hon : railsOn s = true)
    (ht : timerDue .ladder n (stepLimit j.step) s = true) : exec (.ladderStepTimeout (some n)) s =
      .next (stepTimeout j.step (some j.part) (ladderNext n j) (setJob n { j with stopped := true }) s) := by
  unfold exec
  simp [execLadderStepTimeout, heldOr_open hf, hj, hs, hon, ht]

theorem exec_ladderStepTimeout_reset (h4 : s.step4 = true) (hb : getF Reg.BOOT_STAT_STATE s = 0 ∨ 4 ≤ getF Reg.BOOT_STAT_STATE s)
    (hp : s.powered = true) (ht : timerDue .step4 0 10000000000 s = true) :
    exec (.ladderStepTimeout none) s = .next (stepTimeout 4 none cycleRequest id { s with step4 := false }) :=
  congrArg _ ((heldOr_open hf _ _).trans (if_pos ⟨h4, by omega, by omega, by omega, hp, ht⟩))

end

section
variable {step : Nat} {part : Option Nat} {go stop : State → State} {u : State} (hu : u = bump Reg.RST_STEP_TIMEOUTS 1 s)
include hu

theorem stepTimeout_escalate (h : getB Reg.RST_CFG_AUTO_ESCALATE u = true) : stepTimeout step part go stop s = go u := by
  simp only [stepTimeout, ← hu, h, if_true]

theorem stepTimeout_stop (h : getB Reg.RST_CFG_AUTO_ESCALATE u = false) :
    stepTimeout step part go stop s = stop (logEv .resetStepTimeout part none 0 (arg16 [step]) u) := by
  simp only [stepTimeout, ← hu, h, Bool.false_eq_true, if_false]

end

end

/-- Settles O52: a request by the context's state, a report by the run that waits for it, and a timeout by AUTO_ESCALATE. -/
theorem contextResets : Obligations.ContextResets := by
  unfold Obligations.ContextResets
  rintro c p e s x rfl hf
  refine ⟨fun hon => ⟨?active, exec_partitionResetRequest hf, ?free, ?resetting⟩, fun n j => exec_engineWorkRemoved hf, ?step, ?step4,
    exec_autoResetTimer_never hf, fun hoff => ⟨?off, ?offPart⟩, exec_engineWorkRemoved_none hf⟩
  case active =>
    rintro hst u rfl
    exact ⟨(exec_ctxResetRequest hf).trans (congrArg _ (ctxReset_begin hon hst)),
      fun hft ha ht => (exec_autoResetTimer hf hft ha ht).trans (congrArg _ (ctxReset_begin hon hst))⟩
  case free => exact fun h => (exec_ctxResetRequest hf).trans (congrArg _ (ctxReset_free hon h))
  case resetting => exact fun h => (exec_ctxResetRequest hf).trans (congrArg _ (ctxReset_resetting hon h))
  case step => exact fun n j u hj hs hon ht hu =>
    ⟨fun ha => (exec_ladderStepTimeout hf hj hs hon ht).trans (congrArg _ (stepTimeout_escalate hu ha)),
      fun ha => (exec_ladderStepTimeout hf hj hs hon ht).trans (congrArg _ (stepTimeout_stop hu ha))⟩
  case step4 => exact fun u h4 hb hp ht hu ha =>
    (exec_ladderStepTimeout_reset hf h4 hb hp ht).trans (congrArg _ (stepTimeout_escalate hu ha))
  case off => exact (exec_ctxResetRequest hf).trans (congrArg _ (ctxReset_off hoff))
  case offPart => exact (exec_partitionResetRequest hf).trans (congrArg _ (partReset_off hoff))

end Sys2Proof.Machine
end

section
/-! PROOFS. The log's window, the defect record, snapshots and configuration memory (R279, R280, R282, R482, R503, R513, R558). -/

namespace Sys2Proof.Machine

/-! ### The log's window and the defect record (R482, R513) -/

section
variable {s : State}

section
variable {v : B64}

theorem exec_logSelWrite_none (h : lookO s.log v.toNat = none) : exec (.logSelWrite v) s =
    .next (setF Reg.LOG_STAT_SEL_VALID 0 { setF Reg.LOG_SEL v.toNat s with logSel := [] }) := by
  unfold exec
  simp only [execLogSelWrite, setF_log, h]

variable {r : LogRec} {u : State} (hu : u = setF Reg.LOG_SEL v.toNat s) (h : lookO s.log v.toNat = some r)
include hu h

theorem exec_logSelWrite_kept (hv : getF Reg.LOG_HEAD u ≤ v.toNat) : exec (.logSelWrite v) s =
    .next (setF Reg.LOG_STAT_SEL_VALID 1 { u with logSel := recBytes r }) := by
  subst hu
  unfold exec
  simp only [execLogSelWrite, setF_log, h, hv, if_true]

theorem exec_logSelWrite_overwritten (hv : v.toNat < getF Reg.LOG_HEAD u) : exec (.logSelWrite v) s =
    .next (setF Reg.LOG_STAT_SEL_VALID 0 { u with logSel := [] }) := by
  subst hu
  unfold exec
  simp only [execLogSelWrite, setF_log, h, Nat.not_le.mpr hv, if_false]

end

theorem defectCtl_tile {t : Nat} {l : List (Nat × Nat)} (h : t ≤ 271) : defectCtl t l s =
    setF Reg.FP_DEFECT_STAT_LAST_REJECTED 0 (setF Reg.FP_DEFECT_STAT_PENDING 1 (defectSet l s)) := if_neg (Nat.not_lt.mpr h)

theorem defectCtl_rejected {t : Nat} {l : List (Nat × Nat)} (h : 271 < t) : defectCtl t l s = setF Reg.FP_DEFECT_STAT_LAST_REJECTED 1 s :=
  if_pos h

theorem exec_fpDefectAdd {t : Fin 512} : exec (.fpDefectAdd t) s = .next (defectCtl t (defectAdd t 3 s.defects) s) := rfl

theorem exec_fpDefectRemove {t : Fin 512} :
    exec (.fpDefectRemove t) s = .next (defectCtl t (s.defects.filter fun e => e.1 ≠ t.val) s) := rfl

/-! ### Snapshots (R279, R280, R282) -/

/-- The snapshot at the front of the queue freezes what it records, and raises the epoch. -/
theorem snapServe_begins {q : SnapReq} {l : List SnapReq} (h : s.snapQ = q :: l) :
    (snapServe s).frozen = true ∧ (snapServe s).snapQ = q :: l ∧ (snapServe s).hbm = s.hbm ∧ (snapServe s).tiles = s.tiles ∧
      getF Reg.SYS_SNAP_EPOCH (snapServe s) = (getF Reg.SYS_SNAP_EPOCH s + 1) % 2 ^ Reg.SYS_SNAP_EPOCH.w := by
  have hepoch (n m : Nat) : getF Reg.SYS_SNAP_EPOCH (setF Reg.PWR_THROTTLE_REASONS n (setF Reg.SYS_SNAP_EPOCH m (setF Reg.SYS_SNAP_CTL_BUSY 1 s))) =
      m % 2 ^ Reg.SYS_SNAP_EPOCH.w := by
    rw [getF_setF_ne _ _ _ _ (by decide), getF_setF_self]
  unfold snapServe
  rw [h]
  exact ⟨rfl, h, rfl, rfl, hepoch _ _⟩

/-- A request that finds no other one before it is served at once. -/
theorem snapAsk_idle {q : SnapReq} (h : s.snapQ = []) : snapAsk q s = snapServe { s with snapQ := [q] } := by
  simp only [snapAsk, h, List.isEmpty_nil, if_true, List.nil_append]

section
variable (hp : s.powered = true) (hh : s.pwr.hubDown = false)
include hp hh

theorem exec_sysSnapGo : exec .sysSnapGo s = .next (snapGo s) := congrArg _ (if_pos (by rw [hp, hh]; rfl))

theorem exec_sysSnapGo_bad (hb : snapDestBad (getF Reg.SYS_SNAP_DEST s) s = true) :
    exec .sysSnapGo s = .next (setF Reg.SYS_SNAP_CTL_FAILED 1 s) := (exec_sysSnapGo hp hh).trans (congrArg _ (if_pos hb))

theorem exec_sysSnapGo_begins (hb : snapDestBad (getF Reg.SYS_SNAP_DEST s) s = false) (hq : s.snapQ = []) :
    ∃ u, exec .sysSnapGo s = .next u ∧ u.frozen = true ∧ u.snapQ = [⟨0, gOff (getF Reg.SYS_SNAP_DEST s), none⟩] ∧ u.hbm = s.hbm ∧
      u.tiles = s.tiles ∧ getF Reg.SYS_SNAP_EPOCH u = (getF Reg.SYS_SNAP_EPOCH s + 1) % 2 ^ Reg.SYS_SNAP_EPOCH.w := by
  have hgo : snapGo s = snapServe { setF Reg.SYS_SNAP_CTL_FAILED 0 s with snapQ := [⟨0, gOff (getF Reg.SYS_SNAP_DEST s), none⟩] } :=
    (if_neg (by simp [hb])).trans (snapAsk_idle hq)
  have hepoch : getF Reg.SYS_SNAP_EPOCH (setF Reg.SYS_SNAP_CTL_FAILED 0 s) = getF Reg.SYS_SNAP_EPOCH s := getF_setF_ne _ _ _ _ (by decide)
  obtain ⟨hfroz, hsnap, hhbm, htiles, hep⟩ := snapServe_begins (s := { setF Reg.SYS_SNAP_CTL_FAILED 0 s with
    snapQ := [⟨0, gOff (getF Reg.SYS_SNAP_DEST s), none⟩] }) rfl
  exact ⟨_, (exec_sysSnapGo hp hh).trans (congrArg _ hgo), hfroz, hsnap, hhbm, htiles, hep.trans (by rw [← hepoch]; rfl)⟩

end

theorem exec_snapshotFreezeEnd (hf : s.frozen = true) (ht : snapTime s + 100 ≤ s.tb) :
    exec .snapshotFreezeEnd s = .next (s.held.foldl heldRun { s with frozen := false, held := [], snapImage := snapPatch s }) :=
  congrArg _ (if_pos (by simp [hf, ht]))

theorem exec_snapshotFreezeEnd_early (ht : s.tb < snapTime s + 100) : exec .snapshotFreezeEnd s = .next s :=
  congrArg _ (if_neg (by simp [Nat.not_le.mpr ht]))

section
variable (hf : s.frozen = false)
include hf

theorem exec_snapshotFreezeEnd_open : exec .snapshotFreezeEnd s = .next s := congrArg _ (if_neg (by simp [hf]))

theorem exec_snapshotWriteDone {q : SnapReq} {l : List SnapReq} (hq : s.snapQ = q :: l) (hc : q.cmd = none) {w : Option Nat × State}
    (hw : w = hbmWrite q.dest s.snapImage (freeNat s) (tick1 s)) :
    exec .snapshotWriteDone s = .next (snapServe { w.2 with snapQ := l, snapImage := [] }) := by
  unfold exec
  simp only [execSnapshotWriteDone, hq, hf, hc, Bool.or_self, Bool.false_eq_true, if_false, ← hw]

/-! ### Configuration memory (R558) -/

theorem exec_configMemoryOpDone_none (hq : s.cfgQ = []) {ok : Bool} : exec (.configMemoryOpDone ok) s = .next s := by
  unfold exec
  simp only [execConfigMemoryOpDone, heldOr_open hf, hq]

variable {op : CfgOp} {l : List CfgOp} (hq : s.cfgQ = op :: l)
include hq

theorem exec_configMemoryOpDone_ok :
    exec (.configMemoryOpDone true) s = .next (opFollows true op.after (cfgDone op { s with cfgQ := l })) := by
  unfold exec
  simp only [execConfigMemoryOpDone, heldOr_open hf, hq, if_true]

theorem exec_configMemoryOpDone_failed (hup : s.mgmt.up = true) :
    exec (.configMemoryOpDone false) s = .next (opFollows false op.after (logBoot .configMemoryFault 0 { s with cfgQ := l })) := by
  unfold exec
  simp only [execConfigMemoryOpDone, heldOr_open hf, hq, hup, Bool.false_eq_true, if_false, if_true]

end

end

/-- Settles O53: the log's window by the record that is still there, a defect by its tile, a snapshot by DEST and the time of its freeze. -/
theorem recordsAndSnapshots : Obligations.RecordsAndSnapshots := by
  unfold Obligations.RecordsAndSnapshots
  intro v t s
  exact ⟨fun r u hu h => ⟨exec_logSelWrite_kept hu h, exec_logSelWrite_overwritten hu h⟩,
    fun ht => ⟨exec_fpDefectAdd.trans (congrArg _ (defectCtl_tile ht)), exec_fpDefectRemove.trans (congrArg _ (defectCtl_tile ht))⟩,
    exec_snapshotFreezeEnd, fun q l w hf hq hc hw => exec_snapshotWriteDone hf hq hc hw,
    fun op l hf hq => ⟨exec_configMemoryOpDone_ok hf hq, exec_configMemoryOpDone_failed hf hq⟩,
    fun hp hh => ⟨exec_sysSnapGo_begins hp hh, exec_sysSnapGo_bad hp hh⟩,
    exec_logSelWrite_none,
    fun ht => ⟨exec_fpDefectAdd.trans (congrArg _ (defectCtl_rejected ht)), exec_fpDefectRemove.trans (congrArg _ (defectCtl_rejected ht))⟩,
    fun _ => exec_snapshotFreezeEnd_early,
    fun hf => ⟨exec_snapshotFreezeEnd_open hf, fun hq _ => exec_configMemoryOpDone_none hf hq⟩⟩

end Sys2Proof.Machine
end

section
/-! PROOFS. The management cores (R515 to R519, R526). -/

namespace Sys2Proof.Machine

/-! ### What a heartbeat shows (R516, R526) -/

/-- With no path missed, the mark of a missed path stays cleared. -/
theorem mgmt_noMiss {m : Mgmt} (hb : m.missBox = false) (hw : m.missWire = false) (b : Bool) :
    { m with missBox := false, missWire := false, beat := b } = { m with beat := b } := by
  cases m
  simp only at hb hw
  subst hb hw
  rfl

section
variable {wire : Bool} {s : State}

/-- The times and the count that a heartbeat on the mailbox leaves. -/
def beatTimes (wire : Bool) (s : State) : State :=
  let t := setF Reg.MGT_HEARTBEAT_COUNT (getF Reg.MGT_HEARTBEAT_COUNT s + 1) (timerSet .boxBeat 0 s)
  if wire then timerSet .wireBeat 0 t else t

theorem beatTimes_mgmt : (beatTimes wire s).mgmt = s.mgmt := by cases wire <;> rfl

theorem beatTimes_log : (beatTimes wire s).log = s.log := by cases wire <;> rfl

theorem beatTimes_count :
    getF Reg.MGT_HEARTBEAT_COUNT (beatTimes wire s) = (getF Reg.MGT_HEARTBEAT_COUNT s + 1) % 2 ^ Reg.MGT_HEARTBEAT_COUNT.w := by
  have h : (beatTimes wire s).regs = (setF Reg.MGT_HEARTBEAT_COUNT (getF Reg.MGT_HEARTBEAT_COUNT s + 1) s).regs := by cases wire <;> rfl
  rw [getF_congr h, getF_setF_self]

/-- With no path missed, a heartbeat on the mailbox shows both paths and toggles HEARTBEAT_OUT. -/
theorem heartbeat_box (hb : s.mgmt.missBox = false) (hw : s.mgmt.missWire = false) (hc : s.pwr.cycle = false) :
    heartbeat true wire s = setB Reg.MGT_CORE_STAT_HB_MAILBOX_OK true (setB Reg.MGT_CORE_STAT_HB_WIRE_OK true
      { beatTimes wire s with mgmt := { s.mgmt with beat := !s.mgmt.beat } }) := by
  rw [← mgmt_noMiss hb hw]
  cases wire <;>
    simp [heartbeat, beatTimes, modM, hb, hw, hc]

variable {u : State} (hu : u = setB Reg.MGT_CORE_STAT_HB_MAILBOX_OK true (setB Reg.MGT_CORE_STAT_HB_WIRE_OK true
      { beatTimes wire s with mgmt := { s.mgmt with beat := !s.mgmt.beat } }))
include hu

theorem heartbeat_shows : getF Reg.MGT_CORE_STAT_HB_MAILBOX_OK u = 1 ∧ getF Reg.MGT_CORE_STAT_HB_WIRE_OK u = 1 := by
  subst hu
  exact ⟨getF_setF_self _ _ _, (getF_setF_ne _ _ _ _ (by decide)).trans (getF_setF_self _ _ _)⟩

theorem heartbeat_count :
    getF Reg.MGT_HEARTBEAT_COUNT u = (getF Reg.MGT_HEARTBEAT_COUNT s + 1) % 2 ^ Reg.MGT_HEARTBEAT_COUNT.w := by
  subst hu
  rw [setB, getF_setF_ne _ _ _ _ (by decide), setB, getF_setF_ne _ _ _ _ (by decide), ← beatTimes_count (wire := wire)]
  rfl

end

/-! ### The cores' events -/

section
variable {s : State}

theorem exec_recoveryHeartbeat (h : getF Reg.BOOT_STAT_STATE s = 5) (hc : s.pwr.cycle = false) (ht : timerDue .recovery 0 4000000 s = true) :
    exec .recoveryHeartbeat s = .next (modM (fun m => { m with beat := !m.beat }) (timerSet .recovery 0 s)) :=
  congrArg _ ((if_pos ⟨h, by simp [hc]⟩).trans (every_due ht _))

theorem exec_recoveryHeartbeat_elsewhere (h : getF Reg.BOOT_STAT_STATE s ≠ 5) : exec .recoveryHeartbeat s = .next s :=
  congrArg _ (if_neg fun ⟨h5, _⟩ => h h5)

variable (hf : s.frozen = false)
include hf

section
variable {box wire : Bool}

section
variable (hup : s.mgmt.up = true)
include hup

theorem exec_felmosHeartbeat (ht : timerDue .heartbeat 0 950000 s = true) :
    exec (.felmosHeartbeat box wire) s = .next (heartbeat box wire (timerSet .heartbeat 0 s)) :=
  congrArg _ ((heldOr_open hf _ _).trans ((if_pos hup).trans (every_due ht _)))

theorem exec_felmosCheckpoint (ht : timerDue .checkpoint 0 9000000 s = true) :
    exec .felmosCheckpoint s = .next (checkpoint (timerSet .checkpoint 0 s)) :=
  congrArg _ ((heldOr_open hf _ _).trans ((if_pos hup).trans (every_due ht _)))

theorem exec_fatalErrorSignal : exec .fatalErrorSignal s = .next (switchover .fatal s) :=
  congrArg _ ((heldOr_open hf _ _).trans (if_pos hup))

variable (hb : s.mgmt.missBox = false) (hw : s.mgmt.missWire = false) (ht : timerDue .boxBeat 0 2900000 s = true)
include hb hw ht

theorem exec_watchdogPathMiss_both (htw : timerDue .wireBeat 0 2900000 s = true) :
    exec (.watchdogPathMiss true true) s = .next (switchover .paths s) := by
  unfold exec
  simp [execWatchdogPathMiss, heldOr_open hf, hup, hb, hw, ht, htw]

theorem exec_watchdogPathMiss_box : exec (.watchdogPathMiss true false) s =
    .next (logEv .felmosHbPathLost none none 0 (arg16 [0]) (setB Reg.MGT_CORE_STAT_HB_MAILBOX_OK false
      (setB Reg.MGT_CORE_STAT_HB_WIRE_OK true { s with mgmt := { s.mgmt with missBox := true } }))) := by
  unfold exec
  simp [execWatchdogPathMiss, heldOr_open hf, hup, hb, hw, ht, modM]

end

section
variable (hdown : s.mgmt.up = false)
include hdown

theorem exec_felmosHeartbeat_down : exec (.felmosHeartbeat box wire) s = .next s :=
  congrArg _ ((heldOr_open hf _ _).trans (if_neg (by simp [hdown])))

theorem exec_felmosCheckpoint_down : exec .felmosCheckpoint s = .next s :=
  congrArg _ ((heldOr_open hf _ _).trans (if_neg (by simp [hdown])))

theorem exec_watchdogPathMiss_down : exec (.watchdogPathMiss box wire) s = .next s := by
  unfold exec
  simp only [execWatchdogPathMiss, heldOr_open hf, hdown, Bool.not_false, true_or, if_true]

theorem exec_fatalErrorSignal_down : exec .fatalErrorSignal s = .next s :=
  congrArg _ ((heldOr_open hf _ _).trans (if_neg (by simp [hdown])))

end

end

/-! ### The other core takes over (R516, R518) -/

section
variable {c0 c1 : Bool}

theorem exec_standbyTakeoverDone_up (hup : s.mgmt.up = true) : exec (.standbyTakeoverDone c0 c1) s = .next s := by
  unfold exec
  simp only [execStandbyTakeoverDone, heldOr_open hf, hup, true_or, if_true]

theorem exec_standbyTakeoverDone (hdown : s.mgmt.up = false) (hg : s.mgmt.gapAt.isSome = true) (ho : coreState (otherCore s) s = 1)
    {u : State} (hu : u = { s with mgmt := { s.mgmt with
      ck0 := { s.mgmt.ck0 with valid := s.mgmt.ck0.valid && c0 }, ck1 := { s.mgmt.ck1 with valid := s.mgmt.ck1.valid && c1 } } }) :
    exec (.standbyTakeoverDone c0 c1) s = .next (takeover (newestCkpt u).isSome u) := by
  have hnone : s.mgmt.gapAt.isNone = false := by rw [← Option.not_isSome, hg]; rfl
  have hmod : modM (fun m => { m with
      ck0 := { m.ck0 with valid := m.ck0.valid && c0 }, ck1 := { m.ck1 with valid := m.ck1.valid && c1 } }) s = u := hu.symm
  unfold exec
  simp only [execStandbyTakeoverDone, heldOr_open hf, hdown, hnone, ho, Bool.false_eq_true, ne_eq, not_true, or_self, if_false, hmod]

end

section
variable {core : Fin 2} (hup : s.mgmt.up = true) (hact : core.val ≠ activeCore s) (hst : coreState core s = 2)
  (hact2 : getF Reg.FW_STAT_ACT_STATE s ≠ 2)
include hup hact hst hact2

theorem exec_coreSelftestDone_ok {u : State} (hu : u = setCore core 1 (setBank core (bankOf (activeCore s) s) s)) :
    exec (.coreSelftestDone core true) s = .next (logEv .felmosStandbyReady none none 0 (arg16 [0])
      { u with mgmt := (if core.val = 0 then { u.mgmt with fails0 := 0 } else { u.mgmt with fails1 := 0 }) }) := by
  unfold exec
  simp only [execCoreSelftestDone, heldOr_open hf, hup, hact, hst, hact2, Bool.not_true, Bool.false_eq_true, ne_eq, not_true, or_self,
    if_false, if_true, modM, ← hu]

theorem exec_coreSelftestDone_failed {n : Nat} (hn : n = (if core.val = 0 then s.mgmt.fails0 else s.mgmt.fails1) + 1) {u : State}
    (hu : u = { s with mgmt := (if core.val = 0 then { s.mgmt with fails0 := n } else { s.mgmt with fails1 := n }) }) :
    exec (.coreSelftestDone core false) s = .next
      (if n < 2 then u else logEv .felmosCoreFailed none none 0 (arg16 [0]) (setCore core 3 u)) := by
  have hmod : modM (fun m => if core.val = 0 then { m with fails0 := n } else { m with fails1 := n }) s = u := hu.symm
  unfold exec
  simp only [execCoreSelftestDone, heldOr_open hf, hup, hact, hst, hact2, Bool.not_true, Bool.false_eq_true, ne_eq, not_true, or_self,
    if_false, ← hn, hmod]

end

end

/-- Settles O54: each event by whether a core is active, a missed path by the other one, and a self-test by the failures before it. -/
theorem managementCores : Obligations.ManagementCores := by
  unfold Obligations.ManagementCores
  intro box wire c0 c1 core s hf
  refine ⟨fun hup => ⟨exec_felmosHeartbeat hf hup, exec_felmosCheckpoint hf hup, exec_fatalErrorSignal hf hup,
      fun hb hw ht => ⟨exec_watchdogPathMiss_both hf hup hb hw ht, exec_watchdogPathMiss_box hf hup hb hw ht⟩⟩,
    exec_recoveryHeartbeat, fun hdown hg ho u hu => exec_standbyTakeoverDone hf hdown hg ho hu,
    fun n hup hact hst hact2 hn => ⟨fun u hu => exec_coreSelftestDone_ok hf hup hact hst hact2 hu,
      fun u hu => exec_coreSelftestDone_failed hf hup hact hst hact2 hn hu⟩,
    ?shows,
    fun hdown => ⟨exec_felmosHeartbeat_down hf hdown, exec_felmosCheckpoint_down hf hdown, exec_watchdogPathMiss_down hf hdown,
      exec_fatalErrorSignal_down hf hdown⟩,
    exec_standbyTakeoverDone_up hf, exec_recoveryHeartbeat_elsewhere⟩
  case shows =>
    intro u hu hb hw hc
    replace hu := hu.trans (heartbeat_box hb hw hc)
    have hlog : u.log = s.log := by rw [hu]; exact beatTimes_log
    obtain ⟨hbox, hwire⟩ := heartbeat_shows hu
    exact ⟨by rw [hu]; rfl, hbox, hwire, hlog, heartbeat_count hu⟩

end Sys2Proof.Machine
end

section
/-! PROOFS. The side-band's base, its sensors, effecters, events and eject (R520 to R524, R527, R544, R554). -/

namespace Sys2Proof.Machine

section
variable {s : State} {rq : Nat}

/-! ### Requests outside an open side-band (R520, R523) -/

section
variable (hp : s.powered = true) (hh : s.pwr.hubDown = false)
include hp hh

theorem exec_i3cAddressAssign {a : BitVec 7} : exec (.i3cAddressAssign a) s =
    .next (setF Reg.MGT_SB_STAT_DYN_ADDR a.toNat (setF Reg.MGT_SB_STAT_ADDR_VALID 1 s)) := congrArg _ (if_neg (by simp [hp, hh]))

/-- With no core active a request waits for one, while the packets kept are few enough. -/
theorem sbReq_waits (hup : s.mgmt.up = false) (hl : s.mgmt.sbHeld.length < 256) (i : Instr) (f : State → State) :
    sbReq i f s = { s with mgmt := { s.mgmt with sbHeld := s.mgmt.sbHeld ++ [i] } } := by
  simp only [sbReq, hp, hh, hup, hl, Bool.not_true, Bool.or_self, Bool.false_eq_true, if_false, if_true, modM]

end

section
variable (h : SbOpen s)
include h

/-! ### The base (R520) -/

section
variable {x : Byte}

theorem exec_mctpSetEndpointId (h0 : x ≠ 0) (h255 : x ≠ 255) :
    exec (.mctpSetEndpointId rq x) s = .next (sbAnswer rq [0, 0, x, 0] (setF Reg.MGT_SB_STAT_EID x.toNat s)) := by
  unfold exec
  simp only [execMctpSetEndpointId, sbReq_open h, h0, h255, or_self, if_false]

theorem exec_pldmSetTid (h0 : x ≠ 0) (h255 : x ≠ 255) :
    exec (.pldmSetTid rq x) s = .next (sbCode rq 0 { s with mgmt := { s.mgmt with tid := x.toNat } }) := by
  unfold exec
  simp only [execPldmSetTid, sbReq_open h, h0, h255, or_self, if_false, modM]

theorem exec_mctpSetEndpointId_reserved (hx : x = 0 ∨ x = 255) : exec (.mctpSetEndpointId rq x) s = .next (sbCode rq 2 s) := by
  unfold exec
  simp only [execMctpSetEndpointId, sbReq_open h, hx, if_true]

theorem exec_pldmSetTid_reserved (hx : x = 0 ∨ x = 255) : exec (.pldmSetTid rq x) s = .next (sbCode rq 2 s) := by
  unfold exec
  simp only [execPldmSetTid, sbReq_open h, hx, if_true]

theorem exec_pldmGetPldmVersion_unknown (h0 : x ≠ 0) (h2 : x ≠ 2) (h4 : x ≠ 4) :
    exec (.pldmGetPldmVersion rq x) s = .next (sbCode rq 0x83 s) := by
  unfold exec
  simp only [execPldmGetPldmVersion, sbReq_open h, h0, h2, h4, or_self, if_false]

end

theorem exec_pldmGetTid : exec (.pldmGetTid rq) s = .next (sbAnswer rq (bytes8 [0, s.mgmt.tid]) s) := by
  unfold exec
  simp only [execPldmGetTid, sbReq_open h]

theorem exec_pldmGetPldmTypes : exec (.pldmGetPldmTypes rq) s = .next (sbAnswer rq (bytes8 [0, 0x15, 0, 0, 0, 0, 0, 0, 0]) s) := by
  unfold exec
  simp only [execPldmGetPldmTypes, sbReq_open h]

theorem exec_pldmGetPldmVersion_control : exec (.pldmGetPldmVersion rq 2) s =
    .next (sbAnswer rq (bytes8 [0, 0, 0, 0, 0, 5] ++ bytes8 [0x00, 0xF0, 0xF2, 0xF1] ++
      leBytes 4 (crc32 (bytes8 [0x00, 0xF0, 0xF2, 0xF1]))) s) := by
  unfold exec
  simp only [execPldmGetPldmVersion, sbReq_open h, if_true]

omit h in
/-- Only the types 0, 2 and 4 have commands. -/
theorem pldmCommands_none {t : Nat} (h0 : t ≠ 0) (h2 : t ≠ 2) (h4 : t ≠ 4) : pldmCommands t = [] := by
  unfold pldmCommands
  split <;> trivial

theorem exec_pldmGetPldmCommands_fru : exec (.pldmGetPldmCommands rq 4) s = .next (sbAnswer rq (bytes8 [0] ++ leBytes 32 4) s) := by
  unfold exec
  simp only [execPldmGetPldmCommands, sbReq_open h]
  rfl

theorem exec_pldmGetPldmCommands_unknown {x : Byte} (h0 : x ≠ 0) (h2 : x ≠ 2) (h4 : x ≠ 4) :
    exec (.pldmGetPldmCommands rq x) s = .next (sbCode rq 0x83 s) := by
  have hnone : pldmCommands x.toNat = [] := pldmCommands_none (by bv_omega) (by bv_omega) (by bv_omega)
  unfold exec
  simp only [execPldmGetPldmCommands, sbReq_open h, hnone]

section
variable {id : Nat}

theorem exec_pldmGetPdr {o : Nat × Nat} (ho : (sbObjects s)[max id 1 - 1]? = some o) :
    ∃ l, exec (.pldmGetPdr rq id) s = .next (sbAnswer rq l (tick1 s)) ∧ l.head? = some 0 := by
  unfold exec
  simp only [execPldmGetPdr, sbReq_open h, ho]
  exact ⟨_, rfl, rfl⟩

theorem exec_pldmGetPdr_none (ho : (sbObjects s)[max id 1 - 1]? = none) : exec (.pldmGetPdr rq id) s = .next (sbCode rq 0x82 s) := by
  unfold exec
  simp only [execPldmGetPdr, sbReq_open h, ho]

/-! ### Sensors and effecters (R521) -/

theorem exec_pldmGetSensorReading {v : Nat × List Byte} (hv : numericSensor id s = some v) :
    exec (.pldmGetSensorReading rq id) s = .next (sbAnswer rq (bytes8 [0, v.1, 0, 0, 0, 0, 0] ++ v.2) s) := by
  unfold exec
  simp only [execPldmGetSensorReading, sbReq_open h, hv]

theorem exec_pldmGetSensorReading_none (hv : numericSensor id s = none) : exec (.pldmGetSensorReading rq id) s = .next (sbCode rq 0x80 s) := by
  unfold exec
  simp only [execPldmGetSensorReading, sbReq_open h, hv]

theorem exec_pldmGetStateSensorReadings {v : Nat} (hv : stateSensor id s = some v) :
    exec (.pldmGetStateSensorReadings rq id) s = .next (sbAnswer rq (bytes8 [0, 1, 0, v, 0, v]) s) := by
  unfold exec
  simp only [execPldmGetStateSensorReadings, sbReq_open h, hv]

theorem exec_pldmGetStateSensorReadings_none (hv : stateSensor id s = none) :
    exec (.pldmGetStateSensorReadings rq id) s = .next (sbCode rq 0x80 s) := by
  unfold exec
  simp only [execPldmGetStateSensorReadings, sbReq_open h, hv]

theorem exec_pldmGetNumericEffecterValue {v : Nat} (hv : numericEffecter id s = some v) :
    exec (.pldmGetNumericEffecterValue rq id) s = .next (sbAnswer rq (bytes8 [0, 2, 0] ++ leBytes 2 v ++ leBytes 2 v) s) := by
  unfold exec
  simp only [execPldmGetNumericEffecterValue, sbReq_open h, hv]

theorem exec_pldmGetNumericEffecterValue_none (hv : numericEffecter id s = none) :
    exec (.pldmGetNumericEffecterValue rq id) s = .next (sbCode rq 0x80 s) := by
  unfold exec
  simp only [execPldmGetNumericEffecterValue, sbReq_open h, hv]

end

theorem exec_setLocateLed {x : Byte} (h1 : 1 ≤ x.toNat) (h3 : x.toNat ≤ 3) : exec (.setLocateLed rq x) s =
    .next (sbCode rq 0 { s with mgmt := { s.mgmt with locate := some (x.toNat - 1) } }) := by
  unfold exec
  simp only [execSetLocateLed, sbReq_open h, h1, h3, and_self, if_true, modM]

theorem exec_setLocateLed_unsupported {x : Byte} (h3 : 3 < x.toNat) : exec (.setLocateLed rq x) s = .next (sbCode rq 0x81 s) := by
  unfold exec
  simp only [execSetLocateLed, sbReq_open h, Nat.not_le.mpr h3, and_false, if_false]

/-! ### Events, the FRU record and eject (R520, R524, R544) -/

theorem exec_pldmSetEventReceiver {e : Option Byte} : exec (.pldmSetEventReceiver rq e) s =
    .next (sbCode rq 0 { s with mgmt := { s.mgmt with receiver := e.map (·.toNat) } }) := by
  unfold exec
  simp only [execPldmSetEventReceiver, sbReq_open h, modM]

theorem exec_pldmGetFruRecordTable {t : List Byte}
    (ht : t = leBytes 8 (getF Reg.LIC_SERIAL s) ++ bytes8 [getF Reg.SYS_ID_VARIANT s] ++ ((shownBundle s).drop 1).flatMap (leBytes 8)) :
    exec (.pldmGetFruRecordTable rq) s = .next (sbAnswer rq (bytes8 [0] ++ leBytes 4 0 ++ bytes8 [5] ++ t ++ leBytes 4 (crc32 t)) s) := by
  unfold exec
  simp only [execPldmGetFruRecordTable, sbReq_open h, ← ht]

theorem exec_sidebandEjectRequest (ha : getF Reg.FW_STAT_ACT_STATE s = 0) (hs : s.mgmt.stage = none) :
    exec (.sidebandEjectRequest rq) s = .next (sbCode rq 0 (ejectStart 1 s)) := by
  unfold exec
  simp [execSidebandEjectRequest, sbReq_open h, ha, hs]

theorem exec_sidebandEjectRequest_activating (ha : getF Reg.FW_STAT_ACT_STATE s ≠ 0) :
    exec (.sidebandEjectRequest rq) s = .next (sbCode rq 1 s) := by
  unfold exec
  simp [execSidebandEjectRequest, sbReq_open h, ha]

theorem exec_sidebandEjectCancel : exec (.sidebandEjectCancel rq) s = .next (sbCode rq 0 (ejectCancel 1 s)) := by
  unfold exec
  simp only [execSidebandEjectCancel, sbReq_open h]

theorem exec_platformEventAck {boot fseq : B32} {m : OutMsg} (ho : s.outbox = [m]) (hb : m.boot = boot.toNat) (hf : m.fseq = fseq.toNat) :
    exec (.platformEventAck boot fseq) s = .next (setF Reg.MGT_SB_SEQ_LAST_ACKED (max fseq.toNat (getF Reg.MGT_SB_SEQ_LAST_ACKED s))
      (setF Reg.MGT_SB_STAT_OUTBOX_PENDING 0 { s with outbox := [], outboxFull := false })) := by
  unfold exec
  simp [execPlatformEventAck, sbReq_open h, outboxAck, ho, hb, hf]

end

end

/-- Settles O55: an open side-band takes each request at once, and answers by the identifier, the type or the record that it names. -/
theorem sideBandBase : Obligations.SideBandBase := by
  unfold Obligations.SideBandBase
  intro rq id x s
  exact ⟨fun hp hh a => exec_i3cAddressAssign hp hh,
    fun h => ⟨fun h0 h255 => ⟨exec_mctpSetEndpointId h h0 h255, exec_pldmSetTid h h0 h255⟩,
      exec_pldmGetTid h, exec_pldmGetPldmTypes h, exec_pldmGetPldmVersion_control h, exec_pldmGetPldmCommands_fru h,
      fun o => exec_pldmGetPdr h, fun hx => ⟨exec_mctpSetEndpointId_reserved h hx, exec_pldmSetTid_reserved h hx⟩,
      fun h0 h2 h4 => ⟨exec_pldmGetPldmVersion_unknown h h0 h2 h4, exec_pldmGetPldmCommands_unknown h h0 h2 h4⟩,
      exec_pldmGetPdr_none h⟩,
    fun hp hh hup hl => congrArg _ (sbReq_waits hp hh hup hl _ _)⟩

/-- Settles O56: an open side-band answers by the object that the request names. -/
theorem sideBandObjects : Obligations.SideBandObjects := by
  unfold Obligations.SideBandObjects
  intro rq id x s h
  exact ⟨fun v => exec_pldmGetSensorReading h, fun v => exec_pldmGetStateSensorReadings h, fun v => exec_pldmGetNumericEffecterValue h,
    fun e => exec_pldmSetEventReceiver h, fun t => exec_pldmGetFruRecordTable h, exec_setLocateLed h, exec_sidebandEjectRequest h,
    exec_sidebandEjectCancel h, fun boot fseq m => exec_platformEventAck h, exec_pldmGetSensorReading_none h,
    exec_pldmGetStateSensorReadings_none h, exec_pldmGetNumericEffecterValue_none h, exec_setLocateLed_unsupported h,
    exec_sidebandEjectRequest_activating h⟩

end Sys2Proof.Machine
end

section
/-! PROOFS. The service port: reading, activation, repeats and a bad CRC (R528 to R530). -/

namespace Sys2Proof.Machine

section
variable {s : State} {req : B32}

/-- A port that is open for a request serves it at once. -/
theorem svcReq_open (h : SvcOpen req s) (i : Instr) (typ : Nat) (f : State → State) : svcReq i typ req true f s = f s := by
  obtain ⟨hp, hh, hup, hf, hidle, hfresh, hboot⟩ := h
  cases hlast : s.mgmt.svcLast with
  | none => simp [svcReq, hp, hh, hup, heldOr_open hf, hidle, hboot, hlast]
  | some l => simp [svcReq, hp, hh, hup, heldOr_open hf, hidle, hboot, hlast, hfresh l hlast]

/-- A request with a bad CRC gets no answer. -/
theorem svcReq_badCrc (i : Instr) (typ : Nat) (f : State → State) : svcReq i typ req false f s = s := if_pos (by simp)

/-- A repeated request gets the answer again. -/
theorem svcReq_repeated (hp : s.powered = true) (hh : s.pwr.hubDown = false) (hup : s.mgmt.up = true) (hf : s.frozen = false)
    (hidle : s.mgmt.svcBusy = none) {b : List Byte} (hlast : s.mgmt.svcLast = some (req.toNat, b)) (i : Instr) (typ : Nat) (f : State → State) :
    svcReq i typ req true f s = emit (.service (serviceMac s) req.toNat b) s := by
  simp [svcReq, hp, hh, hup, heldOr_open hf, hidle, hlast]

section
variable (h : SvcOpen req s)
include h

theorem exec_svcIdentify : exec (.svcIdentify req true) s =
    .next (svcAnswer 1 req.toNat 0 .ok (leBytes 8 (getF Reg.LIC_SERIAL s) ++ leBytes 8 (sysId s) ++ leBytes 8 (bootStat s) ++
      leBytes 8 (fwStat s) ++ ((shownBundle s).drop 1).flatMap (leBytes 8)) s) := congrArg _ (svcReq_open h _ _ _)

theorem exec_svcStatus (hs : s.mgmt.stage = none) : exec (.svcStatus req true) s =
    .next (svcAnswer 6 req.toNat 0 .ok (leBytes 8 (fwStat s) ++ leBytes 8 (coreStat s) ++ leBytes 4 0) s) := by
  unfold exec
  simp only [execSvcStatus, svcReq_open h, hs]

section
variable {off : B32}

theorem exec_svcLogRead {r : LogRec} (hr : lookO s.log off.toNat = some r) :
    exec (.svcLogRead req true off) s = .next (svcAnswer 7 req.toNat off.toNat .ok (recBytes r) s) := by
  unfold exec
  simp only [execSvcLogRead, svcReq_open h, hr]

theorem exec_svcLogRead_none (hr : lookO s.log off.toNat = none) :
    exec (.svcLogRead req true off) s = .next (svcAnswer 7 req.toNat off.toNat .invalid [] s) := by
  unfold exec
  simp only [execSvcLogRead, svcReq_open h, hr]

variable {slot : Byte} {len : B16}

theorem exec_svcStageRead (hs : slot.toNat < 2) (hp : pieceOk off.toNat len.toNat = true) :
    exec (.svcStageRead req true slot off len) s =
      .next (svcOp 4 req.toNat [] (flashBytes (fwSlotBase slot.toNat + off.toNat) len.toNat s) none s) := by
  unfold exec
  simp only [execSvcStageRead, svcReq_open h, Nat.not_le.mpr hs, hp, decide_false, Bool.not_true, Bool.or_self, Bool.false_eq_true, if_false]

theorem exec_svcStageRead_noSlot (hs : 2 ≤ slot.toNat) :
    exec (.svcStageRead req true slot off len) s = .next (svcAnswer 4 req.toNat off.toNat .invalid [] s) := by
  unfold exec
  simp only [execSvcStageRead, svcReq_open h, hs, decide_true, Bool.true_or, if_true]

end

section
variable {cold : Bool}

theorem exec_svcActivate (ha : getB Reg.FW_CFG_SERVICE_ACTIVATE s = true) : exec (.svcActivate req true cold) s =
    .next (svcAnswer 5 req.toNat 0 (if (activate cold s).1 then .ok else .refused) [] (activate cold s).2) := by
  unfold exec
  simp only [execSvcActivate, svcReq_open h, ha, h.booted, Bool.not_true, Bool.false_and, Bool.or_false, Bool.false_eq_true, if_false]

theorem exec_svcActivate_refused (ha : getB Reg.FW_CFG_SERVICE_ACTIVATE s = false) :
    exec (.svcActivate req true cold) s = .next (svcAnswer 5 req.toNat 0 .refused [] s) := by
  unfold exec
  simp only [execSvcActivate, svcReq_open h, ha, h.booted, Bool.not_false, Bool.and_self, if_true]

end

end

end

/-- Settles O57: an open port serves the request, a repeated one gets the answer that is kept, and one with a bad CRC none. -/
theorem serviceReads : Obligations.ServiceReads := by
  unfold Obligations.ServiceReads
  rintro req off slot len cold s n o rfl rfl
  exact ⟨fun h => ⟨exec_svcIdentify h, exec_svcStatus h, fun r => exec_svcLogRead h, exec_svcStageRead h, exec_svcActivate h,
      exec_svcActivate_refused h, exec_svcLogRead_none h, exec_svcStageRead_noSlot h⟩,
    congrArg _ (svcReq_badCrc _ _ _),
    fun b hp hh hup hf hidle hlast => congrArg _ (svcReq_repeated hp hh hup hf hidle hlast _ _ _)⟩

end Sys2Proof.Machine
end

section
/-! PROOFS. Firmware activation, step by step, and its fall-back (R533, R537 to R542). -/

namespace Sys2Proof.Machine

section
variable {s : State}

/-! ### What COMMIT leaves (R537, R538) -/

section
variable {h : BootHdr} {after : CfgAfter}

theorem cfgPush_regs {op : CfgOp} : (cfgPush op s).regs = s.regs := by unfold cfgPush; split <;> rfl
theorem cfgPush_tiles {op : CfgOp} : (cfgPush op s).tiles = s.tiles := by unfold cfgPush; split <;> rfl

theorem hdrQueue_regs : (hdrQueue h after s).regs = s.regs := cfgPush_regs.trans cfgPush_regs
theorem hdrQueue_tiles : (hdrQueue h after s).tiles = s.tiles := cfgPush_tiles.trans cfgPush_tiles
@[simp] theorem hdrQueue_hbm : (hdrQueue h after s).hbm = s.hbm := (cfgPush_hbm _ _).trans (cfgPush_hbm _ _)

end

@[simp] theorem trialSettings_hbm {old new : Nat} : (trialSettings old new s).hbm = s.hbm := by unfold trialSettings; split <;> rfl
theorem trialSettings_tiles {old new : Nat} : (trialSettings old new s).tiles = s.tiles := by unfold trialSettings; split <;> rfl

@[simp] theorem modM_hbm {f : Mgmt → Mgmt} : (modM f s).hbm = s.hbm := rfl
theorem modM_tiles {f : Mgmt → Mgmt} : (modM f s).tiles = s.tiles := rfl

/-- COMMIT touches neither HBM nor a tile. -/
theorem commitRun_hbm (a : Act) : (commitRun a s).hbm = s.hbm := by
  simp only [commitRun, hdrQueue_hbm, setAct, trialSettings_hbm, modM_hbm, List.foldl_cons, List.foldl_nil, showWord, setCore, checkpoint, setF_hbm]

theorem commitRun_tiles (a : Act) : (commitRun a s).tiles = s.tiles := by
  simp only [commitRun, hdrQueue_tiles, setAct, trialSettings_tiles, modM_tiles, List.foldl_cons, List.foldl_nil, showWord, setCore, checkpoint,
    setF_tiles]

/-- COMMIT ends in the trial. -/
theorem commitRun_actState (a : Act) : getF Reg.FW_STAT_ACT_STATE (commitRun a s) = 3 :=
  (getF_congr hdrQueue_regs _).trans (getF_setF_self _ _ _)

/-! ### The steps of an activation (R533, R537, R542) -/

section
variable {a : Act} (hf : s.frozen = false)
include hf

theorem exec_fwActivate : exec .fwActivate s = .next (activate false s).2 := congrArg _ (heldOr_open hf _ _)

theorem exec_fwActivateCold : exec .fwActivateCold s = .next (activate true s).2 := congrArg _ (heldOr_open hf _ _)

theorem exec_activationVerifyDone (ha : actAt 0 s = some a) : exec .activationVerifyDone s =
    .next (if bundleCheck a.slot s ≠ 0 then actAbandon (bundleCheck a.slot s) s else setAct 2 (setCore (otherCore s) 2
      (setBank (otherCore s) (some (bankImage a.slot s)) (modM (fun m => { m with act := some { a with phase := 1 } }) s)))) := by
  unfold exec
  simp only [execActivationVerifyDone, heldOr_open hf, ha]

theorem exec_activationBootDone_none (ha : actAt 1 s = some a) (hk : newestCkpt s = none) :
    exec .activationBootDone s = .next (modM (fun m => { m with act := some { a with phase := 2 } }) s) := by
  unfold exec
  simp only [execActivationBootDone, heldOr_open hf, ha, hk]

theorem exec_activationBootDone {k : Ckpt} (ha : actAt 1 s = some a) (hk : newestCkpt s = some k) :
    exec .activationBootDone s = .next (if ckptReads a.slot k.fmt s
      then modM (fun m => { m with act := some { a with phase := 2 } }) s else actAbandon 6 s) := by
  unfold exec
  simp only [execActivationBootDone, heldOr_open hf, ha, hk]

theorem exec_shadowLoadDone {ok : Bool} (ha : actAt 2 s = some a) : exec (.shadowLoadDone ok) s =
    .next (if ok then modM (fun m => { m with act := some { a with phase := 3 } }) s else actAbandon 7 s) := by
  unfold exec
  simp only [execShadowLoadDone, heldOr_open hf, ha]

theorem exec_activationCommit (ha : actAt 3 s = some a) :
    exec .activationCommit s = .next (logEv .firmwareHandoverDone none none 0 (arg16 [0]) (commitRun a s)) := by
  unfold exec
  simp only [execActivationCommit, heldOr_open hf, ha]

/-! ### The trial and its end (R539, R540) -/

theorem exec_fwAbort_noTrial (ht : getF Reg.FW_STAT_ACT_STATE s ≠ 3) : exec .fwAbort s = .next s :=
  congrArg _ ((heldOr_open hf _ _).trans (if_neg fun h => ht h.1))

variable (ht : getF Reg.FW_STAT_ACT_STATE s = 3)
include ht

theorem exec_fwConfirm (ha : s.mgmt.act = some a) :
    exec .fwConfirm s = .next { s with mgmt := { s.mgmt with act := some { a with confirmed := true } } } := by
  unfold exec
  simp only [execFwConfirm, heldOr_open hf, modM, ha, Option.map_some, confirmAct, ht, decide_true, Bool.or_true]

variable (hup : s.mgmt.up = true)
include hup

theorem exec_fwAbort : exec .fwAbort s = .next (fallback 11 true s) := congrArg _ ((heldOr_open hf _ _).trans (if_pos ⟨ht, hup⟩))

theorem exec_trialTimeout (ha : s.mgmt.act = some a) :
    exec .trialTimeout s = .next (if a.commitAt + 600000000000 ≤ s.tb then fallback 10 true s else s) := by
  unfold exec
  simp only [execTrialTimeout, heldOr_open hf, ha, ht, hup, true_and]

end

end

/-- Settles O59: each step by the phase of the activation that it finds; COMMIT ends in the trial, whose end is a fall-back. -/
theorem activation : Obligations.Activation := by
  unfold Obligations.Activation
  intro a s hf
  exact ⟨exec_fwActivate hf, exec_fwActivateCold hf,
    fun ha => ⟨fun hb => (exec_activationVerifyDone hf ha).trans (congrArg _ (if_neg fun h => h hb)),
      fun hb => (exec_activationVerifyDone hf ha).trans (congrArg _ (if_pos hb))⟩,
    fun ha => ⟨exec_activationBootDone_none hf ha, fun k => exec_activationBootDone hf ha⟩,
    fun ha => ⟨exec_shadowLoadDone hf ha, exec_shadowLoadDone hf ha⟩,
    exec_activationCommit hf, fun ha ht => exec_fwConfirm hf ht ha,
    fun ht hup => ⟨exec_fwAbort hf ht hup,
      fun ha h => (exec_trialTimeout hf ht hup ha).trans (congrArg _ (if_pos h)),
      fun ha h => (exec_trialTimeout hf ht hup ha).trans (congrArg _ (if_neg (Nat.not_le.mpr h)))⟩,
    exec_fwAbort_noTrial hf, commitRun_actState a, commitRun_hbm a, commitRun_tiles a⟩

end Sys2Proof.Machine
end

section
/-! PROOFS. Bank switches, the confirmation of a trial, and eject (R538, R539, R544, R554, R555). -/

namespace Sys2Proof.Machine

section
variable {s : State} {a : Act}

/-! ### What a confirmation leaves (R539) -/

/-- A confirmation ends with the trial over and the slot of the new image in force. -/
theorem confirmRun_eq (a : Act) (s : State) :
    ∃ t, confirmRun a s = setF Reg.FW_STAT_ACTIVE_SLOT a.slot (setF Reg.FW_TRIAL_BUNDLE 0 (setAct 0 t)) ∧ t.mgmt.act = none := by
  refine ⟨_, rfl, ?_⟩
  split <;> rfl

theorem confirmRun_done (a : Act) : getF Reg.FW_STAT_ACT_STATE (confirmRun a s) = 0 ∧ (confirmRun a s).mgmt.act = none ∧
    getF Reg.FW_STAT_ACTIVE_SLOT (confirmRun a s) = a.slot % 2 ^ Reg.FW_STAT_ACTIVE_SLOT.w := by
  obtain ⟨t, heq, hact⟩ := confirmRun_eq a s
  rw [heq]
  refine ⟨?_, hact, getF_setF_self _ _ _⟩
  rw [getF_setF_ne _ _ _ _ (by decide), getF_setF_ne _ _ _ _ (by decide)]
  exact getF_setF_self _ _ _

variable (hf : s.frozen = false)
include hf

/-! ### Bank switches (R538, R555) -/

omit hf in
/-- Only the HBM controllers wait for the compute rails. -/
theorem unitRuns_iff {u : FwUnit} : unitRuns u s = true ↔ (u = .hbm → railsOn s = true) := by cases u <;> simp [unitRuns]

section
variable {u : FwUnit} (ha : s.mgmt.act = some a) (hc : a.cold = false) (ht : getF Reg.FW_STAT_ACT_STATE s = 3)
include ha hc ht

/-- In a trial a unit that runs and has not switched yet does so. -/
theorem exec_unitBankSwitch : exec (.unitBankSwitch u) s =
    .next (if s.mgmt.unitNew.testBit (unitWord u) = false ∧ unitRuns u s = true then
      showWord (bundleWords (manifest a.slot s)) (unitHolds u
        (modM (fun m => { m with unitNew := m.unitNew.lor (2 ^ unitWord u) }) s)) (unitWord u) else s) := by
  unfold exec
  simp [execUnitBankSwitch, heldOr_open hf, ha, hc, ht]

theorem exec_unitBankSwitch_not (h : u = .hbm ∧ railsOn s = false ∨ s.mgmt.unitNew.testBit (unitWord u) = true) :
    exec (.unitBankSwitch u) s = .next s := by
  refine (exec_unitBankSwitch hf ha hc ht).trans (congrArg _ (if_neg fun ⟨hnew, hrun⟩ => ?_))
  obtain ⟨hu, hoff⟩ | hold := h
  · exact absurd (unitRuns_iff.mp hrun hu) (by simp [hoff])
  · exact absurd hold (by simp [hnew])

end

theorem exec_tileBankSwitch {t : TileId} (hm : (getT t s).mode = .idle) (ht : getF Reg.FW_STAT_ACT_STATE s = 3)
    (hn : s.mgmt.tileNew.testBit t = false) :
    exec (.tileBankSwitch t) s = .next { s with mgmt := { s.mgmt with tileNew := s.mgmt.tileNew.xor (2 ^ t.val) } } := by
  unfold exec
  simp [execTileBankSwitch, heldOr_open hf, hm, ht, hn, modM]

theorem exec_healthConfirm (ha : s.mgmt.act = some a) : exec .healthConfirm s =
    .next (if healthy a s then logEv .firmwareConfirmed none none 0 (arg16 [0]) (confirmRun a s) else s) := by
  unfold exec
  simp only [execHealthConfirm, heldOr_open hf, ha]

/-! ### Eject (R544, R554) -/

theorem exec_ejectRequest : exec .ejectRequest s = .next (ejectStart 2 s) := congrArg _ (heldOr_open hf _ _)

omit hf in
theorem ejectStart_go {source : Nat} (hp : s.powered = true) (hr : ejectRefused s = false) : ejectStart source s =
    logEv .ejectRequested none none 0 (arg16 [0]) (setF Reg.MGT_EJECT_STAT_SOURCE source
      (setEject (if getF Reg.BOOT_STAT_STATE s = 2 then 1 else 2) s)) := if_neg (by simp [hp, hr])

omit hf in
theorem ejectStart_refused {source : Nat} (hr : ejectRefused s = true) : ejectStart source s = s := if_pos (by simp [hr])

theorem exec_ejectCancel : exec .ejectCancel s = .next (ejectCancel 2 s) := congrArg _ (heldOr_open hf _ _)

omit hf in
theorem ejectCancel_none {source : Nat} (h : getF Reg.MGT_EJECT_STAT_STATE s = 0) : ejectCancel source s = s := by
  simp only [ejectCancel, h, true_or, if_true]

omit hf in
theorem ejectCancel_go (h : getF Reg.MGT_EJECT_STAT_STATE s ≠ 0) (hs : getF Reg.MGT_EJECT_STAT_SOURCE s = 2) {v : State}
    (hv : v = (List.range 6).foldl ejectTrain s) : ejectCancel 2 s = logEv .ejectCancelled none none 0 (arg16 [0])
      (setF Reg.MGT_EJECT_STAT_SOURCE 0 (setEject 0 { v with mgmt := { v.mgmt with dark := 0 } })) := by
  subst hv
  simp [ejectCancel, h, hs]

theorem exec_ejectQuiesceEnd_lit (hd : allDark s = false) : exec (.ejectQuiesceEnd false) s = .next s := by
  unfold exec
  simp [execEjectQuiesceEnd, heldOr_open hf, hd]

section
variable (hup : s.mgmt.up = true)
include hup

section
variable (hst : getF Reg.MGT_EJECT_STAT_STATE s = 1) {ex : Bool}
include hst

theorem exec_ejectDrainEnd_idle (hb : busyCtxs s = []) : exec (.ejectDrainEnd ex) s = .next (setEject 2 s) := by
  unfold exec
  simp [execEjectDrainEnd, heldOr_open hf, hst, hup, hb]

/-- While contexts have work, only the end of DRAIN_S resets them. -/
theorem exec_ejectDrainEnd_busy (hb : busyCtxs s ≠ []) : exec (.ejectDrainEnd ex) s =
    .next (if ex && drainOver s then setEject 2 ((busyCtxs s).foldl (fun s c => ctxReset c s) s) else s) := by
  unfold exec
  simp [execEjectDrainEnd, heldOr_open hf, hst, hup, hb]

end

section
variable (hst : getF Reg.MGT_EJECT_STAT_STATE s = 2) {ex : Bool}
include hst

theorem exec_ejectRoutesClear (h0 : inflight 0 s = 0) (h1 : inflight 1 s = 0) (ht : timerDue .passBytes 0 1000000 s = true) :
    exec .ejectRoutesClear s = .next ((List.range 6).foldl ejectDark s) :=
  congrArg _ ((heldOr_open hf _ _).trans (if_pos ⟨hst, hup, h0, h1, ht⟩))

theorem exec_ejectQuiesceEnd (hd : allDark s = true) :
    exec (.ejectQuiesceEnd ex) s = .next (logEv .ejectReady none none 0 (arg16 [0]) (setEject 3 s)) :=
  congrArg _ ((heldOr_open hf _ _).trans (if_pos ⟨hst, hup, .inl hd⟩))

end

end

end

/-- Settles O60: a unit or tile switches once, a healthy image is confirmed, and an eject goes from state to state. -/
theorem trialAndEject : Obligations.TrialAndEject := by
  unfold Obligations.TrialAndEject
  intro a u t ex s hf
  exact ⟨fun ha hc ht hn hr => (exec_unitBankSwitch hf ha hc ht).trans (congrArg _ (if_pos ⟨hn, unitRuns_iff.mpr hr⟩)),
    exec_tileBankSwitch hf, fun ha hh => (exec_healthConfirm hf ha).trans (congrArg _ (if_pos hh)),
    fun hp hr => (exec_ejectRequest hf).trans (congrArg _ (ejectStart_go hp hr)),
    fun h hs v hv => (exec_ejectCancel hf).trans (congrArg _ (ejectCancel_go h hs hv)), fun hup hst => exec_ejectDrainEnd_idle hf hup hst,
    fun hup hst => ⟨exec_ejectRoutesClear hf hup hst, exec_ejectQuiesceEnd hf hup hst, exec_ejectQuiesceEnd_lit hf⟩,
    fun hup hst hb => ⟨exec_ejectDrainEnd_busy hf hup hst hb,
      fun hd => (exec_ejectDrainEnd_busy hf hup hst hb).trans (congrArg _ (if_pos hd))⟩,
    confirmRun_done a, exec_unitBankSwitch_not hf,
    fun ha hh => (exec_healthConfirm hf ha).trans (congrArg _ (if_neg (by simp [hh]))),
    fun hr => (exec_ejectRequest hf).trans (congrArg _ (ejectStart_refused hr)),
    fun h => (exec_ejectCancel hf).trans (congrArg _ (ejectCancel_none h))⟩

end Sys2Proof.Machine
end

section
/-! PROOFS. What keeps the bytes of HBM, and what keeps its form: the state, memory, caches, rings and requests (R212, R228). -/

namespace Sys2Proof.Machine

/-! For the form of HBM (O31) each operation of the model has one lemma here, in the model's order. One that touches no byte of HBM keeps
`State.hbm`: `f_hbm`, and `f_next` for one that also answers a value. One that writes HBM keeps its form: `hbmWf_f`, which goes back to
`hbmWf_hbmWrite`, `hbmWf_granuleTrim` and `hbmWf_diesOff`. The lemma of an operation cites those of the operations that it uses. -/

/-! ### Conditions, lists of steps and outcomes -/

@[simp] theorem hbm_ite (p : Prop) [Decidable p] (x y : State) : (if p then x else y).hbm = if p then x.hbm else y.hbm := apply_ite ..

@[simp] theorem foldl_hbm {α : Type} {f : State → α → State} (h : ∀ s x, (f s x).hbm = s.hbm) (l : List α) (s : State) :
    (l.foldl f s).hbm = s.hbm := by
  induction l generalizing s with
  | nil => rfl
  | cons x l ih => rw [List.foldl_cons, ih, h]

@[simp] theorem nextOr_next (s t : State) : nextOr s (.next t) = t := rfl

theorem hbmWf_snd {α : Type} {x : α × State} {r : α} {t : State} (h : HbmWf x.2) (e : x = (r, t)) : HbmWf t := by
  subst e
  exact h

theorem hbmWf_ite {p : Prop} [Decidable p] {x y : State} (hx : HbmWf x) (hy : HbmWf y) : HbmWf (if p then x else y) := by
  split <;> assumption

/-- A part of an operation that is done only under a condition, and keeps HBM. -/
theorem hbmWf_ite_keep {p : Prop} [Decidable p] {x y : State} (e : x.hbm = y.hbm) (h : HbmWf y) : HbmWf (if p then x else y) :=
  hbmWf_ite (hbmWf_of_eq e h) h

theorem hbmWf_foldl {α : Type} {f : State → α → State} (hf : ∀ s x, HbmWf s → HbmWf (f s x)) (l : List α) {s : State} (h : HbmWf s) :
    HbmWf (l.foldl f s) :=
  List.foldlRecOn l f h fun s h x _ => hf s x h

/-! ### Operations of Machine/Ops -/

@[simp] theorem noteSame_hbm (f n s) : (noteSame f n s).hbm = s.hbm := by rfl
@[simp] theorem setB_hbm (f b s) : (setB f b s).hbm = s.hbm := by simp [setB]
@[simp] theorem zeroF_hbm (fs s) : (zeroF fs s).hbm = s.hbm := by grind [zeroF, setF_hbm, foldl_hbm]
@[simp] theorem clearRegs_hbm (base lo hi s) : (clearRegs base lo hi s).hbm = s.hbm := by rfl
@[simp] theorem modT_hbm (t f s) : (modT t f s).hbm = s.hbm := by simp [modT]
@[simp] theorem mapTiles_hbm (f s) : (mapTiles f s).hbm = s.hbm := by rfl
@[simp] theorem modR_hbm (r f s) : (modR r f s).hbm = s.hbm := by simp [modR]
@[simp] theorem modC_hbm (c f s) : (modC c f s).hbm = s.hbm := by simp [modC]
@[simp] theorem delK_hbm (k s) : (delK k s).hbm = s.hbm := by rfl

@[simp] theorem every_hbm (t n gap) {f : State → State} (h : ∀ s, (f s).hbm = s.hbm) (s) : (every t n gap f s).hbm = s.hbm := by
  unfold every; split <;> simp [h]

theorem hbmWf_every (t n gap) {f : State → State} (hf : ∀ s, HbmWf s → HbmWf (f s)) {s} (h : HbmWf s) : HbmWf (every t n gap f s) :=
  hbmWf_ite (hf _ (hbmWf_of_eq (by simp) h)) h

@[simp] theorem beatStart_hbm (s) : (beatStart s).hbm = s.hbm := by simp [beatStart]
@[simp] theorem logAppend_hbm (r s) : (logAppend r s).hbm = s.hbm := by grind [logAppend, setF_hbm]

@[simp] theorem outboxPush_hbm (b s) : (outboxPush b s).hbm = s.hbm := by
  unfold outboxPush
  dsimp only
  repeat' split
  all_goals simp

@[simp] theorem logRaw_hbm (e part ctx loc args s) : (logRaw e part ctx loc args s).hbm = s.hbm := by simp [logRaw]
@[simp] theorem sensorNote_hbm (id now before s) : (sensorNote id now before s).hbm = s.hbm := by simp [sensorNote]
@[simp] theorem waitNote_hbm (old v s) : (waitNote old v s).hbm = s.hbm := by simp [waitNote]
@[simp] theorem setBoot_hbm (v s) : (setBoot v s).hbm = s.hbm := by simp [setBoot]
@[simp] theorem logBoot_hbm (e loc s) : (logBoot e loc s).hbm = s.hbm := by simp [logBoot]

@[simp] theorem forN_hbm (n) {f : Nat → State → State} (h : ∀ i s, (f i s).hbm = s.hbm) (s) : (forN n f s).hbm = s.hbm :=
  foldl_hbm (fun s i => h i s) _ _

theorem hbmWf_forN (n) {f : Nat → State → State} (hf : ∀ i s, HbmWf s → HbmWf (f i s)) {s} (h : HbmWf s) : HbmWf (forN n f s) :=
  hbmWf_foldl (fun _ i => hf i _) _ h

/-! ### Operations of Machine/Hbm -/

@[simp] theorem repairOnSuspect_hbm (o s) : (repairOnSuspect o s).hbm = s.hbm := by simp [repairOnSuspect, queueRepair_hbm]

theorem blockFate_next {o s r0 t0} (h : blockFate o s = (r0, t0)) : t0.hbm = s.hbm := by
  have e := blockFate_hbm o s
  rw [h] at e
  exact e

@[simp] theorem blockDecay_hbm (o sym s) : (blockDecay o sym s).hbm = s.hbm := by simp [blockDecay]

theorem blockRead_next {o req s r0 t0} (h : blockRead o req s = (r0, t0)) : t0.hbm = s.hbm := by
  have e := blockRead_hbm o req s
  rw [h] at e
  exact e

@[simp] theorem blockEncode_hbm (o s) : (blockEncode o s).hbm = s.hbm := by rfl

theorem hbmRead_next {o n req s r0 t0} (h : hbmRead o n req s = (r0, t0)) : t0.hbm = s.hbm := by
  have e := hbmRead_hbm o n req s
  rw [h] at e
  exact e

/-! ### Operations of Machine/Access -/

@[simp] theorem spUpset_hbm (t w n s) : (spUpset t w n s).hbm = s.hbm := by simp [spUpset]
@[simp] theorem spNoteCe_hbm (t w e s) : (spNoteCe t w e s).hbm = s.hbm := by simp [spNoteCe, bump_hbm, setSame_hbm]
@[simp] theorem spNoteUe_hbm (t w s) : (spNoteUe t w s).hbm = s.hbm := by simp [spNoteUe, bump_hbm, setSame_hbm]

@[simp] theorem spWord_hbm (t w s) : (spWord t w s).2.hbm = s.hbm := by
  unfold spWord
  dsimp only
  repeat' split
  all_goals simp

theorem spWord_next {t w s r0 t0} (h : spWord t w s = (r0, t0)) : t0.hbm = s.hbm := by
  have e := spWord_hbm t w s
  rw [h] at e
  exact e

/-- The words of a read, gathered one after the other, leave HBM. -/
@[simp] theorem spRead_hbm (t o n s) : (spRead t o n s).2.hbm = s.hbm := by
  unfold spRead
  generalize hr : List.foldl _ _ _ = r
  have e : r.2.hbm = s.hbm := by
    rw [← hr]
    refine List.foldlRecOn (motive := fun acc : Except Nat (List Byte) × State => acc.2.hbm = s.hbm) _ _ rfl ?_
    rintro ⟨a | a, u⟩ hu w -
    · exact hu
    · dsimp only
      split <;> rename_i h <;> exact (spWord_next h).trans hu
  grind

theorem spRead_next {t o n s r t'} (h : spRead t o n s = (r, t')) : t'.hbm = s.hbm := by
  have e := spRead_hbm t o n s
  rw [h] at e
  exact e

@[simp] theorem spPreRead_hbm (t l s) : (spPreRead t l s).2.hbm = s.hbm := by
  induction l generalizing s with
  | nil => rfl
  | cons w l ih =>
    have e := spWord_hbm t w s
    unfold spPreRead
    split <;> simp_all

theorem spPreRead_next {t l s r u} (h : spPreRead t l s = (r, u)) : u.hbm = s.hbm := by
  have e := spPreRead_hbm t l s
  rw [h] at e
  exact e

@[simp] theorem spStore_hbm (t o l s) : (spStore t o l s).hbm = s.hbm := by simp [spStore]

@[simp] theorem spWrite_hbm (t o l s) : (spWrite t o l s).2.hbm = s.hbm := by
  unfold spWrite
  split <;> rename_i h <;> simpa using spPreRead_next h

theorem spWrite_next {t o l s r u} (h : spWrite t o l s = (r, u)) : u.hbm = s.hbm := by
  have e := spWrite_hbm t o l s
  rw [h] at e
  exact e

/-! ### Operations of Machine/Rrc -/

@[simp] theorem setRrc_hbm (d l s) : (setRrc d l s).hbm = s.hbm := by simp [setRrc]
@[simp] theorem setFills_hbm (d l s) : (setFills d l s).hbm = s.hbm := by simp [setFills]
@[simp] theorem rrcDrop_hbm (d p s) : (rrcDrop d p s).hbm = s.hbm := by simp [rrcDrop, bump_hbm]
@[simp] theorem acquire_hbm (d scope chip addr len s) : (acquire d scope chip addr len s).hbm = s.hbm := by simp [acquire]
@[simp] theorem rrcOnWrite_hbm (g s) : (rrcOnWrite g s).hbm = s.hbm := by simp [rrcOnWrite]
@[simp] theorem sendPacket_hbm (port p s) : (sendPacket port p s).hbm = s.hbm := by rfl
@[simp] theorem setReq_hbm (id r s) : (setReq id r s).hbm = s.hbm := by rfl
@[simp] theorem delReq_hbm (id s) : (delReq id s).hbm = s.hbm := by rfl

@[simp] theorem sendReq_hbm (id r s) : (sendReq id r s).hbm = s.hbm := by
  unfold sendReq
  split <;> simp

@[simp] theorem rrcParity_hbm (d g n part s) : (rrcParity d g n part s).hbm = s.hbm := by
  unfold rrcParity
  split <;> simp [bump_hbm]

@[simp] theorem rrcUpset_hbm (d r s) : (rrcUpset d r s).hbm = s.hbm := by
  unfold rrcUpset
  split <;> simp

@[simp] theorem rrcReplace_hbm (d b s) : (rrcReplace d b s).hbm = s.hbm := by simp [rrcReplace, bump_hbm]

@[simp] theorem rrcRead_hbm (d id r s) : (rrcRead d id r s).hbm = s.hbm := by
  unfold rrcRead
  dsimp only
  split <;> simp [bump_hbm]

@[simp] theorem leaveReq_hbm (id r s) : (leaveReq id r s).hbm = s.hbm := by
  unfold leaveReq
  split <;> simp

@[simp] theorem makeReq_hbm (u k g n fresh fence part s) : (makeReq u k g n fresh fence part s).2.hbm = s.hbm := by
  unfold makeReq
  dsimp only
  repeat' split
  all_goals simp

theorem makeReq_next {u k g n fresh fence part s r0 t0} (h : makeReq u k g n fresh fence part s = (r0, t0)) : t0.hbm = s.hbm := by
  have e := makeReq_hbm u k g n fresh fence part s
  rw [h] at e
  exact e

@[simp] theorem execMemRrcBypass_hbm (die s) : (nextOr s (execMemRrcBypass die s)).hbm = s.hbm := by simp [execMemRrcBypass]
@[simp] theorem execMemRrcInvalidate_hbm (die s) : (nextOr s (execMemRrcInvalidate die s)).hbm = s.hbm := by simp [execMemRrcInvalidate]
@[simp] theorem execMemRrcClear_hbm (die s) : (nextOr s (execMemRrcClear die s)).hbm = s.hbm := by simp [execMemRrcClear]
@[simp] theorem rrcInstall_hbm (d e s) : (rrcInstall d e s).hbm = s.hbm := by simp [rrcInstall, bump_hbm]

@[simp] theorem execRrcFillReturn_hbm (die req s) : (nextOr s (execRrcFillReturn die req s)).hbm = s.hbm := by
  unfold execRrcFillReturn
  repeat' split
  all_goals simp [bump_hbm]
  all_goals exact foldl_hbm (fun s w => by split <;> simp) _ _

/-! ### Operations of Machine/Ctx -/

@[simp] theorem setQ_hbm (q x s) : (setQ q x s).hbm = s.hbm := by rfl
@[simp] theorem modQ_hbm (q f s) : (modQ q f s).hbm = s.hbm := by simp [modQ]
@[simp] theorem emit_hbm (o s) : (emit o s).hbm = s.hbm := by rfl
@[simp] theorem emitQ_hbm (q o s) : (emitQ q o s).hbm = s.hbm := by simp [emitQ]
@[simp] theorem qpSend_hbm (q s w) : (qpSend q s w).hbm = s.hbm := by simp [qpSend]
@[simp] theorem qpPost_hbm (q target data part s) : (qpPost q target data part s).hbm = s.hbm := by simp [qpPost]
@[simp] theorem notify_hbm (ev part ring ctx status detail s) : (notify ev part ring ctx status detail s).hbm = s.hbm := by simp [notify]
@[simp] theorem logFault_hbm (c ring status s) : (logFault c ring status s).hbm = s.hbm := by simp [logFault]
@[simp] theorem ctxFault_hbm (c ring status detail logged s) : (ctxFault c ring status detail logged s).hbm = s.hbm := by simp [ctxFault]
@[simp] theorem modCmd_hbm (r i f s) : (modCmd r i f s).hbm = s.hbm := by simp [modCmd]

@[simp] theorem finishCmd_hbm (r i status aux detail part alert s) : (finishCmd r i status aux detail part alert s).hbm = s.hbm := by
  simp [finishCmd]

@[simp] theorem cqBlock_hbm (r detail s) : (cqBlock r detail s).hbm = s.hbm := by simp [cqBlock]

theorem hbmWf_postOne (r c) {s} (h : HbmWf s) : HbmWf (postOne r c s).2 := by
  grind [postOne, modR_hbm, cqBlock_hbm, qpPost_hbm, stampUse_hbm, hbmWf_hbmWrite, timerSet_hbm, ctxFault_hbm]

@[simp] theorem collPosted_hbm (r idx s) : (collPosted r idx s).hbm = s.hbm := by grind [collPosted, bump_hbm]
@[simp] theorem retireHead_hbm (r c status detail part s) : (retireHead r c status detail part s).hbm = s.hbm := by simp [retireHead]

theorem hbmWf_postHead (r) {s} (h : HbmWf s) : HbmWf (postHead r s).2 := by
  grind [postHead, retireHead_hbm, hbmWf_postOne]

theorem hbmWf_postDue (r n) {s} (h : HbmWf s) : HbmWf (postDue r n s) := by
  induction n generalizing s with
  | zero => exact h
  | succ n ih =>
    unfold postDue
    split
    · next e => exact ih (hbmWf_snd (hbmWf_postHead _ h) e)
    · next e => exact hbmWf_snd (hbmWf_postHead _ h) e

theorem hbmWf_postLate (r n) {s} (h : HbmWf s) : HbmWf (postLate r n s) := by
  induction n generalizing s with
  | zero => exact h
  | succ n ih =>
    unfold postLate
    split
    · exact h
    · split
      · next e => exact ih (hbmWf_of_eq (modR_hbm ..) (hbmWf_snd (hbmWf_postOne _ _ h) e))
      · next e => exact hbmWf_snd (hbmWf_postOne _ _ h) e

theorem hbmWf_cqRetry (r) {s} (h : HbmWf s) : HbmWf (cqRetry r s) := by
  have e := hbmWf_postLate r ((getR r s).late.length + 1) (hbmWf_postDue r ((getR r s).cmds.length + 1) h)
  unfold cqRetry
  dsimp only
  split
  · exact h
  · split
    · exact e
    · exact hbmWf_of_eq (modR_hbm ..) e

@[simp] theorem heldOr_hbm (i) {f : State → State} (h : ∀ s, (f s).hbm = s.hbm) (s) : (heldOr i f s).hbm = s.hbm := by
  unfold heldOr; split <;> simp [h]

theorem hbmWf_heldOr (i) {f : State → State} (hf : ∀ s, HbmWf s → HbmWf (f s)) {s} (h : HbmWf s) : HbmWf (heldOr i f s) := by
  unfold heldOr
  split
  · exact h
  · exact hf _ h

@[simp] theorem ringHeld_hbm (i r) {f : State → State} (h : ∀ s, (f s).hbm = s.hbm) (s) : (ringHeld i r f s).hbm = s.hbm := by
  simp [ringHeld, h]

theorem hbmWf_ringHeld (i r) {f : State → State} (hf : ∀ s, HbmWf s → HbmWf (f s)) {s} (h : HbmWf s) : HbmWf (ringHeld i r f s) :=
  hbmWf_ite h (hf _ h)

@[simp] theorem doorbellProducer_hbm (r v s) : (doorbellProducer r v s).hbm = s.hbm := by
  refine heldOr_hbm _ (fun s => ?_) _
  dsimp only
  split
  · rfl
  · split
    · rfl
    · exact bump_hbm ..
    · split <;> simp

theorem hbmWf_doorbellCq (r v) {s} (h : HbmWf s) : HbmWf (doorbellCq r v s) := by
  refine hbmWf_heldOr _ (fun s h => ?_) h
  dsimp only
  split
  · exact h
  · split
    · exact h
    · exact hbmWf_of_eq (bump_hbm ..) h
    · split
      · exact hbmWf_of_eq (bump_hbm ..) h
      · exact hbmWf_cqRetry _ (hbmWf_of_eq (modR_hbm ..) h)

theorem hbmWf_doorbellWrite (off l) {s} (h : HbmWf s) : HbmWf (doorbellWrite off l s) := by
  unfold doorbellWrite
  refine hbmWf_ite (hbmWf_of_eq (bump_hbm ..) h) (hbmWf_ite (hbmWf_doorbellCq _ _ h) ?_)
  have e := hbmWf_of_eq (doorbellProducer_hbm ((off - dbWin) / 64) (leNat (l.take 4)) s) h
  exact hbmWf_ite (hbmWf_doorbellCq _ _ e) e

@[simp] theorem execDoorbellProducer_hbm (ring v s) : (nextOr s (execDoorbellProducer ring v s)).hbm = s.hbm := by
  simp [execDoorbellProducer]

theorem hbmWf_execDoorbellCqConsumed (ring v) {s} (h : HbmWf s) : HbmWf (nextOr s (execDoorbellCqConsumed ring v s)) := by
  grind [execDoorbellCqConsumed, hbmWf_doorbellCq, nextOr]

theorem hbmWf_execCompletionRetry (ring) {s} (h : HbmWf s) : HbmWf (nextOr s (execCompletionRetry ring s)) :=
  hbmWf_heldOr _ (fun _ h => hbmWf_every _ _ _ (fun _ h => hbmWf_cqRetry _ h) h) h

theorem hbmWf_execCommandComplete (ring) {s} (h : HbmWf s) : HbmWf (nextOr s (execCommandComplete ring s)) := by
  grind [execCommandComplete, heldOr, hbmWf_postLate, hbmWf_postHead, nextOr]

/-! ### Operations of Machine/Home -/

@[simp] theorem homeRead_hbm (off n code s) : (homeRead off n code s).2.2.hbm = s.hbm := by
  grind [homeRead, hbmRead_hbm, → hbmRead_next, spRead_hbm, → spRead_next]

theorem homeRead_next {off n code s r0 q0 t0} (h : homeRead off n code s = (r0, q0, t0)) : t0.hbm = s.hbm := by
  have e := homeRead_hbm off n code s
  rw [h] at e
  exact e

theorem hbmWf_homeWrite (off l code) {s} (h : HbmWf s) : HbmWf (homeWrite off l code s).2 := by
  unfold homeWrite
  by_cases ho : off < hbmEnd
  · rw [if_pos ho]
    split <;> rename_i e <;> exact hbmWf_snd (hbmWf_hbmWrite _ _ _ h) e
  · rw [if_neg ho]
    split
    · split <;> rename_i e <;> exact hbmWf_of_eq (spWrite_next e) h
    · by_cases hd : dbWin ≤ off
      · rw [if_pos hd]
        dsimp only
        exact hbmWf_doorbellWrite off l h
      · rw [if_neg hd]
        exact h

theorem hbmWf_perform (r) {s} (h : HbmWf s) : HbmWf (perform r s).2.2 := by
  unfold perform
  dsimp only
  split
  · split
    · exact h
    · exact hbmWf_of_eq (homeRead_hbm ..) h
  · split
    · exact h
    · exact hbmWf_homeWrite _ _ _ h
  · split
    · exact h
    · split <;> rename_i e <;> exact hbmWf_snd (hbmWf_hbmAtomic _ _ _ _ _ _ _ h) e

@[simp] theorem answer_hbm (r st data s) : (answer r st data s).hbm = s.hbm := by grind [answer, sendPacket_hbm]

@[simp] theorem settleReq_hbm (id r st data s) : (settleReq id r st data s).hbm = s.hbm := by
  grind [settleReq, answer_hbm, delReq_hbm, setReq_hbm]

@[simp] theorem spLine_hbm (i t o r s) : (spLine i t o r s).2.hbm = s.hbm := by
  grind [spLine, spPreRead_hbm, spStore_hbm, spRead_hbm]

theorem spLine_next {i t o r s q u} (h : spLine i t o r s = (q, u)) : u.hbm = s.hbm := by
  have e := spLine_hbm i t o r s
  rw [h] at e
  exact e

@[simp] theorem performLine_hbm (id t o r s) : (performLine id t o r s).hbm = s.hbm := by
  grind [performLine, settleReq_hbm, setReq_hbm, tick1_hbm, → spLine_next]

@[simp] theorem decay_hbm (r sym s) : (decay r sym s).hbm = s.hbm := by simp [decay]

theorem hbmWf_execHbmAccess (req sym) {s} (h : HbmWf s) : HbmWf (nextOr s (execHbmAccess req sym s)) := by
  grind [execHbmAccess, performLine_hbm, hbmWf_perform, decay_hbm, settleReq_hbm, nextOr]

end Sys2Proof.Machine
end

section
/-! PROOFS. HBM and its form: tiles, kernels and walkers (R212, R228). -/

namespace Sys2Proof.Machine

/-! ### Operations of Machine/TileMem -/

@[simp] theorem pollWaitf_hbm (t f s) : (pollWaitf t f s).hbm = s.hbm := by simp [pollWaitf]
@[simp] theorem dmaRetire_hbm (t s) : (dmaRetire t s).hbm = s.hbm := by simp [dmaRetire]

/-! ### Operations of Machine/TileSeq -/

@[simp] theorem drillAdmit_hbm (t s) : (drillAdmit t s).hbm = s.hbm := by simp [drillAdmit]
@[simp] theorem drillLeave_hbm (d s) : (drillLeave d s).hbm = s.hbm := by simp [drillLeave]
@[simp] theorem drillWait_hbm (d s) : (drillWait d s).hbm = s.hbm := by simp [drillWait, bump_hbm]

/-! ### Operations of Machine/Kernel -/

@[simp] theorem stopOn_hbm (t stopped timeout s) : (stopOn t stopped timeout s).hbm = s.hbm := by simp [stopOn]

@[simp] theorem stopKernel_hbm (k timeout s) : (stopKernel k timeout s).hbm = s.hbm := by
  unfold stopKernel
  split <;> simp

@[simp] theorem tileFault_hbm (t c pc info s) : (tileFault t c pc info s).hbm = s.hbm := by
  unfold tileFault
  dsimp only
  repeat' split
  all_goals simp

/-- One more piece of a dump. -/
theorem hbmWf_dumpPiece (p : Nat) {acc : Bool × Nat × State} (h : HbmWf acc.2.2) (l : List Byte) :
    HbmWf (if !acc.1 then acc
      else if hbmBacked acc.2.1 l.length acc.2.2 && winOk p acc.2.1 l.length false true acc.2.2 then
        match hbmWrite acc.2.1 l 0x280 acc.2.2 with
        | (none, s) => (true, acc.2.1 + l.length, s)
        | (some _, s) => (false, 0, s)
      else (false, 0, acc.2.2) : Bool × Nat × State).2.2 := by
  split
  · exact h
  · split
    · split <;> rename_i e <;> exact hbmWf_snd (hbmWf_hbmWrite _ _ _ h) e
    · exact h

theorem hbmWf_writeDump (c ps) {s} (h : HbmWf s) : HbmWf (writeDump c ps s) := by
  unfold writeDump
  dsimp only
  split
  · exact h
  · generalize hr : List.foldl _ _ _ = r
    have e : HbmWf r.2.2 := by
      rw [← hr]
      exact List.foldlRecOn (motive := fun acc : Bool × Nat × State => HbmWf acc.2.2) _ _ h fun acc hu l _ => hbmWf_dumpPiece _ hu l
    split
    · exact hbmWf_of_eq (by simp) e
    · exact hbmWf_of_eq (by simp) e

theorem hbmWf_dumpCommand (r idx status seq) {s} (h : HbmWf s) : HbmWf (dumpCommand r idx status seq s) :=
  hbmWf_writeDump _ _ (hbmWf_of_eq (stampUse_hbm ..) h)

theorem hbmWf_dumpKernel (k status) {s} (h : HbmWf s) : HbmWf (dumpKernel k status s) :=
  hbmWf_writeDump _ _ (hbmWf_of_eq (stampUse_hbm ..) h)

theorem dmaChan_hbm {r i n s t} (h : dmaChan r i s = some (n, t)) : t.hbm = s.hbm := by
  grind [dmaChan]

theorem writeUnit_hbm {r i c n s t} (h : writeUnit r i c s = some (n, t)) : t.hbm = s.hbm := by
  unfold writeUnit at h
  split at h
  · obtain ⟨⟨k, u⟩, hu, heq⟩ := Option.map_eq_some_iff.mp h
    obtain ⟨-, rfl⟩ := Prod.mk.inj heq
    exact dmaChan_hbm hu
  · grind

@[simp] theorem sendEach_hbm (r i code l s) : (sendEach r i code l s).hbm = s.hbm := by
  induction l generalizing s with
  | nil => rfl
  | cons w l ih => simp [sendEach, ih]

@[simp] theorem sendWrites_hbm (r i s) : (sendWrites r i s).hbm = s.hbm := by
  grind [sendWrites, sendEach_hbm, modCmd_hbm, → writeUnit_hbm]

theorem hbmWf_kernelEnd (key) {s} (h : HbmWf s) : HbmWf (kernelEnd key s) := by
  grind [kernelEnd, finishCmd_hbm, sendWrites_hbm, modCmd_hbm, hbmWf_dumpKernel, logFault_hbm, setK_hbm]

/-! ### Operations of Machine/Walker -/

@[simp] theorem setB'_hbm (key b s) : (setB' key b s).hbm = s.hbm := by rfl

theorem hbmWf_streamFault (key cause addr) {s} (h : HbmWf s) : HbmWf (streamFault key cause addr s) := by
  unfold streamFault
  exact hbmWf_kernelEnd _ (hbmWf_of_eq (by simp) h)

@[simp] theorem dropBindings_hbm (k s) : (dropBindings k s).hbm = s.hbm := by rfl

theorem hbmWf_walkAsk (key n) {s} (h : HbmWf s) : HbmWf (walkAsk key n s) := by
  induction n generalizing s with
  | zero => exact h
  | succ n ih =>
    unfold walkAsk
    split
    · exact h
    · split
      · exact h
      · split
        · exact hbmWf_streamFault _ _ _ h
        · exact ih (hbmWf_of_eq (by simp) h)

theorem hbmWf_walkFetch (key ph rs) {s} (h : HbmWf s) : HbmWf (walkFetch key ph rs s) := by
  unfold walkFetch
  split
  · exact h
  · exact hbmWf_walkAsk _ _ (hbmWf_of_eq (by simp) h)

theorem hbmWf_ringFault (key w b) {s} (h : HbmWf s) : HbmWf (ringFault key w b s) := hbmWf_streamFault _ _ _ h

theorem hbmWf_ringGet (key b o n) {f : List Byte → State → State} (hf : ∀ l s, HbmWf s → HbmWf (f l s)) {s} (h : HbmWf s) :
    HbmWf (ringGet key b o n f s) := by
  unfold ringGet
  split
  · next e => exact hf _ _ (hbmWf_of_eq (spRead_next e) h)
  · next e => exact hbmWf_ringFault _ _ _ (hbmWf_of_eq (spRead_next e) h)

theorem hbmWf_ringPut (key b o l) {f : State → State} (hf : ∀ s, HbmWf s → HbmWf (f s)) {s} (h : HbmWf s) :
    HbmWf (ringPut key b o l f s) := by
  unfold ringPut
  split
  · next e => exact hf _ (hbmWf_of_eq (spWrite_next e) h)
  · next e => exact hbmWf_ringFault _ _ _ (hbmWf_of_eq (spWrite_next e) h)

theorem hbmWf_walkPage (key blk) {s} (h : HbmWf s) : HbmWf (walkPage key blk s) := by
  grind [walkPage, hbmWf_streamFault, hbmWf_walkFetch, setB'_hbm]

theorem hbmWf_walkNext (key) {s} (h : HbmWf s) : HbmWf (walkNext key s) := by
  grind [walkNext, hbmWf_walkPage, hbmWf_walkFetch, setB'_hbm]

theorem hbmWf_walkPlan (key pages) {s} (h : HbmWf s) : HbmWf (walkPlan key pages s) := by
  unfold walkPlan
  split
  · exact hbmWf_ringPut _ _ _ _ (fun s h => hbmWf_walkNext _ (hbmWf_of_eq (by simp) h)) h
  · exact h

theorem hbmWf_walkGate (key) {s} (h : HbmWf s) : HbmWf (walkGate key s) := by
  unfold walkGate
  split
  · next b _ =>
    have hgo (t) (ht : HbmWf t) : HbmWf (walkFetch key .desc [(b.seqAddr, 64)] (setB' key { b with blocked := false } t)) :=
      hbmWf_walkFetch _ _ _ (hbmWf_of_eq (by simp) ht)
    dsimp only
    split
    · refine hbmWf_ringGet _ _ _ _ (fun l s h => ?_) h
      split
      · exact hbmWf_of_eq (by simp) h
      · exact hgo _ h
    · exact hgo _ h
  · exact h

theorem hbmWf_walkBegin (key b d) {s} (h : HbmWf s) : HbmWf (walkBegin key b d s) := by
  grind [walkBegin, hbmWf_walkPlan, hbmWf_walkFetch, setB'_hbm]

theorem hbmWf_walkGot (key b) {s} (h : HbmWf s) : HbmWf (walkGot key b s) := by
  grind [walkGot, hbmWf_walkBegin, hbmWf_walkPage, hbmWf_streamFault, setB'_hbm]

theorem hbmWf_walkResp (w key n pos r st data) {s} (h : HbmWf s) : HbmWf (walkResp w key n pos r st data s) := by
  grind [walkResp, hbmWf_walkGot, hbmWf_walkAsk, hbmWf_walkPlan, hbmWf_streamFault, setB'_hbm, bump_hbm]

theorem hbmWf_execBindingActivate (w) {s} (h : HbmWf s) : HbmWf (nextOr s (execBindingActivate w s)) := by
  grind [execBindingActivate, hbmWf_walkGate, nextOr]

theorem hbmWf_execWalkerCreditPoll (ring idx b) {s} (h : HbmWf s) : HbmWf (nextOr s (execWalkerCreditPoll ring idx b s)) := by
  grind [execWalkerCreditPoll, hbmWf_walkGate, hbmWf_ringGet, setB'_hbm, nextOr]

theorem hbmWf_selWrite (key x plan) {s} (h : HbmWf s) : HbmWf (selWrite key x plan s) := by
  grind [selWrite, hbmWf_streamFault, makeReq_hbm, → makeReq_next, setB'_hbm, foldl_hbm]

theorem hbmWf_execPageSiftSelect (ring idx b) {s} (h : HbmWf s) : HbmWf (nextOr s (execPageSiftSelect ring idx b s)) := by
  grind [execPageSiftSelect, hbmWf_ringGet, bump_hbm, hbmWf_selWrite, hbmWf_walkPlan, nextOr]

theorem hbmWf_walkDeliver (key x d) {s} (h : HbmWf s) : HbmWf (walkDeliver key x d s) := by
  grind [walkDeliver, hbmWf_ringPut, hbmWf_walkNext, setB'_hbm, bump_hbm]

theorem hbmWf_execWalkerSlotDeliver (ring idx b) {s} (h : HbmWf s) : HbmWf (nextOr s (execWalkerSlotDeliver ring idx b s)) := by
  grind [execWalkerSlotDeliver, hbmWf_ringGet, hbmWf_walkDeliver, setB'_hbm, nextOr]

/-! ### Operations of Machine/Alloc -/

@[simp] theorem kernelRun_hbm (key s) : (kernelRun key s).hbm = s.hbm := by grind [kernelRun, spStore_hbm, modT_hbm, foldl_hbm]
@[simp] theorem kernelTake_hbm (key k tiles s) : (kernelTake key k tiles s).hbm = s.hbm := by simp [kernelTake]

@[simp] theorem placeBindings_hbm (key k tiles table s) : (placeBindings key k tiles table s).hbm = s.hbm := by
  grind [placeBindings, setB'_hbm, foldl_hbm]

@[simp] theorem kernelStart_hbm (r s) : (kernelStart r s).hbm = s.hbm := by grind [kernelStart, kernelTake_hbm, placeBindings_hbm]
@[simp] theorem execKernelStart_hbm (ring s) : (nextOr s (execKernelStart ring s)).hbm = s.hbm := by simp [execKernelStart]
@[simp] theorem tileIdle_hbm (t s) : (tileIdle t s).hbm = s.hbm := by grind [tileIdle, modT_hbm]

@[simp] theorem execKernelTileReserve_hbm (ring s) : (nextOr s (execKernelTileReserve ring s)).hbm = s.hbm := by
  unfold execKernelTileReserve
  split
  · rw [nextOr_next]
    split
    · rw [setK_hbm]
    · rfl
  · rfl

@[simp] theorem refuseUnplaced_hbm (s e) : (refuseUnplaced s e).hbm = s.hbm := by simp [refuseUnplaced]
@[simp] theorem realloc_hbm (s) : (realloc s).hbm = s.hbm := by simp [realloc]

/-! ### Operations of Machine/Tile -/

@[simp] theorem startFetch_hbm (t k s) : (startFetch t k s).hbm = s.hbm := by simp [startFetch]

@[simp] theorem checkReads_hbm (t l s) : (checkReads t l s).2.hbm = s.hbm := by
  induction l generalizing s with
  | nil => rfl
  | cons r l ih => grind [checkReads, → spRead_next]

theorem checkReads_next {t l s r t'} (h : checkReads t l s = (r, t')) : t'.hbm = s.hbm := by
  have e := checkReads_hbm t l s
  rw [h] at e
  exact e

@[simp] theorem checkStore_hbm (t w old s) : (checkStore t w old s).2.hbm = s.hbm := by
  unfold checkStore
  repeat' split
  all_goals simp

theorem checkStore_next {t w old s r0 t0} (h : checkStore t w old s = (r0, t0)) : t0.hbm = s.hbm := by
  have e := checkStore_hbm t w old s
  rw [h] at e
  exact e

@[simp] theorem afterIssue_hbm (t w old s) : (afterIssue t w old s).hbm = s.hbm := by
  grind [afterIssue, stampUse_hbm, → checkReads_next, checkStore_hbm, tileFault_hbm]

/-- What an instruction does leaves HBM. -/
def IssKeeps (s : State) : SIss → Prop
  | .go u | .late _ _ u => u.hbm = s.hbm
  | _ => True

theorem IssKeeps.go {s u : State} {r : SIss} (h : IssKeeps s r) (hr : r = .go u) : u.hbm = s.hbm := by
  subst hr; exact h

theorem IssKeeps.late {s u : State} {r : SIss} {c info} (h : IssKeeps s r) (hr : r = .late c info u) : u.hbm = s.hbm := by
  subst hr; exact h

theorem liftTile_keeps (f t e w s) : IssKeeps s (liftTile f t e w s) := by
  unfold liftTile
  split <;> simp [IssKeeps]

theorem issDma_keeps (t e w s) : IssKeeps s (issDma t e w s) := by
  unfold issDma
  dsimp only
  repeat' split
  all_goals simp only [IssKeeps]
  all_goals simpa using spRead_next ‹spRead _ _ _ _ = _›

theorem issAtom_keeps (t e w s) : IssKeeps s (issAtom t e w s) := by
  grind [issAtom, IssKeeps, makeReq_hbm, setT_hbm]

theorem issAcq_keeps (t e w s) : IssKeeps s (issAcq t e w s) := by
  grind [issAcq, IssKeeps, modT_hbm, acquire_hbm]

theorem issWaitd_keeps (t e w s) : IssKeeps s (issWaitd t e w s) := by
  grind [issWaitd, IssKeeps, modT_hbm]

theorem issSignal_keeps (t e w s) : IssKeeps s (issSignal t e w s) := by
  grind [issSignal, IssKeeps, setT_hbm]

theorem issWaits_keeps (t e w s) : IssKeeps s (issWaits t e w s) := by
  grind [issWaits, IssKeeps, modT_hbm]

theorem issWaitf_keeps (t e w s) : IssKeeps s (issWaitf t e w s) := by
  grind [issWaitf, IssKeeps, pollWaitf_hbm]

theorem runMat_keeps (q t e w s) : IssKeeps s (runMat q t e w s) := by
  grind [runMat, IssKeeps, kernelCount_hbm, drillWait_hbm, drillAdmit_hbm, modT_hbm]

theorem opRun_keeps (op t e w s) : IssKeeps s (opRun op t e w s) := by
  cases op
  case dma => exact issDma_keeps t e w s
  case atom => exact issAtom_keeps t e w s
  case acq => exact issAcq_keeps t e w s
  case waitd => exact issWaitd_keeps t e w s
  case signal => exact issSignal_keeps t e w s
  case waits => exact issWaits_keeps t e w s
  case waitf => exact issWaitf_keeps t e w s
  case mmul => exact runMat_keeps ..
  case qmmul => exact runMat_keeps ..
  all_goals
    unfold opRun
    exact liftTile_keeps ..

@[simp] theorem issueAt_hbm (op t s) : (issueAt op t s).hbm = s.hbm := by
  unfold issueAt
  dsimp only
  repeat' split
  all_goals simp
  · next h => exact (opRun_keeps ..).late h
  · next h => exact (opRun_keeps ..).go h

@[simp] theorem execNop_hbm (t s) : (nextOr s (execNop t s)).hbm = s.hbm := by simp [execNop]
@[simp] theorem execEndOp_hbm (t s) : (nextOr s (execEndOp t s)).hbm = s.hbm := by simp [execEndOp]
@[simp] theorem execBr_hbm (t s) : (nextOr s (execBr t s)).hbm = s.hbm := by simp [execBr]
@[simp] theorem execMfsr_hbm (t s) : (nextOr s (execMfsr t s)).hbm = s.hbm := by simp [execMfsr]
@[simp] theorem execLfsrld_hbm (t s) : (nextOr s (execLfsrld t s)).hbm = s.hbm := by simp [execLfsrld]
@[simp] theorem execAlu_hbm (t s) : (nextOr s (execAlu t s)).hbm = s.hbm := by simp [execAlu]
@[simp] theorem execAlui_hbm (t s) : (nextOr s (execAlui t s)).hbm = s.hbm := by simp [execAlui]
@[simp] theorem execMovi_hbm (t s) : (nextOr s (execMovi t s)).hbm = s.hbm := by simp [execMovi]
@[simp] theorem execMovhi_hbm (t s) : (nextOr s (execMovhi t s)).hbm = s.hbm := by simp [execMovhi]
@[simp] theorem execCmp_hbm (t s) : (nextOr s (execCmp t s)).hbm = s.hbm := by simp [execCmp]
@[simp] theorem execCmpi_hbm (t s) : (nextOr s (execCmpi t s)).hbm = s.hbm := by simp [execCmpi]
@[simp] theorem execPlog_hbm (t s) : (nextOr s (execPlog t s)).hbm = s.hbm := by simp [execPlog]
@[simp] theorem execFpu_hbm (t s) : (nextOr s (execFpu t s)).hbm = s.hbm := by simp [execFpu]
@[simp] theorem execFcmp_hbm (t s) : (nextOr s (execFcmp t s)).hbm = s.hbm := by simp [execFcmp]
@[simp] theorem execAmov_hbm (t s) : (nextOr s (execAmov t s)).hbm = s.hbm := by simp [execAmov]
@[simp] theorem execAdda_hbm (t s) : (nextOr s (execAdda t s)).hbm = s.hbm := by simp [execAdda]
@[simp] theorem execMova_hbm (t s) : (nextOr s (execMova t s)).hbm = s.hbm := by simp [execMova]
@[simp] theorem execLd_hbm (t s) : (nextOr s (execLd t s)).hbm = s.hbm := by simp [execLd]
@[simp] theorem execSt_hbm (t s) : (nextOr s (execSt t s)).hbm = s.hbm := by simp [execSt]
@[simp] theorem execValu_hbm (t s) : (nextOr s (execValu t s)).hbm = s.hbm := by simp [execValu]
@[simp] theorem execValus_hbm (t s) : (nextOr s (execValus t s)).hbm = s.hbm := by simp [execValus]
@[simp] theorem execVsfu_hbm (t s) : (nextOr s (execVsfu t s)).hbm = s.hbm := by simp [execVsfu]
@[simp] theorem execVred_hbm (t s) : (nextOr s (execVred t s)).hbm = s.hbm := by simp [execVred]
@[simp] theorem execVcvt_hbm (t s) : (nextOr s (execVcvt t s)).hbm = s.hbm := by simp [execVcvt]
@[simp] theorem execVbcast_hbm (t s) : (nextOr s (execVbcast t s)).hbm = s.hbm := by simp [execVbcast]
@[simp] theorem execVld_hbm (t s) : (nextOr s (execVld t s)).hbm = s.hbm := by simp [execVld]
@[simp] theorem execVst_hbm (t s) : (nextOr s (execVst t s)).hbm = s.hbm := by simp [execVst]
@[simp] theorem execVdq_hbm (t s) : (nextOr s (execVdq t s)).hbm = s.hbm := by simp [execVdq]
@[simp] theorem execVqnt_hbm (t s) : (nextOr s (execVqnt t s)).hbm = s.hbm := by simp [execVqnt]
@[simp] theorem execAccrd_hbm (t s) : (nextOr s (execAccrd t s)).hbm = s.hbm := by simp [execAccrd]
@[simp] theorem execSmxu_hbm (t s) : (nextOr s (execSmxu t s)).hbm = s.hbm := by simp [execSmxu]
@[simp] theorem execSmxm_hbm (t s) : (nextOr s (execSmxm t s)).hbm = s.hbm := by simp [execSmxm]
@[simp] theorem execDma_hbm (t s) : (nextOr s (execDma t s)).hbm = s.hbm := by simp [execDma]
@[simp] theorem execAtom_hbm (t s) : (nextOr s (execAtom t s)).hbm = s.hbm := by simp [execAtom]
@[simp] theorem execAcq_hbm (t s) : (nextOr s (execAcq t s)).hbm = s.hbm := by simp [execAcq]
@[simp] theorem execWaitd_hbm (t s) : (nextOr s (execWaitd t s)).hbm = s.hbm := by simp [execWaitd]
@[simp] theorem execSignal_hbm (t s) : (nextOr s (execSignal t s)).hbm = s.hbm := by simp [execSignal]
@[simp] theorem execWaits_hbm (t s) : (nextOr s (execWaits t s)).hbm = s.hbm := by simp [execWaits]
@[simp] theorem execWaitf_hbm (t s) : (nextOr s (execWaitf t s)).hbm = s.hbm := by simp [execWaitf]
@[simp] theorem execMmul_hbm (t s) : (nextOr s (execMmul t s)).hbm = s.hbm := by simp [execMmul]
@[simp] theorem execQmmul_hbm (t s) : (nextOr s (execQmmul t s)).hbm = s.hbm := by simp [execQmmul]

/-! ### Operations of Machine/TileEvents -/

@[simp] theorem unitWrite_hbm (t pc ws s) : (unitWrite t pc ws s).hbm = s.hbm :=
  foldl_hbm (fun s w => by split <;> rename_i h <;> simpa using spWrite_next h) _ _

@[simp] theorem dropStale_hbm (mine s) : (dropStale mine s).hbm = s.hbm := by rfl

@[simp] theorem execIcacheFillDone_hbm (t parity s) : (nextOr s (execIcacheFillDone t parity s)).hbm = s.hbm := by
  grind [execIcacheFillDone, delReq_hbm, modT_hbm, tileFault_hbm, startFetch_hbm, bump_hbm, tick1_hbm, dropStale_hbm, nextOr]

@[simp] theorem execMatrixOpDone_hbm (t s) : (nextOr s (execMatrixOpDone t s)).hbm = s.hbm := by
  grind [execMatrixOpDone, nextOr, matCount_hbm, setT_hbm, countSat_hbm, unitWrite_hbm]

@[simp] theorem execAccrdDone_hbm (t s) : (nextOr s (execAccrdDone t s)).hbm = s.hbm := by
  grind [execAccrdDone, nextOr, setT_hbm, countSat_hbm, unitWrite_hbm]

@[simp] theorem execVectorOpDone_hbm (t s) : (nextOr s (execVectorOpDone t s)).hbm = s.hbm := by
  grind [execVectorOpDone, unitWrite_hbm, setT_hbm, countSat_hbm, bump_hbm, nextOr]

@[simp] theorem dmaTileRequest_hbm (t id s) : (dmaTileRequest t id s).hbm = s.hbm := by
  grind [dmaTileRequest, tileFault_hbm, modT_hbm, spRead_hbm, → spRead_next, makeReq_hbm, → makeReq_next, bump_hbm]

@[simp] theorem dmaFlush_hbm (t id all s) : (dmaFlush t id all s).hbm = s.hbm := by
  unfold dmaFlush
  split
  · rfl
  · dsimp only
    split <;> simp [bump_hbm]

@[simp] theorem dmaTileResp_hbm (t id sp r st data s) : (dmaTileResp t id sp r st data s).hbm = s.hbm := by
  grind [dmaTileResp, modT_hbm, tileFault_hbm, dmaFlush_hbm, dmaRetire_hbm]

@[simp] theorem waitfResp_hbm (t id st data s) : (waitfResp t id st data s).hbm = s.hbm := by grind [waitfResp, tileFault_hbm, modT_hbm]

@[simp] theorem execSignalIncrementApplied_hbm (t s) : (nextOr s (execSignalIncrementApplied t s)).hbm = s.hbm := by
  grind [execSignalIncrementApplied, modK_hbm, setT_hbm, nextOr]

@[simp] theorem execWaitdSatisfied_hbm (t s) : (nextOr s (execWaitdSatisfied t s)).hbm = s.hbm := by simp [execWaitdSatisfied]
@[simp] theorem execWaitsSatisfied_hbm (t s) : (nextOr s (execWaitsSatisfied t s)).hbm = s.hbm := by simp [execWaitsSatisfied]

@[simp] theorem execWaitfPoll_hbm (t s) : (nextOr s (execWaitfPoll t s)).hbm = s.hbm := by
  grind [execWaitfPoll, pollWaitf_hbm, tileFault_hbm, nextOr]

@[simp] theorem execAtomReturn_hbm (t req s) : (nextOr s (execAtomReturn t req s)).hbm = s.hbm := by
  unfold execAtomReturn
  dsimp only
  repeat' split
  all_goals simp

theorem hbmWf_execEndDrainDone (t) {s} (h : HbmWf s) : HbmWf (nextOr s (execEndDrainDone t s)) := by
  grind [execEndDrainDone, hbmWf_kernelEnd, tileIdle_hbm, setT_hbm, nextOr]

@[simp] theorem endReadout_hbm (t o s) : (endReadout t o s).hbm = s.hbm := by
  refine foldl_hbm (fun s w => ?_) _ _
  exact unitWrite_hbm ..

@[simp] theorem endMatrix_hbm (t s) : (endMatrix t s).hbm = s.hbm := by grind [endMatrix, matCount_hbm, tick1_hbm, setT_hbm]

@[simp] theorem endVector_hbm (t s) : (endVector t s).hbm = s.hbm := by
  unfold endVector; dsimp only; split <;> simp [bump_hbm, countSat_hbm]

theorem hbmWf_execTileHalted (t) {s} (h : HbmWf s) : HbmWf (nextOr s (execTileHalted t s)) := by
  grind [execTileHalted, endVector_hbm, endMatrix_hbm, endReadout_hbm, dmaFlush_hbm, modT_hbm, hbmWf_kernelEnd, foldl_hbm, nextOr]

theorem hbmWf_execTileClearDone (t) {s} (h : HbmWf s) : HbmWf (nextOr s (execTileClearDone t s)) := by
  grind [execTileClearDone, bump_hbm, setT_hbm, hbmWf_kernelEnd, kernelRun_hbm, tileIdle_hbm, nextOr]

@[simp] theorem execSpCorrectedWriteback_hbm (t word flips s) : (nextOr s (execSpCorrectedWriteback t word flips s)).hbm = s.hbm := by
  simp [execSpCorrectedWriteback]

@[simp] theorem execDrillOffsetExpire_hbm (t s) : (nextOr s (execDrillOffsetExpire t s)).hbm = s.hbm := by simp [execDrillOffsetExpire]

@[simp] theorem execDrillStartAdmit_hbm (t s) : (nextOr s (execDrillStartAdmit t s)).hbm = s.hbm := by
  grind [execDrillStartAdmit, drillAdmit_hbm, drillLeave_hbm, nextOr]

@[simp] theorem execDrillRampStep_hbm (t s) : (nextOr s (execDrillRampStep t s)).hbm = s.hbm := by simp [execDrillRampStep]
@[simp] theorem maxErrNote_hbm (f e s) : (maxErrNote f e s).hbm = s.hbm := by simp [maxErrNote]

@[simp] theorem execCremaCompareDone_hbm (t s) : (nextOr s (execCremaCompareDone t s)).hbm = s.hbm := by
  grind [execCremaCompareDone, setT_hbm, bump_hbm, maxErrNote_hbm, kernelCount_hbm, nextOr]

@[simp] theorem execCremaEscalationDone_hbm (t s) : (nextOr s (execCremaEscalationDone t s)).hbm = s.hbm := by
  grind [execCremaEscalationDone, setT_hbm, bump_hbm, countSat_hbm, kernelCount_hbm, nextOr]

end Sys2Proof.Machine
end

section
/-! PROOFS. HBM and its form: commands, links and the router (R212, R228). -/

namespace Sys2Proof.Machine

/-! ### Operations of Machine/Commands -/

@[simp] theorem readDesc_hbm (r i s) : (readDesc r i s).2.hbm = s.hbm := by simp [readDesc, hbmRead_hbm]

theorem readDesc_next {r i s r0 t0} (h : readDesc r i s = (r0, t0)) : t0.hbm = s.hbm := by
  have e := readDesc_hbm r i s
  rw [h] at e
  exact e

@[simp] theorem pushCmd_hbm (r d s) : (pushCmd r d s).hbm = s.hbm := by simp [pushCmd]

@[simp] theorem startCmd_hbm (op r check) {go : Nat → List Byte → State → State} (h : ∀ i d s, (go i d s).hbm = s.hbm) (s) :
    (startCmd op r check go s).hbm = s.hbm := by
  have e := readDesc_hbm r (getR r s).next s
  unfold startCmd
  dsimp only
  repeat' split
  all_goals simp_all

@[simp] theorem cmdOk_hbm (r i aux s) : (cmdOk r i aux s).hbm = s.hbm := by simp [cmdOk]
@[simp] theorem execCmdNop_hbm (ring s) : (nextOr s (execCmdNop ring s)).hbm = s.hbm := by simp [execCmdNop]
@[simp] theorem setWork_hbm (r i w s) : (setWork r i w s).hbm = s.hbm := by simp [setWork]
@[simp] theorem execCmdDma_hbm (ring s) : (nextOr s (execCmdDma ring s)).hbm = s.hbm := by simp [execCmdDma]
@[simp] theorem execCmdWriteValue_hbm (ring s) : (nextOr s (execCmdWriteValue ring s)).hbm = s.hbm := by simp [execCmdWriteValue]

@[simp] theorem pollValue_hbm (r i s) : (pollValue r i s).hbm = s.hbm := by
  grind [pollValue, finishCmd_hbm, makeReq_hbm, → makeReq_next, timerSet_hbm, setWork_hbm]

@[simp] theorem execCmdWaitValue_hbm (ring s) : (nextOr s (execCmdWaitValue ring s)).hbm = s.hbm := by simp [execCmdWaitValue]
@[simp] theorem execWaitValuePoll_hbm (ring s) : (nextOr s (execWaitValuePoll ring s)).hbm = s.hbm := by simp [execWaitValuePoll]
@[simp] theorem execCmdAcquire_hbm (ring s) : (nextOr s (execCmdAcquire ring s)).hbm = s.hbm := by simp [execCmdAcquire]

@[simp] theorem execCmdTrim_hbm (ring s) : (nextOr s (execCmdTrim ring s)).hbm = s.hbm := by
  grind [execCmdTrim, startCmd_hbm, setWork_hbm, modCmd_hbm, nextOr]

theorem hbmWf_trimStep (r i g n) {s} (h : HbmWf s) : HbmWf (trimStep r i g n s) := by
  have e : HbmWf (forN (min n (16 + freeNat s)) (fun j => granuleTrim (g + j)) (tick1 s)) :=
    hbmWf_forN _ (fun j s h => hbmWf_granuleTrim _ h) (hbmWf_of_eq (tick1_hbm s) h)
  exact hbmWf_ite (hbmWf_of_eq (by simp) e) (hbmWf_of_eq (by simp) e)

@[simp] theorem gatherAsk_hbm (r i n s) : (gatherAsk r i n s).hbm = s.hbm := by
  induction n generalizing s with
  | zero => rfl
  | succ n ih =>
    unfold gatherAsk
    repeat' split
    all_goals simp [ih]

@[simp] theorem gatherStage_hbm (r i stage rs data s) : (gatherStage r i stage rs data s).hbm = s.hbm := by simp [gatherStage]
@[simp] theorem refuseCmd_hbm (r i e s) : (refuseCmd r i e s).hbm = s.hbm := by simp [refuseCmd]

@[simp] theorem gatherOr_hbm (r i e) {go : State → State} (h : ∀ s, (go s).hbm = s.hbm) (s) : (gatherOr r i e go s).hbm = s.hbm := by
  unfold gatherOr; split <;> simp [h]

@[simp] theorem rotaryNext_hbm (r i stage data l s) : (rotaryNext r i stage data l s).hbm = s.hbm := by
  unfold rotaryNext
  dsimp only
  repeat' split
  all_goals simp

@[simp] theorem execCmdRotaryTable_hbm (ring s) : (nextOr s (execCmdRotaryTable ring s)).hbm = s.hbm := by simp [execCmdRotaryTable]
@[simp] theorem appendCount_hbm (r n s) : (appendCount r n s).hbm = s.hbm := by simp [appendCount, bump_hbm]
@[simp] theorem appendWritten_hbm (r i c g n s) : (appendWritten r i c g n s).hbm = s.hbm := by simp [appendWritten]

@[simp] theorem appendNext_hbm (r i stage data l s) : (appendNext r i stage data l s).hbm = s.hbm := by
  unfold appendNext
  dsimp only
  repeat' split
  all_goals simp

@[simp] theorem execCmdAppend_hbm (ring s) : (nextOr s (execCmdAppend ring s)).hbm = s.hbm := by simp [execCmdAppend]
@[simp] theorem kernelWait_hbm (r i d table s) : (kernelWait r i d table s).hbm = s.hbm := by simp [kernelWait]
@[simp] theorem kernelGo_hbm (r i d table s) : (kernelGo r i d table s).hbm = s.hbm := by simp [kernelGo]

@[simp] theorem kernelNext_hbm (r i stage d data l s) : (kernelNext r i stage d data l s).hbm = s.hbm := by
  unfold kernelNext
  split <;> simp

@[simp] theorem execCmdKernel_hbm (ring s) : (nextOr s (execCmdKernel ring s)).hbm = s.hbm := by simp [execCmdKernel]

@[simp] theorem copyIssue_hbm (r i s) : (copyIssue r i s).hbm = s.hbm := by
  grind [copyIssue, makeReq_hbm, setWork_hbm, → dmaChan_hbm]

@[simp] theorem ringIssue_hbm (r i s) : (ringIssue r i s).hbm = s.hbm := by
  grind [ringIssue, copyIssue_hbm, sendWrites_hbm]

@[simp] theorem dmaIssue_hbm (src s) : (dmaIssue src s).hbm = s.hbm := by
  cases src <;> simp [dmaIssue]

@[simp] theorem dmaParity_hbm (src s) : (dmaParity src s).hbm = s.hbm := by
  cases src <;> grind [dmaParity, rrcParity_hbm]

@[simp] theorem execDmaRequestIssue_hbm (src parity s) : (nextOr s (execDmaRequestIssue src parity s)).hbm = s.hbm := by
  simp [execDmaRequestIssue]

@[simp] theorem gatherDone_hbm (r i stage c data l s) : (gatherDone r i stage c data l s).hbm = s.hbm := by
  unfold gatherDone; split <;> simp

@[simp] theorem copySettle_hbm (r i s) : (copySettle r i s).hbm = s.hbm := by grind [copySettle, finishCmd_hbm, cmdOk_hbm]

@[simp] theorem copyResp_hbm (r i pos code c q st data s) : (copyResp r i pos code c q st data s).hbm = s.hbm := by
  grind [copyResp, copySettle_hbm, setWork_hbm, modCmd_hbm, makeReq_hbm, → makeReq_next]

@[simp] theorem writesResp_hbm (r i c q st s) : (writesResp r i c q st s).hbm = s.hbm := by
  grind [writesResp, modCmd_hbm, appendWritten_hbm, finishCmd_hbm]

@[simp] theorem commandResp_hbm (r i pos code q st data s) : (commandResp r i pos code q st data s).hbm = s.hbm := by
  grind [commandResp, refuseCmd_hbm, setWork_hbm, gatherDone_hbm, gatherAsk_hbm, copyResp_hbm, writesResp_hbm, cmdOk_hbm]

theorem hbmWf_timeoutHead (r c seq) {s} (h : HbmWf s) : HbmWf (timeoutHead r c seq s) := by
  grind [timeoutHead, finishCmd_hbm, hbmWf_dumpCommand, delK_hbm, mapTiles_hbm, hbmWf_kernelEnd, stopKernel_hbm, dropBindings_hbm, setK_hbm]

theorem hbmWf_timeoutFaulted (key seq k) {s} (h : HbmWf s) : HbmWf (timeoutFaulted key seq k s) := by
  grind [timeoutFaulted, hbmWf_writeDump, stampUse_hbm, setK_hbm, hbmWf_dumpKernel]

@[simp] theorem ringTimer_hbm (r s) : (ringTimer r s).hbm = s.hbm := by grind [ringTimer, setR_hbm]

theorem hbmWf_ringTick (r) {s} (h : HbmWf s) : HbmWf (ringTick s r) := by
  refine hbmWf_ite h (hbmWf_foldl (fun s c h => ?_) _ (hbmWf_of_eq (by simp) h))
  split
  · exact hbmWf_trimStep _ _ _ _ h
  · exact h

theorem hbmWf_ringTimeout (r) {s} (h : HbmWf s) : HbmWf (ringTimeout r s) := by
  grind [ringTimeout, logEv_hbm, modR_hbm, hbmWf_timeoutFaulted, hbmWf_timeoutHead]

theorem hbmWf_execRingTimeoutExpire (ring) {s} (h : HbmWf s) : HbmWf (nextOr s (execRingTimeoutExpire ring s)) := by
  grind [execRingTimeoutExpire, heldOr, hbmWf_ringTimeout, nextOr]

/-! ### Operations of Machine/Flash -/

@[simp] theorem flashPut_hbm (o l s) : (flashPut o l s).hbm = s.hbm := by rfl
@[simp] theorem linkSave_hbm (l s) : (linkSave l s).hbm = s.hbm := by simp [linkSave, cfgPush_hbm]
@[simp] theorem linkForget_hbm (l s) : (linkForget l s).hbm = s.hbm := by simp [linkForget]
@[simp] theorem linkSwapped_hbm (l s) : (linkSwapped l s).hbm = s.hbm := by simp [linkSwapped]

/-! ### Operations of Machine/Link -/

@[simp] theorem modL_hbm (l f s) : (modL l f s).hbm = s.hbm := by simp [modL]
@[simp] theorem setLF_hbm (l f v s) : (setLF l f v s).hbm = s.hbm := by simp [setLF]
@[simp] theorem bumpLF_hbm (l f n s) : (bumpLF l f n s).hbm = s.hbm := by simp [bumpLF, bump_hbm]
@[simp] theorem linkDiscard_hbm (l s) : (linkDiscard l s).hbm = s.hbm := by simp [linkDiscard]

@[simp] theorem lnkEv_hbm (i l) {f : State → State} (h : ∀ s, (f s).hbm = s.hbm) (s) : (nextOr s (lnkEv i l f s)).hbm = s.hbm := by
  unfold lnkEv; simp [h]

@[simp] theorem retrainNow_hbm (l s) : (retrainNow l s).hbm = s.hbm := by simp [retrainNow]
@[simp] theorem startRetrain_hbm (l s) : (startRetrain l s).hbm = s.hbm := by simp [startRetrain]
@[simp] theorem clockDetect_hbm (l fast s) : (clockDetect l fast s).hbm = s.hbm := by simp [clockDetect]
@[simp] theorem takePartner_hbm (l s) : (takePartner l s).hbm = s.hbm := by simp [takePartner]
@[simp] theorem testStart_hbm (l running far s) : (testStart l running far s).hbm = s.hbm := by simp [testStart]
@[simp] theorem trainOn_hbm (l fast s) : (trainOn l fast s).hbm = s.hbm := by simp [trainOn]
@[simp] theorem startTraining_hbm (l full s) : (startTraining l full s).hbm = s.hbm := by simp [startTraining]
@[simp] theorem setTopo_hbm (l v s) : (setTopo l v s).hbm = s.hbm := by simp [setTopo]
@[simp] theorem linkFailed_hbm (l s) : (linkFailed l s).hbm = s.hbm := by simp [linkFailed]
@[simp] theorem trainFail_hbm (l cause s) : (trainFail l cause s).hbm = s.hbm := by simp [trainFail]
@[simp] theorem topoCompare_hbm (l s) : (topoCompare l s).hbm = s.hbm := by simp [topoCompare]
@[simp] theorem topoPacket_hbm (kind dst s) : (topoPacket kind dst s).hbm = s.hbm := by simp [topoPacket]
@[simp] theorem releaseLink_hbm (l s) : (releaseLink l s).hbm = s.hbm := by simp [releaseLink]
@[simp] theorem stepDone_hbm (n s) : (stepDone n s).hbm = s.hbm := by simp [stepDone]
@[simp] theorem stepBegin_hbm (n s) : (stepBegin n s).hbm = s.hbm := by simp [stepBegin]
@[simp] theorem bootEnd_hbm (state cause s) : (bootEnd state cause s).hbm = s.hbm := by simp [bootEnd]
@[simp] theorem bootReady_hbm (s) : (bootReady s).hbm = s.hbm := by simp [bootReady]
@[simp] theorem bootHoldAt_hbm (cause s) : (bootHoldAt cause s).hbm = s.hbm := by simp [bootHoldAt]
@[simp] theorem reportMismatch_hbm (s) : (reportMismatch s).hbm = s.hbm := by simp [reportMismatch]
@[simp] theorem topoDecide_hbm (s) : (topoDecide s).hbm = s.hbm := by simp [topoDecide]
@[simp] theorem linkHeld_hbm (l s) : (linkHeld l s).hbm = s.hbm := by simp [linkHeld]
@[simp] theorem identified_hbm (l s) : (identified l s).hbm = s.hbm := by simp [identified]
@[simp] theorem linkEnable_hbm (l s) : (linkEnable l s).hbm = s.hbm := by simp [linkEnable]
@[simp] theorem execLinkEnable_hbm (l s) : (nextOr s (execLinkEnable l s)).hbm = s.hbm := by simp [execLinkEnable]
@[simp] theorem linkDisable_hbm (l s) : (linkDisable l s).hbm = s.hbm := by simp [linkDisable]
@[simp] theorem execLinkDisable_hbm (l s) : (nextOr s (execLinkDisable l s)).hbm = s.hbm := by simp [execLinkDisable]

@[simp] theorem inLSt_hbm (i l st) {f : State → State} (h : ∀ s, (f s).hbm = s.hbm) (s) : (nextOr s (inLSt i l st f s)).hbm = s.hbm := by
  unfold inLSt; simp [h]

@[simp] theorem execLinkPowerUpDone_hbm (l s) : (nextOr s (execLinkPowerUpDone l s)).hbm = s.hbm := by simp [execLinkPowerUpDone]

@[simp] theorem execPartnerClockDetected_hbm (l lanes s) : (nextOr s (execPartnerClockDetected l lanes s)).hbm = s.hbm := by
  simp [execPartnerClockDetected]

@[simp] theorem execPartnerRateAlternate_hbm (l s) : (nextOr s (execPartnerRateAlternate l s)).hbm = s.hbm := by
  simp [execPartnerRateAlternate]

@[simp] theorem execNoPartnerTimer_hbm (l s) : (nextOr s (execNoPartnerTimer l s)).hbm = s.hbm := by simp [execNoPartnerTimer]
@[simp] theorem execEqCoarseDone_hbm (l s) : (nextOr s (execEqCoarseDone l s)).hbm = s.hbm := by simp [execEqCoarseDone]
@[simp] theorem execSettingsRestored_hbm (l s) : (nextOr s (execSettingsRestored l s)).hbm = s.hbm := by simp [execSettingsRestored]

@[simp] theorem execBlockLockDone_hbm (l lanes skew hdrs s) : (nextOr s (execBlockLockDone l lanes skew hdrs s)).hbm = s.hbm := by
  simp [execBlockLockDone]

@[simp] theorem enterIdentify_hbm (l s) : (enterIdentify l s).hbm = s.hbm := by simp [enterIdentify]
@[simp] theorem execEqFineDone_hbm (l errs s) : (nextOr s (execEqFineDone l errs s)).hbm = s.hbm := by simp [execEqFineDone]

@[simp] theorem notePartner_hbm (n chip valid link lx7 serial s) : (notePartner n chip valid link lx7 serial s).hbm = s.hbm := by
  simp [notePartner]

@[simp] theorem execIdentifyDone_hbm (l chip valid link lx7 serial s) :
    (nextOr s (execIdentifyDone l chip valid link lx7 serial s)).hbm = s.hbm := by
  simp [execIdentifyDone]

@[simp] theorem execLinkStateTimeout_hbm (l s) : (nextOr s (execLinkStateTimeout l s)).hbm = s.hbm := by
  grind [execLinkStateTimeout, lnkEv, trainFail_hbm, heldOr, nextOr]

@[simp] theorem enterTest_hbm (l far running s) : (enterTest l far running s).hbm = s.hbm := by simp [enterTest]
@[simp] theorem farAsked_hbm (l s) : (farAsked l s).hbm = s.hbm := by simp [farAsked]

@[simp] theorem execLaneMsgReceived_hbm (l lane block asks s) : (nextOr s (execLaneMsgReceived l lane block asks s)).hbm = s.hbm := by
  grind [execLaneMsgReceived, lnkEv, bumpLF_hbm, retrainNow_hbm, farAsked_hbm, setLF_hbm, heldOr, nextOr]

@[simp] theorem execRetrainDone_hbm (l fin s) : (nextOr s (execRetrainDone l fin s)).hbm = s.hbm := by simp [execRetrainDone]

@[simp] theorem execBlockLockLost_hbm (l lane hdrs s) : (nextOr s (execBlockLockLost l lane hdrs s)).hbm = s.hbm := by
  simp [execBlockLockLost]

@[simp] theorem execAlignmentLost_hbm (l s) : (nextOr s (execAlignmentLost l s)).hbm = s.hbm := by simp [execAlignmentLost]

@[simp] theorem execLinkClockLaneLost_hbm (l lane s) : (nextOr s (execLinkClockLaneLost l lane s)).hbm = s.hbm := by
  simp [execLinkClockLaneLost]

@[simp] theorem execLnkRetrain_hbm (l s) : (nextOr s (execLnkRetrain l s)).hbm = s.hbm := by simp [execLnkRetrain]
@[simp] theorem execLnkSave_hbm (l s) : (nextOr s (execLnkSave l s)).hbm = s.hbm := by simp [execLnkSave]
@[simp] theorem execLnkRetry_hbm (l s) : (nextOr s (execLnkRetry l s)).hbm = s.hbm := by simp [execLnkRetry]
@[simp] theorem execLnkForget_hbm (l s) : (nextOr s (execLnkForget l s)).hbm = s.hbm := by simp [execLnkForget]
@[simp] theorem endTest_hbm (l s) : (endTest l s).hbm = s.hbm := by simp [endTest]
@[simp] theorem testMode_hbm (l mode s) : (testMode l mode s).hbm = s.hbm := by simp [testMode]
@[simp] theorem testCtl_hbm (l v s) : (testCtl l v s).hbm = s.hbm := by simp [testCtl]
@[simp] theorem execLnkTestCtlWrite_hbm (l v s) : (nextOr s (execLnkTestCtlWrite l v s)).hbm = s.hbm := by simp [execLnkTestCtlWrite]
@[simp] theorem execFarLoopRequest_hbm (l s) : (nextOr s (execFarLoopRequest l s)).hbm = s.hbm := by simp [execFarLoopRequest]

@[simp] theorem execTestCheckerSync_hbm (l lane errs s) : (nextOr s (execTestCheckerSync l lane errs s)).hbm = s.hbm := by
  simp [execTestCheckerSync]

@[simp] theorem execLinkDegradedCheck_hbm (l lane corrected bytes s) :
    (nextOr s (execLinkDegradedCheck l lane corrected bytes s)).hbm = s.hbm := by
  unfold execLinkDegradedCheck
  rw [nextOr_next]
  split
  · unfold every
    split
    · split
      · exact (logLimited_hbm ..).trans (timerSet_hbm ..)
      · exact timerSet_hbm ..
    · rfl
  · rfl

@[simp] theorem execLinkTrainingStepEnd_hbm (s) : (nextOr s (execLinkTrainingStepEnd s)).hbm = s.hbm := by simp [execLinkTrainingStepEnd]
@[simp] theorem execDiscoveryWaitExpire_hbm (s) : (nextOr s (execDiscoveryWaitExpire s)).hbm = s.hbm := by simp [execDiscoveryWaitExpire]
@[simp] theorem ctrlTake_hbm (p s) : (ctrlTake p s).hbm = s.hbm := by rfl

@[simp] theorem execTopoProbeReceived_hbm (s) : (nextOr s (execTopoProbeReceived s)).hbm = s.hbm := by
  grind [execTopoProbeReceived, topoPacket_hbm, ctrlTake_hbm, nextOr]

@[simp] theorem topoReply_hbm (p s) : (topoReply p s).hbm = s.hbm := by simp [topoReply]

@[simp] theorem execTopoReplyReceived_hbm (s) : (nextOr s (execTopoReplyReceived s)).hbm = s.hbm := by
  grind [execTopoReplyReceived, topoReply_hbm, nextOr]

@[simp] theorem probeAgain_hbm (l s) : (probeAgain l s).hbm = s.hbm := by simp [probeAgain]
@[simp] theorem execTopoProbeTimer_hbm (l s) : (nextOr s (execTopoProbeTimer l s)).hbm = s.hbm := by simp [execTopoProbeTimer]

/-! ### Operations of Machine/Router -/

@[simp] theorem bufferFree_hbm (inp code n s) : (bufferFree inp code n s).hbm = s.hbm := by simp [bufferFree]
@[simp] theorem noRouteReply_hbm (p s) : (noRouteReply p s).hbm = s.hbm := by simp [noRouteReply]
@[simp] theorem dropPacket_hbm (f reply p s) : (dropPacket f reply p s).hbm = s.hbm := by simp [dropPacket, bump_hbm, logLimited_hbm]
@[simp] theorem remoteRequest_hbm (link p s) : (remoteRequest link p s).hbm = s.hbm := by simp [remoteRequest]
@[simp] theorem responseIn_hbm (p s) : (responseIn p s).hbm = s.hbm := by grind [responseIn, setReq_hbm]
@[simp] theorem deliver_hbm (link p s) : (deliver link p s).hbm = s.hbm := by simp [deliver, bump_hbm]
@[simp] theorem enqueue_hbm (l id inp code p s) : (enqueue l id inp code p s).hbm = s.hbm := by rfl
@[simp] theorem enqueueLocal_hbm (o id inp code p s) : (enqueueLocal o id inp code p s).hbm = s.hbm := by rfl
@[simp] theorem fanOut_hbm (inp id code p out s) : (fanOut inp id code p out s).hbm = s.hbm := by simp [fanOut]

@[simp] theorem routePacket_hbm (inp p s) : (routePacket inp p s).hbm = s.hbm := by
  grind [routePacket, bufferFree_hbm, dropPacket_hbm, enqueueLocal_hbm, fanOut_hbm, enqueue_hbm]

@[simp] theorem execPacketArrival_hbm (port s) : (nextOr s (execPacketArrival port s)).hbm = s.hbm := by
  grind [execPacketArrival, routePacket_hbm, nextOr]

@[simp] theorem dequeue_hbm (l q s) : (dequeue l q s).hbm = s.hbm := by simp [dequeue]
@[simp] theorem tickHeads_hbm (s) : (tickHeads s).hbm = s.hbm := by rfl

@[simp] theorem execHeadlandMove_hbm (l s) : (nextOr s (execHeadlandMove l s)).hbm = s.hbm := by
  grind [execHeadlandMove, bump_hbm, bufferFree_hbm, dropPacket_hbm, nextOr]

@[simp] theorem execLinkDownHoldExpire_hbm (l s) : (nextOr s (execLinkDownHoldExpire l s)).hbm = s.hbm := by
  grind [execLinkDownHoldExpire, dropPacket_hbm, dequeue_hbm, foldl_hbm, nextOr]

@[simp] theorem execFencedPacketRelease_hbm (s) : (nextOr s (execFencedPacketRelease s)).hbm = s.hbm := by
  grind [execFencedPacketRelease, leaveReq_hbm, foldl_hbm, nextOr]

@[simp] theorem rtWrite_hbm (v s) : (rtWrite v s).hbm = s.hbm := by simp [rtWrite, bump_hbm]
@[simp] theorem execFabRtDataWrite_hbm (v s) : (nextOr s (execFabRtDataWrite v s)).hbm = s.hbm := by simp [execFabRtDataWrite]
@[simp] theorem execFabEpochSwitch_hbm (v s) : (nextOr s (execFabEpochSwitch v s)).hbm = s.hbm := by simp [execFabEpochSwitch, bump_hbm]

end Sys2Proof.Machine
end

section
/-! PROOFS. HBM and its form: collectives and the links' data (R212, R228). -/

namespace Sys2Proof.Machine

/-! ### Operations of Machine/CollBase -/

@[simp] theorem groupRead_hbm (g addr s) : (groupRead g addr s).2.hbm = s.hbm := by grind [groupRead, hbmRead_hbm, → hbmRead_next]

theorem groupRead_next {g addr s r0 t0} (h : groupRead g addr s = (r0, t0)) : t0.hbm = s.hbm := by
  have e := groupRead_hbm g addr s
  rw [h] at e
  exact e

@[simp] theorem execColGroupDefine_hbm (s) : (nextOr s (execColGroupDefine s)).hbm = s.hbm := by rfl

@[simp] theorem execGroupDefineDone_hbm (s) : (nextOr s (execGroupDefineDone s)).hbm = s.hbm := by
  grind [execGroupDefineDone, groupRead_hbm, → groupRead_next, nextOr]

@[simp] theorem execColGroupUndefine_hbm (s) : (nextOr s (execColGroupUndefine s)).hbm = s.hbm := by grind [execColGroupUndefine, nextOr]

@[simp] theorem execColQuotaWrite_hbm (v s) : (nextOr s (execColQuotaWrite v s)).hbm = s.hbm := by
  grind [execColQuotaWrite, setF_hbm, foldl_hbm, nextOr]

@[simp] theorem execColSlotsWrite_hbm (hi v s) : (nextOr s (execColSlotsWrite hi v s)).hbm = s.hbm := by
  grind [execColSlotsWrite, setF_hbm, foldl_hbm, nextOr]

@[simp] theorem setColl_hbm (n c s) : (setColl n c s).hbm = s.hbm := by rfl
@[simp] theorem modColl_hbm (n f s) : (modColl n f s).hbm = s.hbm := by grind [modColl, setColl_hbm]
@[simp] theorem delColl_hbm (n s) : (delColl n s).hbm = s.hbm := by rfl
@[simp] theorem collSend_hbm (c dest ph off data s) : (collSend c dest ph off data s).hbm = s.hbm := by simp [collSend]
@[simp] theorem collGrant_hbm (c dest n s) : (collGrant c dest n s).hbm = s.hbm := by simp [collGrant]

@[simp] theorem collFlush_hbm (n s) : (collFlush n s).hbm = s.hbm := by
  grind [collFlush, setColl_hbm, sendPacket_hbm, collSend_hbm, foldl_hbm]

@[simp] theorem collQueue_hbm (n ps s) : (collQueue n ps s).hbm = s.hbm := by simp [collQueue]
@[simp] theorem collRegrant_hbm (n src k s) : (collRegrant n src k s).hbm = s.hbm := by grind [collRegrant, collGrant_hbm, setColl_hbm]

@[simp] theorem collFail_hbm (n status detail s) : (collFail n status detail s).hbm = s.hbm := by
  grind [collFail, finishCmd_hbm, delColl_hbm]

@[simp] theorem collRead_hbm (off n s) : (collRead off n s).2.hbm = s.hbm := by grind [collRead, homeRead_hbm, → homeRead_next]

theorem collRead_next {off n s r0 t0} (h : collRead off n s = (r0, t0)) : t0.hbm = s.hbm := by
  have e := collRead_hbm off n s
  rw [h] at e
  exact e

theorem hbmWf_collWrite (n off l) {s} (h : HbmWf s) : HbmWf (collWrite n off l s) := by
  grind [collWrite, modColl_hbm, hbmWf_homeWrite, collFail_hbm]

theorem hbmWf_collOut (n o l) {s} (h : HbmWf s) : HbmWf (collOut n o l s) := by
  grind [collOut, modColl_hbm, hbmWf_collWrite]

@[simp] theorem revokeAll_hbm (c chip pos s) : (revokeAll c chip pos s).hbm = s.hbm := by simp [revokeAll, bump_hbm]
@[simp] theorem revokeRoot_hbm (c s) : (revokeRoot c s).hbm = s.hbm := by simp [revokeRoot, bump_hbm]

theorem hbmWf_lateAdd (r k) {s} (h : HbmWf s) : HbmWf (lateAdd r k s) := by
  grind [lateAdd, modR_hbm, hbmWf_postLate, hbmWf_postDue]

theorem hbmWf_collLearn (n chip) {s} (h : HbmWf s) : HbmWf (collLearn n chip s) := by
  grind [collLearn, setColl_hbm, hbmWf_lateAdd, modColl_hbm, modCmd_hbm]

theorem hbmWf_collDetect (n lane) {s} (h : HbmWf s) : HbmWf (collDetect n lane s) := by
  grind [collDetect, logEv_hbm, bump_hbm, revokeAll_hbm, revokeRoot_hbm, hbmWf_collLearn]

theorem hbmWf_collCapEnd (n c) {s} (h : HbmWf s) : HbmWf (collCapEnd n c s) := by
  grind [collCapEnd, bump_hbm, hbmWf_collWrite, foldl_hbm]

theorem hbmWf_collSettle (n) {s} (h : HbmWf s) : HbmWf (collSettle n s) := by
  grind [collSettle, hbmWf_collCapEnd, finishCmd_hbm, modColl_hbm, modCmd_hbm, hbmWf_collDetect, tick1_hbm]

@[simp] theorem stripStart_hbm (n t s) : (stripStart n t s).hbm = s.hbm := by grind [stripStart, collQueue_hbm]

@[simp] theorem stripNext_hbm (n k s) : (stripNext n k s).hbm = s.hbm := by
  induction k generalizing s with
  | zero => rfl
  | succ k ih =>
    unfold stripNext
    split
    · rfl
    · simp [ih]

theorem hbmWf_stripGot (n t k) {s} (h : HbmWf s) : HbmWf (stripGot n t k s) := by
  grind [stripGot, modColl_hbm, hbmWf_collSettle, stripNext_hbm]

theorem hbmWf_collFinal (n x l) {s} (h : HbmWf s) : HbmWf (collFinal n x l s) := by
  grind [collFinal, modColl_hbm, hbmWf_collOut, collQueue_hbm, foldl_hbm]

/-! ### Operations of Machine/Coll -/

@[simp] theorem collJoin_hbm (r i d g mine s) : (collJoin r i d g mine s).hbm = s.hbm := by simp [collJoin]

@[simp] theorem collStart_hbm (r i d s) : (collStart r i d s).hbm = s.hbm := by
  grind [collStart, collJoin_hbm, collRead_hbm, → collRead_next, finishCmd_hbm, refuseCmd_hbm]

@[simp] theorem execCmdCollective_hbm (ring s) : (nextOr s (execCmdCollective ring s)).hbm = s.hbm := by simp [execCmdCollective]
@[simp] theorem collReady_hbm (n s) : (collReady n s).hbm = s.hbm := by grind [collReady, collGrant_hbm, modColl_hbm, foldl_hbm]

theorem hbmWf_collOwnRows (n c rows first) {s} (h : HbmWf s) : HbmWf (collOwnRows n c rows first s) := by
  grind [collOwnRows, hbmWf_collOut]

theorem hbmWf_collGrantRows (n) {s} (h : HbmWf s) : HbmWf (collGrantRows n s) := by
  unfold collGrantRows
  split
  · exact h
  · refine hbmWf_foldl (fun s x h => ?_) _ h
    exact hbmWf_ite (hbmWf_collOwnRows _ _ _ _ (hbmWf_of_eq (by simp) h)) (hbmWf_of_eq (by simp) h)

@[simp] theorem collCounts_hbm (c l s) : (collCounts c l s).hbm = s.hbm := by simp [collCounts]

theorem hbmWf_collBegin (n data) {s} (h : HbmWf s) : HbmWf (collBegin n data s) := by
  unfold collBegin
  split
  · exact h
  · refine hbmWf_ite ?_ (hbmWf_ite ?_ (hbmWf_ite ?_ (hbmWf_ite ?_ (hbmWf_ite ?_ ?_))))
    · refine hbmWf_stripGot _ _ _ (hbmWf_ite (hbmWf_collFinal _ _ _ ?_) ?_) <;> exact hbmWf_of_eq (by simp) h
    · exact hbmWf_stripGot _ _ _ (hbmWf_collOut _ _ _ (hbmWf_of_eq (by simp) h))
    · exact hbmWf_collSettle _ (hbmWf_of_eq (collQueue_hbm ..) (hbmWf_collOut _ _ _ (hbmWf_of_eq (by simp) h)))
    · exact hbmWf_collSettle _ (hbmWf_collGrantRows _ (hbmWf_of_eq (by simp) h))
    all_goals exact hbmWf_of_eq (by simp) h

theorem hbmWf_execCollAdmit (p) {s} (h : HbmWf s) : HbmWf (nextOr s (execCollAdmit p s)) := by
  unfold execCollAdmit
  split
  · exact h
  · dsimp only
    split
    · exact hbmWf_of_eq (by simp) h
    · split
      · exact h
      · split <;> rename_i e <;> have k := collRead_next e
        · exact hbmWf_of_eq (by simp [k, bump_hbm]) h
        · exact hbmWf_collBegin _ _ (hbmWf_of_eq (by simp [k, bump_hbm]) h)

@[simp] theorem collStray_hbm (s) : (collStray s).hbm = s.hbm := by simp [collStray, bump_hbm]

@[simp] theorem collTake_hbm (typ ph) {f : Nat → Coll → Nat → Nat → List Byte → State → State} (h : ∀ n c i a d s,
    (f n c i a d s).hbm = s.hbm) (s) :
    (nextOr s (collTake typ ph f s)).hbm = s.hbm := by
  unfold collTake
  split
  · rfl
  · dsimp only
    split
    · simp
    · split <;> simp [h]

theorem hbmWf_collTake (typ ph) {f : Nat → Coll → Nat → Nat → List Byte → State → State}
    (hf : ∀ n c i a d s, HbmWf s → HbmWf (f n c i a d s)) {s} (h : HbmWf s) : HbmWf (nextOr s (collTake typ ph f s)) := by
  unfold collTake
  split
  · exact h
  · dsimp only
    split
    · exact hbmWf_of_eq (collStray_hbm _) h
    · split
      · exact hf _ _ _ _ _ _ h
      · exact hbmWf_of_eq (collStray_hbm _) h

theorem hbmWf_execCollRsSegment {s} (h : HbmWf s) : HbmWf (nextOr s (execCollRsSegment s)) := by
  refine hbmWf_collTake _ _ (fun n c i a d s h => hbmWf_ite (hbmWf_of_eq (by simp) h) ?_) h
  refine hbmWf_stripGot _ _ _ (hbmWf_of_eq (collRegrant_hbm ..) (hbmWf_ite (hbmWf_collFinal _ _ _ ?_) ?_)) <;> exact hbmWf_of_eq (by simp) h

theorem hbmWf_execCollAgSegment {s} (h : HbmWf s) : HbmWf (nextOr s (execCollAgSegment s)) := by
  refine hbmWf_collTake _ _ (fun n c i a d s h => hbmWf_ite (hbmWf_of_eq (by simp) h) ?_) h
  exact hbmWf_stripGot _ _ _ (hbmWf_of_eq (by simp) (hbmWf_collOut n a d h))

theorem hbmWf_execCollRowCount {s} (h : HbmWf s) : HbmWf (nextOr s (execCollRowCount s)) :=
  hbmWf_collTake _ _ (fun _ _ _ _ _ _ h => hbmWf_ite (hbmWf_of_eq (by simp) h)
    (hbmWf_collSettle _ (hbmWf_collGrantRows _ (hbmWf_of_eq (by simp) h)))) h

theorem hbmWf_execCollGrant {s} (h : HbmWf s) : HbmWf (nextOr s (execCollGrant s)) :=
  hbmWf_collTake _ _ (fun _ _ _ _ _ _ h => hbmWf_ite (hbmWf_of_eq (by simp) h) (hbmWf_collSettle _ (hbmWf_of_eq (by simp) h))) h

theorem hbmWf_execCollRowData {s} (h : HbmWf s) : HbmWf (nextOr s (execCollRowData s)) :=
  hbmWf_collTake _ _ (fun n _ _ o l _ h => hbmWf_ite (hbmWf_of_eq (by simp) h)
    (hbmWf_collSettle _ (hbmWf_of_eq (by simp) (hbmWf_collOut n o l h)))) h

@[simp] theorem execCollReadyGrant_hbm (s) : (nextOr s (execCollReadyGrant s)).hbm = s.hbm :=
  collTake_hbm _ _ (fun n c i a l s => by grind [collFail_hbm, logEv_hbm, collCounts_hbm, collFlush_hbm, setColl_hbm]) _

theorem hbmWf_execMcWriteReceived {s} (h : HbmWf s) : HbmWf (nextOr s (execMcWriteReceived s)) :=
  hbmWf_collTake _ _ (fun n _ _ o l _ h => hbmWf_ite (hbmWf_of_eq (by simp) h)
    (hbmWf_collSettle _ (hbmWf_of_eq (by simp) (hbmWf_collOut n o l h)))) h

theorem hbmWf_execResidueCheckResult (g seq lane failed) {s} (h : HbmWf s) :
    HbmWf (nextOr s (execResidueCheckResult g seq lane failed s)) := by
  grind [execResidueCheckResult, hbmWf_collDetect, nextOr]

@[simp] theorem execRevokeToRootReceived_hbm (s) : (nextOr s (execRevokeToRootReceived s)).hbm = s.hbm := by
  grind [execRevokeToRootReceived, ctrlTake_hbm, revokeAll_hbm, collStray_hbm, nextOr]

theorem hbmWf_execRevokeReceived {s} (h : HbmWf s) : HbmWf (nextOr s (execRevokeReceived s)) := by
  grind [execRevokeReceived, bump_hbm, ctrlTake_hbm, logEv_hbm, hbmWf_collLearn, nextOr]

theorem hbmWf_execSettleWindowExpire (g seq) {s} (h : HbmWf s) : HbmWf (nextOr s (execSettleWindowExpire g seq s)) := by
  grind [execSettleWindowExpire, heldOr, delColl_hbm, setColl_hbm, hbmWf_lateAdd, nextOr]

@[simp] theorem collWaiting_hbm (ns s) : (collWaiting ns s).hbm = s.hbm := by simp [collWaiting, bump_hbm]

/-! ### Operations of Machine/LinkData -/

@[simp] theorem serveLocal_hbm (o n s) : (serveLocal o n s).hbm = s.hbm := by
  induction n generalizing s with
  | zero => rfl
  | succ n ih =>
    unfold serveLocal
    split <;> simp [ih]

@[simp] theorem tickLocal_hbm (s) : (tickLocal s).hbm = s.hbm := by simp [tickLocal]
@[simp] theorem startPacket_hbm (l e s) : (startPacket l e s).hbm = s.hbm := by simp [startPacket, bump_hbm]

@[simp] theorem fillGroup_hbm (l n room s) : (fillGroup l n room s).2.hbm = s.hbm := by
  induction n generalizing room s with
  | zero => rfl
  | succ n ih =>
    unfold fillGroup
    repeat' split
    all_goals simp [ih]

theorem fillGroup_next {l n room s r t'} (h : fillGroup l n room s = (r, t')) : t'.hbm = s.hbm := by
  have e := fillGroup_hbm l n room s
  rw [h] at e
  exact e

@[simp] theorem sendGroup_hbm (l g s) : (sendGroup l g s).hbm = s.hbm := by simp [sendGroup]

@[simp] theorem slotActive_hbm (l s) : (slotActive l s).hbm = s.hbm := by
  grind [slotActive, sendGroup_hbm, bumpLF_hbm, modL_hbm, fillGroup_hbm, → fillGroup_next]

@[simp] theorem backToSleep_hbm (l s) : (backToSleep l s).hbm = s.hbm := by simp [backToSleep]
@[simp] theorem sendPrbs_hbm (l long s) : (sendPrbs l long s).hbm = s.hbm := by simp [sendPrbs]
@[simp] theorem slotTest_hbm (l s) : (slotTest l s).hbm = s.hbm := by simp [slotTest]
@[simp] theorem passSlot_hbm (l s) : (passSlot l s).hbm = s.hbm := by simp [passSlot]

@[simp] theorem execGroupSlot_hbm (l s) : (nextOr s (execGroupSlot l s)).hbm = s.hbm := by
  grind [execGroupSlot, passSlot_hbm, backToSleep_hbm, sendGroup_hbm, slotActive_hbm, modL_hbm, sendPrbs_hbm, slotTest_hbm, nextOr]

@[simp] theorem periodRows_hbm (l s) : (periodRows l s).hbm = s.hbm := by simp [periodRows]

@[simp] theorem execPeriodStart_hbm (l s) : (nextOr s (execPeriodStart l s)).hbm = s.hbm := by
  grind [execPeriodStart, modL_hbm, periodRows_hbm, nextOr]

@[simp] theorem takeAck_hbm (l ack s) : (takeAck l ack s).hbm = s.hbm := by simp [takeAck]
@[simp] theorem takeNak_hbm (l ack s) : (takeNak l ack s).hbm = s.hbm := by simp [takeNak]
@[simp] theorem takeControl_hbm (l g s) : (takeControl l g s).hbm = s.hbm := by simp [takeControl]
@[simp] theorem groupLost_hbm (l s) : (groupLost l s).hbm = s.hbm := by simp [groupLost]
@[simp] theorem fecCounts_hbm (l x s) : (fecCounts l x s).hbm = s.hbm := by simp [fecCounts]
@[simp] theorem acceptData_hbm (l g s) : (acceptData l g s).hbm = s.hbm := by simp [acceptData]
@[simp] theorem takeGroup_hbm (l g s) : (takeGroup l g s).hbm = s.hbm := by simp [takeGroup]

@[simp] theorem execGroupReceived_hbm (l rx s) : (nextOr s (execGroupReceived l rx s)).hbm = s.hbm := by
  grind [execGroupReceived, modL_hbm, fecCounts_hbm, groupLost_hbm, takeGroup_hbm, nextOr]

@[simp] theorem execNakRepeatTimer_hbm (l s) : (nextOr s (execNakRepeatTimer l s)).hbm = s.hbm := by simp [execNakRepeatTimer]
@[simp] theorem replayAll_hbm (l s) : (replayAll l s).hbm = s.hbm := by simp [replayAll]
@[simp] theorem execReplayTimeout_hbm (l s) : (nextOr s (execReplayTimeout l s)).hbm = s.hbm := by simp [execReplayTimeout]
@[simp] theorem tickIdle_hbm (l s) : (tickIdle l s).hbm = s.hbm := by simp [tickIdle]
@[simp] theorem execFallowEnter_hbm (l s) : (nextOr s (execFallowEnter l s)).hbm = s.hbm := by simp [execFallowEnter]
@[simp] theorem execSleepReceived_hbm (l s) : (nextOr s (execSleepReceived l s)).hbm = s.hbm := by simp [execSleepReceived]
@[simp] theorem wakeTx_hbm (l brief s) : (wakeTx l brief s).hbm = s.hbm := by simp [wakeTx]
@[simp] theorem execFallowWake_hbm (l s) : (nextOr s (execFallowWake l s)).hbm = s.hbm := by simp [execFallowWake]
@[simp] theorem execFallowSleepLimit_hbm (l s) : (nextOr s (execFallowSleepLimit l s)).hbm = s.hbm := by simp [execFallowSleepLimit]
@[simp] theorem execFallowAwakeHoldEnd_hbm (l s) : (nextOr s (execFallowAwakeHoldEnd l s)).hbm = s.hbm := by simp [execFallowAwakeHoldEnd]
@[simp] theorem execWakeReceived_hbm (l s) : (nextOr s (execWakeReceived l s)).hbm = s.hbm := by simp [execWakeReceived]
@[simp] theorem execWakeLockTimeout_hbm (l s) : (nextOr s (execWakeLockTimeout l s)).hbm = s.hbm := by simp [execWakeLockTimeout]
@[simp] theorem execLnkWake_hbm (l s) : (nextOr s (execLnkWake l s)).hbm = s.hbm := by simp [execLnkWake]
@[simp] theorem execLegacyIdleRequest_hbm (l s) : (nextOr s (execLegacyIdleRequest l s)).hbm = s.hbm := by simp [execLegacyIdleRequest]

@[simp] theorem execLegacyIdleReceived_hbm (l grant s) : (nextOr s (execLegacyIdleReceived l grant s)).hbm = s.hbm := by
  simp [execLegacyIdleReceived]

@[simp] theorem execLegacyIdleLapse_hbm (l s) : (nextOr s (execLegacyIdleLapse l s)).hbm = s.hbm := by simp [execLegacyIdleLapse]
@[simp] theorem execTrainingBurst_hbm (l s) : (nextOr s (execTrainingBurst l s)).hbm = s.hbm := by simp [execTrainingBurst]

@[simp] theorem execTrainingBurstReceived_hbm (l s) : (nextOr s (execTrainingBurstReceived l s)).hbm = s.hbm := by
  simp [execTrainingBurstReceived]

end Sys2Proof.Machine
end

section
/-! PROOFS. HBM and its form: power, rails, firmware and bring-up (R212, R228). -/

namespace Sys2Proof.Machine

/-! ### Operations of Machine/Power -/

@[simp] theorem modP_hbm (f s) : (modP f s).hbm = s.hbm := by rfl
@[simp] theorem modClk_hbm (d f s) : (modClk d f s).hbm = s.hbm := by simp [modClk]
@[simp] theorem capFinish_hbm (status aux s) : (capFinish status aux s).hbm = s.hbm := by simp [capFinish]

@[simp] theorem setLimits_hbm (s) : (setLimits s).hbm = s.hbm := by
  unfold setLimits
  dsimp only
  repeat' split
  all_goals simp

@[simp] theorem capSet_hbm (o v s) : (capSet o v s).hbm = s.hbm := by
  cases o <;> simp [capSet]

@[simp] theorem capHold_hbm (o win held s) : (capHold o win held s).hbm = s.hbm := by
  unfold capHold
  split <;> simp

@[simp] theorem capOpen_hbm (o held s) : (capOpen o held s).hbm = s.hbm := by simp [capOpen]
@[simp] theorem capWrite_hbm (o v s) : (capWrite o v s).hbm = s.hbm := by simp [capWrite]

@[simp] theorem capWindowEnd_hbm (o s) : (capWindowEnd o s).hbm = s.hbm := by
  grind [capWindowEnd, capHold_hbm, capSet_hbm, capOpen_hbm, foldl_hbm]

@[simp] theorem execPwrCapHostWrite_hbm (v s) : (nextOr s (execPwrCapHostWrite v s)).hbm = s.hbm := by simp [execPwrCapHostWrite]
@[simp] theorem execCapWindowExpire_hbm (o s) : (nextOr s (execCapWindowExpire o s)).hbm = s.hbm := by simp [execCapWindowExpire]
@[simp] theorem execCmdPowerCap_hbm (ring s) : (nextOr s (execCmdPowerCap ring s)).hbm = s.hbm := by simp [execCmdPowerCap]
@[simp] theorem execFwCapUpdate_hbm (w s) : (nextOr s (execFwCapUpdate w s)).hbm = s.hbm := by simp [execFwCapUpdate]

@[simp] theorem execPowerEstimateTick_hbm (dyn stat s) : (nextOr s (execPowerEstimateTick dyn stat s)).hbm = s.hbm := by
  simp [execPowerEstimateTick]

@[simp] theorem crossNote_hbm {f : State → State} (h : ∀ s, (f s).hbm = s.hbm) (s) : (crossNote f s).hbm = s.hbm := by
  simp [crossNote, h]

@[simp] theorem gainCorrect_hbm (w v a s) : (gainCorrect w v a s).hbm = s.hbm := by
  grind [gainCorrect, capFinish_hbm, logEv_hbm, setF_hbm, crossNote, timerSet_hbm, modP_hbm]

@[simp] theorem execEstimateGainCorrect_hbm (w v a s) : (nextOr s (execEstimateGainCorrect w v a s)).hbm = s.hbm := by
  simp [execEstimateGainCorrect]

@[simp] theorem retarget_hbm (d s) : (retarget d s).hbm = s.hbm := by simp [retarget]
@[simp] theorem limiterEval_hbm (freq duty s) : (limiterEval freq duty s).hbm = s.hbm := by simp [limiterEval]
@[simp] theorem execLimiterEval_hbm (freq duty s) : (nextOr s (execLimiterEval freq duty s)).hbm = s.hbm := by simp [execLimiterEval]
@[simp] theorem freqStep_hbm (d s) : (freqStep d s).hbm = s.hbm := by simp [freqStep]
@[simp] theorem execFreqStep_hbm (die s) : (nextOr s (execFreqStep die s)).hbm = s.hbm := by simp [execFreqStep]
@[simp] theorem execVoltageSettled_hbm (die s) : (nextOr s (execVoltageSettled die s)).hbm = s.hbm := by simp [execVoltageSettled]
@[simp] theorem execDroopStretch_hbm (die s) : (nextOr s (execDroopStretch die s)).hbm = s.hbm := by simp [execDroopStretch]
@[simp] theorem execDroopWaitExpire_hbm (die s) : (nextOr s (execDroopWaitExpire die s)).hbm = s.hbm := by simp [execDroopWaitExpire]
@[simp] theorem setScaled_hbm (c alloc s) : (setScaled c alloc s).hbm = s.hbm := by simp [setScaled, logLimited_hbm]
@[simp] theorem setAlloc_hbm (use allocs s c) : (setAlloc use allocs s c).hbm = s.hbm := by simp [setAlloc]
@[simp] theorem allocateAll_hbm (demands other use s) : (allocateAll demands other use s).hbm = s.hbm := by simp [allocateAll]

@[simp] theorem execPartitionAllocate_hbm (demands other use s) : (nextOr s (execPartitionAllocate demands other use s)).hbm = s.hbm := by
  simp [execPartitionAllocate]

@[simp] theorem execBrakeAssert_hbm (s) : (nextOr s (execBrakeAssert s)).hbm = s.hbm := by simp [execBrakeAssert]
@[simp] theorem execBrakeRelease_hbm (s) : (nextOr s (execBrakeRelease s)).hbm = s.hbm := by simp [execBrakeRelease]
@[simp] theorem execTampTdpClamp_hbm (s) : (nextOr s (execTampTdpClamp s)).hbm = s.hbm := by simp [execTampTdpClamp]
@[simp] theorem execInputCurrentLimit_hbm (s) : (nextOr s (execInputCurrentLimit s)).hbm = s.hbm := by simp [execInputCurrentLimit]
@[simp] theorem execInputCurrentRelease_hbm (s) : (nextOr s (execInputCurrentRelease s)).hbm = s.hbm := by simp [execInputCurrentRelease]
@[simp] theorem sensorFail_hbm (n s) : (sensorFail n s).hbm = s.hbm := by simp [sensorFail]
@[simp] theorem sensorCount_hbm (s n) : (sensorCount s n).hbm = s.hbm := by simp [sensorCount]
@[simp] theorem divergence_hbm (ns s) : (divergence ns s).hbm = s.hbm := by simp [divergence]
@[simp] theorem loopNote_hbm (d s) : (loopNote d s).hbm = s.hbm := by simp [loopNote]
@[simp] theorem modelTick_hbm (readings models s) : (modelTick readings models s).hbm = s.hbm := by simp [modelTick]

@[simp] theorem execThermalModelTick_hbm (readings models s) : (nextOr s (execThermalModelTick readings models s)).hbm = s.hbm := by
  simp [execThermalModelTick]

@[simp] theorem loopDown_hbm (d s) : (loopDown d s).hbm = s.hbm := by simp [loopDown]

@[simp] theorem execThermalLoopStepDown_hbm (die s) : (nextOr s (execThermalLoopStepDown die s)).hbm = s.hbm := by
  simp [execThermalLoopStepDown]

@[simp] theorem loopUp_hbm (d s) : (loopUp d s).hbm = s.hbm := by simp [loopUp]
@[simp] theorem execThermalLoopStepUp_hbm (die s) : (nextOr s (execThermalLoopStepUp die s)).hbm = s.hbm := by simp [execThermalLoopStepUp]
@[simp] theorem sampleReasons_hbm (s) : (sampleReasons s).hbm = s.hbm := by simp [sampleReasons]
@[simp] theorem countReason_hbm (s i) : (countReason s i).hbm = s.hbm := by simp [countReason, bump_hbm]
@[simp] theorem execThrottleSampleTick_hbm (s) : (nextOr s (execThrottleSampleTick s)).hbm = s.hbm := by simp [execThrottleSampleTick]

/-! ### Operations of Machine/Rails -/

@[simp] theorem ctxsFaulted_hbm (s) : (ctxsFaulted s).hbm = s.hbm := by simp [ctxsFaulted]
@[simp] theorem bootRailsOff_hbm (s) : (bootRailsOff s).hbm = s.hbm := by simp [bootRailsOff]

theorem hbmWf_railsOff (cause) {s} (h : HbmWf s) : HbmWf (railsOff cause s) := by
  grind [railsOff, setB_hbm, setF_hbm, logEv_hbm, modP_hbm, modClk_hbm, hbmWf_diesOff, bootRailsOff_hbm, setLimits_hbm]

theorem hbmWf_execHostOffWrite (v) {s} (h : HbmWf s) : HbmWf (nextOr s (execHostOffWrite v s)) := by
  grind [execHostOffWrite, heldOr, setB_hbm, hbmWf_railsOff, nextOr]

@[simp] theorem hubOff_hbm (s) : (hubOff s).hbm = s.hbm := by simp [hubOff]

theorem hbmWf_execThermalTrip (n) {s} (h : HbmWf s) : HbmWf (nextOr s (execThermalTrip n s)) := by
  grind [execThermalTrip, heldOr, setB_hbm, modP_hbm, hbmWf_railsOff, logEv_hbm, hubOff_hbm, nextOr]

@[simp] theorem ageDie_hbm (d s) : (ageDie d s).hbm = s.hbm := by simp [ageDie]
@[simp] theorem ageRun_hbm (s) : (ageRun s).hbm = s.hbm := by simp [ageRun, bump_hbm, cfgPush_hbm]
@[simp] theorem execAgeingCalibration_hbm (s) : (nextOr s (execAgeingCalibration s)).hbm = s.hbm := by simp [execAgeingCalibration]
@[simp] theorem modPins_hbm (f s) : (modPins f s).hbm = s.hbm := by rfl
@[simp] theorem showCoolant_hbm (s) : (showCoolant s).hbm = s.hbm := by simp [showCoolant]

@[simp] theorem execCoolantOkDeassert_hbm (s) : (nextOr s (execCoolantOkDeassert s)).hbm = s.hbm := by
  simp [execCoolantOkDeassert, bump_hbm]

@[simp] theorem execCoolantOkAssert_hbm (s) : (nextOr s (execCoolantOkAssert s)).hbm = s.hbm := by simp [execCoolantOkAssert]

theorem hbmWf_execCoolantGraceExpire {s} (h : HbmWf s) : HbmWf (nextOr s (execCoolantGraceExpire s)) := by
  grind [execCoolantGraceExpire, heldOr, hbmWf_railsOff, nextOr]

@[simp] theorem coolantCond_hbm (f e now s) : (coolantCond f e now s).hbm = s.hbm := by simp [coolantCond]
@[simp] theorem inletLow_hbm (now s) : (inletLow now s).hbm = s.hbm := by simp [inletLow]

@[simp] theorem execInletTempChange_hbm (t s) : (nextOr s (execInletTempChange t s)).hbm = s.hbm := by
  unfold execInletTempChange
  simp [crossNote]

@[simp] theorem riseSample_hbm (rate s) : (riseSample rate s).hbm = s.hbm := by
  grind [riseSample, setF_hbm, modP_hbm, setLimits_hbm, bump_hbm, coolantCond_hbm]

@[simp] theorem execExcessRiseSample_hbm (rate s) : (nextOr s (execExcessRiseSample rate s)).hbm = s.hbm := by simp [execExcessRiseSample]
@[simp] theorem showLoop_hbm (s) : (showLoop s).hbm = s.hbm := by simp [showLoop]
@[simp] theorem leakBegin_hbm (s) : (leakBegin s).hbm = s.hbm := by simp [leakBegin]

@[simp] theorem execLeakLoopStateChange_hbm (ohms s) : (nextOr s (execLeakLoopStateChange ohms s)).hbm = s.hbm := by
  simp [execLeakLoopStateChange, bump_hbm]

theorem hbmWf_execLeakOffExpire {s} (h : HbmWf s) : HbmWf (nextOr s (execLeakOffExpire s)) := by
  grind [execLeakOffExpire, heldOr, modP_hbm, hbmWf_railsOff, setF_hbm, nextOr]

@[simp] theorem execCoolantSensorCrosscheck_hbm (s) : (nextOr s (execCoolantSensorCrosscheck s)).hbm = s.hbm := by
  simp [execCoolantSensorCrosscheck]

@[simp] theorem execRackRefreshTimeout_hbm (s) : (nextOr s (execRackRefreshTimeout s)).hbm = s.hbm := by simp [execRackRefreshTimeout]
@[simp] theorem execOrphanTimeout_hbm (s) : (nextOr s (execOrphanTimeout s)).hbm = s.hbm := by simp [execOrphanTimeout]
@[simp] theorem execInputSag_hbm (s) : (nextOr s (execInputSag s)).hbm = s.hbm := by simp [execInputSag]
@[simp] theorem execInputRecover_hbm (s) : (nextOr s (execInputRecover s)).hbm = s.hbm := by simp [execInputRecover]

theorem hbmWf_execUndervoltage {s} (h : HbmWf s) : HbmWf (nextOr s (execUndervoltage s)) := by
  grind [execUndervoltage, heldOr, hbmWf_railsOff, modPins_hbm, nextOr]

theorem hbmWf_execOvervoltage {s} (h : HbmWf s) : HbmWf (nextOr s (execOvervoltage s)) := by
  grind [execOvervoltage, heldOr, hbmWf_railsOff, modPins_hbm, nextOr]

/-! ### Operations of Machine/Firmware -/

@[simp] theorem showBundle_hbm (ws s) : (showBundle ws s).hbm = s.hbm := by grind [showBundle, setF_hbm, foldl_hbm]
@[simp] theorem hdrPut_hbm (h s) : (hdrPut h s).hbm = s.hbm := by simp [hdrPut]
@[simp] theorem actFail_hbm (cause s) : (actFail cause s).hbm = s.hbm := by simp [actFail]
@[simp] theorem ageKeep_hbm (s) : (ageKeep s).hbm = s.hbm := by rfl
@[simp] theorem settingsKeep_hbm (s) : (settingsKeep s).hbm = s.hbm := by rfl
@[simp] theorem settingsWritten_hbm (s) : (settingsWritten s).hbm = s.hbm := by simp [settingsWritten, cfgPush_hbm]

@[simp] theorem cfgAfter_hbm (a s) : (cfgAfter a s).hbm = s.hbm := by
  unfold cfgAfter
  split <;> simp

@[simp] theorem cfgWrites_hbm (op s) : (cfgWrites op s).hbm = s.hbm := by simp [cfgWrites]
@[simp] theorem cfgDone_hbm (op s) : (cfgDone op s).hbm = s.hbm := by simp [cfgDone]
@[simp] theorem cfgFlush_hbm (s) : (cfgFlush s).hbm = s.hbm := by simp [cfgFlush]

/-! ### Operations of Machine/Boot -/

@[simp] theorem bootSlot_hbm (slot fallback s) : (bootSlot slot fallback s).hbm = s.hbm := by simp [bootSlot]
@[simp] theorem bootRecovery_hbm (s) : (bootRecovery s).hbm = s.hbm := by simp [bootRecovery]

@[simp] theorem romChoice_hbm (s) : (romChoice s).2.2.hbm = s.hbm := by
  unfold romChoice
  dsimp only
  repeat' split
  all_goals simp

theorem romChoice_next {s r0 q0 t0} (h : romChoice s = (r0, q0, t0)) : t0.hbm = s.hbm := by
  have e := romChoice_hbm s
  rw [h] at e
  exact e

@[simp] theorem coldTrial_hbm (s) : (coldTrial s).hbm = s.hbm := by simp [coldTrial]
@[simp] theorem loadF_hbm (fs v s) : (loadF fs v s).hbm = s.hbm := by grind [loadF, setF_hbm, foldl_hbm]
@[simp] theorem licLoad_hbm (l s) : (licLoad l s).hbm = s.hbm := by simp [licLoad]

@[simp] theorem licStep_hbm (s) : (licStep s).hbm = s.hbm := by
  unfold licStep
  split <;> simp

@[simp] theorem loadRoutes_hbm (own sx sy sz s) : (loadRoutes own sx sy sz s).hbm = s.hbm := by simp [loadRoutes]
@[simp] theorem loadTopo_hbm (b s) : (loadTopo b s).hbm = s.hbm := by simp [loadTopo]
@[simp] theorem loadChip_hbm (b s) : (loadChip b s).hbm = s.hbm := by simp [loadChip]

@[simp] theorem cfgStep_hbm (s) : (cfgStep s).hbm = s.hbm := by
  unfold cfgStep
  split <;> simp

@[simp] theorem showLayout_hbm (pres n base l s) : (showLayout pres n base l s).hbm = s.hbm := by
  induction l generalizing n base s with
  | nil => rfl
  | cons r l ih => simp [showLayout, ih]

@[simp] theorem layoutStep_hbm (s) : (layoutStep s).hbm = s.hbm := by
  grind [layoutStep, setB_hbm, logEv_hbm, forN, setF_hbm, showLayout_hbm, foldl_hbm]

@[simp] theorem repairSwitch_hbm (e s) : (repairSwitch e s).hbm = s.hbm := by rfl

@[simp] theorem repairApply_hbm (done e s) : (repairApply done e s).2.hbm = s.hbm := by
  unfold repairApply
  dsimp only
  repeat' split
  all_goals simp

theorem repairApply_next {done e s r0 t0} (h : repairApply done e s = (r0, t0)) : t0.hbm = s.hbm := by
  have e := repairApply_hbm done e s
  rw [h] at e
  exact e

@[simp] theorem repairRun_hbm (l done n s) : (repairRun l done n s).2.hbm = s.hbm := by
  induction l generalizing done n s with
  | nil => rfl
  | cons e l ih =>
    have h := repairApply_hbm done e s
    unfold repairRun
    split <;> simp_all

theorem repairRun_next {l done n s r t'} (h : repairRun l done n s = (r, t')) : t'.hbm = s.hbm := by
  have e := repairRun_hbm l done n s
  rw [h] at e
  exact e

@[simp] theorem stackTests_hbm (done s) : (stackTests done s).hbm = s.hbm :=
  foldl_hbm (fun s e => by grind [logEv_hbm, → repairApply_next, bump_hbm]) _ _

@[simp] theorem repairStep_hbm (warm s) : (repairStep warm s).hbm = s.hbm := by
  grind [repairStep, repairSwitch_hbm, repairRun_hbm, → repairRun_next, setF_hbm, cfgPush_hbm, logEv_hbm, stackTests_hbm, foldl_hbm]

@[simp] theorem trainStep_hbm (warm s) : (trainStep warm s).hbm = s.hbm := by simp [trainStep, cfgPush_hbm]

theorem hbmWf_bootFail (cause) {s} (h : HbmWf s) : HbmWf (bootFail cause s) := by
  grind [bootFail, hbmWf_railsOff, setF_hbm, setBoot_hbm]

@[simp] theorem trialImages_hbm (s) : (trialImages s).hbm = s.hbm := by
  unfold trialImages
  split
  · split
    · exact setF_hbm ..
    · rfl
  · rfl

@[simp] theorem railsUp_hbm (s) : (railsUp s).hbm = s.hbm := by simp [railsUp]

theorem hbmWf_bootMem (warm) {s} (h : HbmWf s) : HbmWf (bootMem warm s) := by
  grind [bootMem, railsUp_hbm, ageRun_hbm, setF_hbm, layoutStep_hbm, trainStep_hbm, repairStep_hbm, hbmWf_bootFail]

@[simp] theorem defectSet_hbm (l s) : (defectSet l s).hbm = s.hbm := by simp [defectSet, cfgPush_hbm]

@[simp] theorem showPlan_hbm (causes s) : (showPlan causes s).hbm = s.hbm :=
  (setF_hbm ..).trans ((setF_hbm ..).trans ((setF_hbm ..).trans
    ((forN_hbm _ (fun _ _ => setF_hbm ..) _).trans (forN_hbm _ (fun _ _ => setF_hbm ..) _))))

@[simp] theorem defectStep_hbm (s) : (defectStep s).hbm = s.hbm := by
  unfold defectStep
  split <;> simp

@[simp] theorem testStep_hbm (causes s) : (testStep causes s).hbm = s.hbm := by simp [testStep]

theorem hbmWf_bootTiles (warm) {s} (h : HbmWf s) : HbmWf (bootTiles warm s) := by
  grind [bootTiles, defectStep_hbm, stepBegin_hbm, testStep_hbm, setF_hbm, stepDone_hbm, logBoot_hbm, showPlan_hbm, hbmWf_bootFail,
    foldl_hbm]

@[simp] theorem linkStart_hbm (warm s l) : (linkStart warm s l).hbm = s.hbm := by simp [linkStart]

@[simp] theorem bootLinks_hbm (warm s) : (bootLinks warm s).hbm = s.hbm := by
  grind [bootLinks, stepBegin_hbm, forN, setLF_hbm, topoDecide_hbm, stepDone_hbm, linkStart_hbm, foldl_hbm]

@[simp] theorem waitRails_hbm (step s) : (waitRails step s).hbm = s.hbm := by simp [waitRails]

theorem hbmWf_bootFrom5 {s} (h : HbmWf s) : HbmWf (bootFrom5 s) := by
  grind [bootFrom5, stepBegin_hbm, setBoot_hbm, stepDone_hbm, hbmWf_bootMem, bootLinks_hbm, hbmWf_bootTiles]

theorem hbmWf_bootTry5 {s} (h : HbmWf s) : HbmWf (bootTry5 s) := by
  grind [bootTry5, bootLinks_hbm, hbmWf_bootFrom5, waitRails_hbm]

theorem hbmWf_bootFrom3 {s} (h : HbmWf s) : HbmWf (bootFrom3 s) := by
  grind [bootFrom3, romChoice_hbm, → romChoice_next, stepBegin_hbm, bootRecovery_hbm, stepDone_hbm, bootSlot_hbm, coldTrial_hbm,
    hbmWf_bootTry5, cfgStep_hbm, licStep_hbm]

@[simp] theorem bootLoad_hbm (s) : (bootLoad s).hbm = s.hbm := by simp [bootLoad]

theorem hbmWf_bootTry2 {s} (h : HbmWf s) : HbmWf (bootTry2 s) := by
  grind [bootTry2, hbmWf_bootFrom3, stepDone_hbm, bootLoad_hbm, stepBegin_hbm, setBoot_hbm, waitRails_hbm]

theorem hbmWf_bootStart (warm) {s} (h : HbmWf s) : HbmWf (bootStart warm s) := by
  grind [bootStart, hbmWf_bootTry2, logBoot_hbm, setB_hbm]

@[simp] theorem showAlways_hbm (s) : (showAlways s).hbm = s.hbm := by
  grind [showAlways, setF_hbm, showLoop_hbm, showCoolant_hbm, setB_hbm, modP_hbm, setLimits_hbm, leakBegin_hbm]

theorem hbmWf_execPowerOn {s} (h : HbmWf s) : HbmWf (nextOr s (execPowerOn s)) := by
  grind [execPowerOn, setF_hbm, hbmWf_bootStart, stepDone_hbm, showAlways_hbm, stepBegin_hbm, nextOr]

theorem hbmWf_railsResume {s} (h : HbmWf s) : HbmWf (railsResume s) := by
  grind [railsResume, stepBegin_hbm, setB_hbm, setBoot_hbm, hbmWf_bootTiles, stepDone_hbm, hbmWf_bootMem, setF_hbm, logEv_hbm,
    hbmWf_bootFrom5, hbmWf_bootTry2]

theorem hbmWf_execRailsWaitEnd {s} (h : HbmWf s) : HbmWf (nextOr s (execRailsWaitEnd s)) := by
  grind [execRailsWaitEnd, heldOr, hbmWf_railsResume, nextOr]

theorem hbmWf_execRailsOn {s} (h : HbmWf s) : HbmWf (nextOr s (execRailsOn s)) := by
  grind [execRailsOn, heldOr, hbmWf_railsResume, nextOr]

theorem hbmWf_execPrechargeSettled {s} (h : HbmWf s) : HbmWf (nextOr s (execPrechargeSettled s)) := by
  grind [execPrechargeSettled, modPins_hbm, hbmWf_railsResume, nextOr]

theorem hbmWf_moduleClear (s) : HbmWf (moduleClear s) := by
  grind [moduleClear, cfgFlush_hbm, hbmWf_reset]

theorem hbmWf_moduleReset (warm cause s) : HbmWf (moduleReset warm cause s) := by
  grind [moduleReset, showAlways_hbm, hbmWf_moduleClear, logEv_hbm, bump_hbm, setF_hbm, timerSet_hbm, hbmWf_bootStart]

theorem hbmWf_execResetNAssert {s} (h : HbmWf s) : HbmWf (nextOr s (execResetNAssert s)) := by
  grind [execResetNAssert, heldOr, modPins_hbm, hbmWf_moduleReset, nextOr]

theorem hbmWf_execResetNRelease {s} (h : HbmWf s) : HbmWf (nextOr s (execResetNRelease s)) := by
  grind [execResetNRelease, heldOr, modPins_hbm, hbmWf_railsResume, hbmWf_bootStart, nextOr]

theorem hbmWf_execSysResetModule {s} (h : HbmWf s) : HbmWf (nextOr s (execSysResetModule s)) := by
  grind [execSysResetModule, heldOr, hbmWf_moduleReset, nextOr]

theorem hbmWf_execSysResetWarm {s} (h : HbmWf s) : HbmWf (nextOr s (execSysResetWarm s)) := by
  grind [execSysResetWarm, heldOr, hbmWf_moduleReset, nextOr]

@[simp] theorem cycleRequest_hbm (s) : (cycleRequest s).hbm = s.hbm := by simp [cycleRequest]
@[simp] theorem execSysResetPowerCycle_hbm (s) : (nextOr s (execSysResetPowerCycle s)).hbm = s.hbm := by simp [execSysResetPowerCycle]

@[simp] theorem execPowerCycleReportTimer_hbm (s) : (nextOr s (execPowerCycleReportTimer s)).hbm = s.hbm := by
  unfold execPowerCycleReportTimer
  split <;> simp

theorem hbmWf_execPowerLoss (s) : HbmWf (nextOr s (execPowerLoss s)) := by
  grind [execPowerLoss, hbmWf_reset, nextOr]

/-! ### Operations of Machine/Clears -/

@[simp] theorem execTilePrecClear_hbm (t s) : (nextOr s (execTilePrecClear t s)).hbm = s.hbm := by simp [execTilePrecClear]
@[simp] theorem execTileCtrClear_hbm (t s) : (nextOr s (execTileCtrClear t s)).hbm = s.hbm := by simp [execTileCtrClear]
@[simp] theorem execTileSpClear_hbm (t s) : (nextOr s (execTileSpClear t s)).hbm = s.hbm := by simp [execTileSpClear]
@[simp] theorem execKvwCtrClear_hbm (w s) : (nextOr s (execKvwCtrClear w s)).hbm = s.hbm := by simp [execKvwCtrClear]
@[simp] theorem execMemGlnPageClear_hbm (s) : (nextOr s (execMemGlnPageClear s)).hbm = s.hbm := by rfl
@[simp] theorem execMemStkClear_hbm (stack s) : (nextOr s (execMemStkClear stack s)).hbm = s.hbm := by simp [execMemStkClear]
@[simp] theorem execLnkCtrClear_hbm (l s) : (nextOr s (execLnkCtrClear l s)).hbm = s.hbm := by simp [execLnkCtrClear]
@[simp] theorem execFabCtrClear_hbm (s) : (nextOr s (execFabCtrClear s)).hbm = s.hbm := by simp [execFabCtrClear]
@[simp] theorem execColCtrClear_hbm (s) : (nextOr s (execColCtrClear s)).hbm = s.hbm := by simp [execColCtrClear]
@[simp] theorem execPwrCtrClear_hbm (s) : (nextOr s (execPwrCtrClear s)).hbm = s.hbm := by simp [execPwrCtrClear]
@[simp] theorem execClnCtrClear_hbm (s) : (nextOr s (execClnCtrClear s)).hbm = s.hbm := by simp [execClnCtrClear]
@[simp] theorem pageNote_hbm (o s) : (pageNote o s).hbm = s.hbm := by simp [pageNote]
@[simp] theorem gleanCorrect_hbm (k o n s) : (gleanCorrect k o n s).hbm = s.hbm := by simp [gleanCorrect, noteCe_hbm, bump_hbm]

theorem hbmWf_gleanBlock (k o) {s} (h : HbmWf s) : HbmWf (gleanBlock k o s) := by
  grind [gleanBlock, gleanCorrect_hbm, blockFate_hbm, → blockFate_next, noteUe_hbm, bump_hbm, repairOnUe_hbm, logEv_hbm, hbmWf_hbmPut]

@[simp] theorem upset_hbm (o sym hard s) : (upset o sym hard s).hbm = s.hbm := by simp [upset]

theorem hbmWf_execGleanerBlockVisit (stack sym hard) {s} (h : HbmWf s) : HbmWf (nextOr s (execGleanerBlockVisit stack sym hard s)) := by
  grind [execGleanerBlockVisit, hbmWf_gleanBlock, upset_hbm, nextOr]

end Sys2Proof.Machine
end

section
/-! PROOFS. HBM and its form: resets, eject, Ethernet, updates and the side-band (R212, R228). -/

namespace Sys2Proof.Machine

/-! ### Operations of Machine/Resets -/

@[simp] theorem fencesLeave_hbm (cs ks s) : (fencesLeave cs ks s).hbm = s.hbm := by rfl
@[simp] theorem removeWork_hbm (cs s) : (removeWork cs s).hbm = s.hbm := by simp [removeWork]
@[simp] theorem ctxResetting_hbm (s c) : (ctxResetting s c).hbm = s.hbm := by simp [ctxResetting]
@[simp] theorem oldestDesc_hbm (r s) : (oldestDesc r s).2.hbm = s.hbm := by grind [oldestDesc, hbmRead_hbm, → hbmRead_next, tick1_hbm]

theorem oldestDesc_next {r s r0 t0} (h : oldestDesc r s = (r0, t0)) : t0.hbm = s.hbm := by
  have e := oldestDesc_hbm r s
  rw [h] at e
  exact e

theorem hbmWf_ringReset (e) {s} (h : HbmWf s) : HbmWf (ringReset s e) :=
  hbmWf_ite h (hbmWf_ite (hbmWf_of_eq (modR_hbm ..) h) (hbmWf_lateAdd _ _ (hbmWf_of_eq (by simp) h)))

theorem hbmWf_ctxResetDone (level c) {s} (h : HbmWf s) : HbmWf (ctxResetDone level s c) :=
  hbmWf_ite h (hbmWf_of_eq (by simp [bump_hbm]) (hbmWf_foldl (fun _ e h => hbmWf_ringReset e h) (getC c s).resetProd h))

@[simp] theorem setJob_hbm (n j s) : (setJob n j s).hbm = s.hbm := by rfl
@[simp] theorem setStep_hbm (n j s) : (setStep n j s).hbm = s.hbm := by simp [setStep]

theorem hbmWf_jobTry (n) {s} (h : HbmWf s) : HbmWf (jobTry n s) := by
  unfold jobTry
  split
  · exact h
  · next j _ =>
    have e := hbmWf_foldl (fun _ c h => hbmWf_ctxResetDone j.step c h) j.ctxs (s := { s with jobs := smDel s.jobs n }) h
    exact hbmWf_ite h (hbmWf_ite (hbmWf_of_eq (by simp [bump_hbm]) e) e)

theorem hbmWf_jobStart (j) {s} (h : HbmWf s) : HbmWf (jobStart j s) := hbmWf_jobTry _ (hbmWf_of_eq (by simp) h)

theorem hbmWf_ctxReset (c) {s} (h : HbmWf s) : HbmWf (ctxReset c s) := by
  refine hbmWf_ite h ?_
  split
  · exact hbmWf_of_eq (bump_hbm ..) h
  · exact h
  · exact hbmWf_jobStart _ (hbmWf_of_eq (by simp) h)

theorem hbmWf_execCtxResetRequest (c) {s} (h : HbmWf s) : HbmWf (nextOr s (execCtxResetRequest c s)) :=
  hbmWf_heldOr _ (fun _ h => hbmWf_ctxReset _ h) h

theorem hbmWf_execAutoResetTimer (c) {s} (h : HbmWf s) : HbmWf (nextOr s (execAutoResetTimer c s)) :=
  hbmWf_heldOr _ (fun _ h => hbmWf_ite (hbmWf_ctxReset _ h) h) h

theorem hbmWf_partReset (p) {s} (h : HbmWf s) : HbmWf (partReset p s) :=
  hbmWf_ite h (hbmWf_jobStart _ (hbmWf_of_eq (by simp) h))

theorem hbmWf_execPartitionResetRequest (p) {s} (h : HbmWf s) : HbmWf (nextOr s (execPartitionResetRequest p s)) :=
  hbmWf_heldOr _ (fun _ h => hbmWf_partReset _ h) h

@[simp] theorem tileWipe_hbm (t s) : (tileWipe t s).hbm = s.hbm := by simp [tileWipe, bump_hbm]

@[simp] theorem reportWork_hbm (j e s) : (reportWork j e s).hbm = s.hbm := by
  cases e <;> grind [reportWork, tileWipe_hbm]

theorem hbmWf_execEngineWorkRemoved (c e) {s} (h : HbmWf s) : HbmWf (nextOr s (execEngineWorkRemoved c e s)) := by
  unfold execEngineWorkRemoved
  rw [nextOr_next]
  refine hbmWf_heldOr _ (fun s h => ?_) h
  split
  · exact h
  · exact hbmWf_ite (hbmWf_jobTry _ (hbmWf_of_eq (by simp) h)) h

@[simp] theorem cmdLost_hbm (key s) : (cmdLost key s).hbm = s.hbm := by simp [cmdLost]

theorem hbmWf_kernelLost (key) {s} (h : HbmWf s) : HbmWf (kernelLost s key) := by
  grind [kernelLost, hbmWf_kernelEnd, stopKernel_hbm, dropBindings_hbm, modK_hbm]

theorem hbmWf_engineReset (e) {s} (h : HbmWf s) : HbmWf (engineReset s e) := by
  have h := hbmWf_of_eq (t := logEv .engineReset none none 0 [] (bump Reg.RST_COUNTS_ENGINE 1 s)) (by simp [bump_hbm]) h
  cases e with
  | tile t => exact hbmWf_ite h (hbmWf_of_eq (by simp) h)
  | walker w => exact hbmWf_foldl (fun _ k h => hbmWf_kernelLost k h) _ h
  | channels d => exact hbmWf_of_eq (foldl_hbm (fun _ _ => cmdLost_hbm ..) _ _) h
  | collective => exact hbmWf_of_eq (foldl_hbm (fun _ _ => cmdLost_hbm ..) _ _) h
  | processor d =>
    refine hbmWf_of_eq (foldl_hbm (fun s b => foldl_hbm (fun s k => ?_) _ _) _ _) h
    split <;> simp

@[simp] theorem tileCycle_hbm (s a1) : (tileCycle s a1).hbm = s.hbm := by
  unfold tileCycle
  split <;> simp

theorem hbmWf_ladderPart (n j) {s} (h : HbmWf s) : HbmWf (ladderPart n j s) :=
  hbmWf_jobTry _ (hbmWf_of_eq (by simp) h)

theorem hbmWf_ladderNext (n j) {s} (h : HbmWf s) : HbmWf (ladderNext n j s) :=
  hbmWf_ite (hbmWf_of_eq (setStep_hbm ..) (hbmWf_foldl (fun _ e h => hbmWf_engineReset e h) _ h))
    (hbmWf_ite (hbmWf_ladderPart _ _ h) (hbmWf_moduleReset ..))

@[simp] theorem stepTimeout_hbm (step part) {go stop : State → State} (hg : ∀ s, (go s).hbm = s.hbm) (hs : ∀ s, (stop s).hbm = s.hbm) (s) :
    (stepTimeout step part go stop s).hbm = s.hbm := by
  simp [stepTimeout, hg, hs, bump_hbm]

theorem hbmWf_stepTimeout (step part) {go stop : State → State} (hg : ∀ s, HbmWf s → HbmWf (go s)) (hs : ∀ s, HbmWf s → HbmWf (stop s)) {s}
    (h : HbmWf s) : HbmWf (stepTimeout step part go stop s) :=
  hbmWf_ite (hg _ (hbmWf_of_eq (bump_hbm ..) h)) (hs _ (hbmWf_of_eq (by simp [bump_hbm]) h))

theorem hbmWf_execLadderStepTimeout (job) {s} (h : HbmWf s) : HbmWf (nextOr s (execLadderStepTimeout job s)) := by
  unfold execLadderStepTimeout
  rw [nextOr_next]
  refine hbmWf_heldOr _ (fun s h => ?_) h
  split
  · refine hbmWf_ite (hbmWf_stepTimeout _ _ (fun _ h => hbmWf_of_eq (cycleRequest_hbm _) h) (fun _ h => h) ?_) h
    exact h
  · split
    · exact h
    · refine hbmWf_ite h (hbmWf_stepTimeout _ _ (fun _ h => hbmWf_ladderNext _ _ h) (fun _ h => ?_) h)
      exact hbmWf_of_eq (setJob_hbm ..) h

@[simp] theorem execLogSelWrite_hbm (v s) : (nextOr s (execLogSelWrite v s)).hbm = s.hbm := by grind [execLogSelWrite, setF_hbm, nextOr]
@[simp] theorem defectCtl_hbm (t l s) : (defectCtl t l s).hbm = s.hbm := by simp [defectCtl]
@[simp] theorem execFpDefectAdd_hbm (t s) : (nextOr s (execFpDefectAdd t s)).hbm = s.hbm := by simp [execFpDefectAdd]
@[simp] theorem execFpDefectRemove_hbm (t s) : (nextOr s (execFpDefectRemove t s)).hbm = s.hbm := by simp [execFpDefectRemove]

/-! ### Operations of Machine/Eject -/

@[simp] theorem setEject_hbm (v s) : (setEject v s).hbm = s.hbm := by simp [setEject]
@[simp] theorem ejectStart_hbm (source s) : (ejectStart source s).hbm = s.hbm := by simp [ejectStart]
@[simp] theorem execEjectRequest_hbm (s) : (nextOr s (execEjectRequest s)).hbm = s.hbm := by simp [execEjectRequest]
@[simp] theorem ejectTrain_hbm (s l) : (ejectTrain s l).hbm = s.hbm := by simp [ejectTrain]
@[simp] theorem ejectCancel_hbm (source s) : (ejectCancel source s).hbm = s.hbm := by simp [ejectCancel]
@[simp] theorem execEjectCancel_hbm (s) : (nextOr s (execEjectCancel s)).hbm = s.hbm := by simp [execEjectCancel]

theorem hbmWf_execEjectDrainEnd (expired) {s} (h : HbmWf s) : HbmWf (nextOr s (execEjectDrainEnd expired s)) :=
  hbmWf_heldOr _ (fun _ h => hbmWf_ite h (hbmWf_ite (hbmWf_of_eq (setEject_hbm ..) h)
    (hbmWf_ite (hbmWf_of_eq (setEject_hbm ..) (hbmWf_foldl (fun _ c h => hbmWf_ctxReset c h) _ h)) h))) h

@[simp] theorem ejectDark_hbm (s l) : (ejectDark s l).hbm = s.hbm := by simp [ejectDark]
@[simp] theorem execEjectRoutesClear_hbm (s) : (nextOr s (execEjectRoutesClear s)).hbm = s.hbm := by simp [execEjectRoutesClear]

@[simp] theorem execEjectQuiesceEnd_hbm (expired s) : (nextOr s (execEjectQuiesceEnd expired s)).hbm = s.hbm := by
  simp [execEjectQuiesceEnd]

/-! ### Operations of Machine/Eth -/

@[simp] theorem modEth_hbm (p f s) : (modEth p f s).hbm = s.hbm := by rfl
@[simp] theorem portDown_hbm (p s) : (portDown p s).hbm = s.hbm := by simp [portDown]

@[simp] theorem execEthCableInserted_hbm (p managed code s) : (nextOr s (execEthCableInserted p managed code s)).hbm = s.hbm := by
  simp [execEthCableInserted]

@[simp] theorem execCmisActivationTimeout_hbm (p code s) : (nextOr s (execCmisActivationTimeout p code s)).hbm = s.hbm := by
  simp [execCmisActivationTimeout]

@[simp] theorem portLatch_hbm (p s) : (portLatch p s).hbm = s.hbm := by simp [portLatch]
@[simp] theorem execEthLinkUp_hbm (p b s) : (nextOr s (execEthLinkUp p b s)).hbm = s.hbm := by simp [execEthLinkUp]
@[simp] theorem execEthLinkDown_hbm (p b s) : (nextOr s (execEthLinkDown p b s)).hbm = s.hbm := by simp [execEthLinkDown]
@[simp] theorem fecHalf_hbm (s h) : (fecHalf s h).hbm = s.hbm := by grind [fecHalf, tick1_hbm, bump_hbm]
@[simp] theorem tickFec_hbm (s) : (tickFec s).hbm = s.hbm := by simp [tickFec]
@[simp] theorem ethCfg_hbm (p v s) : (ethCfg p v s).hbm = s.hbm := by simp [ethCfg]
@[simp] theorem execEthSplitWrite_hbm (p v s) : (nextOr s (execEthSplitWrite p v s)).hbm = s.hbm := by simp [execEthSplitWrite]
@[simp] theorem modPtp_hbm (f s) : (modPtp f s).hbm = s.hbm := by rfl
@[simp] theorem ptpAsk_hbm (s) : (ptpAsk s).hbm = s.hbm := by simp [ptpAsk]

@[simp] theorem execPtpAnnounceReceived_hbm (tr dom iv s) : (nextOr s (execPtpAnnounceReceived tr dom iv s)).hbm = s.hbm := by
  simp [execPtpAnnounceReceived]

@[simp] theorem execPtpSyncReceived_hbm (tr dom origin s) : (nextOr s (execPtpSyncReceived tr dom origin s)).hbm = s.hbm := by
  simp [execPtpSyncReceived]

@[simp] theorem execPtpFollowUpReceived_hbm (tr dom origin s) : (nextOr s (execPtpFollowUpReceived tr dom origin s)).hbm = s.hbm := by
  simp [execPtpFollowUpReceived]

@[simp] theorem ptpCorrect_hbm (o s) : (ptpCorrect o s).hbm = s.hbm := by simp [ptpCorrect]

@[simp] theorem execPtpDelayRespReceived_hbm (tr dom t4 s) : (nextOr s (execPtpDelayRespReceived tr dom t4 s)).hbm = s.hbm := by
  grind [execPtpDelayRespReceived, setF_hbm, modPtp_hbm, ptpCorrect_hbm, nextOr]

@[simp] theorem execPtpLockLost_hbm (s) : (nextOr s (execPtpLockLost s)).hbm = s.hbm := by simp [execPtpLockLost]

/-! ### Operations of Machine/Update -/

@[simp] theorem setCore_hbm (c v s) : (setCore c v s).hbm = s.hbm := by simp [setCore]
@[simp] theorem setBank_hbm (c v s) : (setBank c v s).hbm = s.hbm := by simp [setBank]
@[simp] theorem checkpoint_hbm (s) : (checkpoint s).hbm = s.hbm := by simp [checkpoint]
@[simp] theorem setAct_hbm (v s) : (setAct v s).hbm = s.hbm := by simp [setAct]

@[simp] theorem activate_hbm (cold s) : (activate cold s).2.hbm = s.hbm := by
  grind [activate, bump_hbm, actFail_hbm, logEv_hbm, setAct_hbm, hdrQueue_hbm, modM_hbm]

theorem activate_next {cold s r t} (h : activate cold s = (r, t)) : t.hbm = s.hbm := by
  have e := activate_hbm cold s
  rw [h] at e
  exact e

@[simp] theorem execFwActivate_hbm (s) : (nextOr s (execFwActivate s)).hbm = s.hbm := by simp [execFwActivate]
@[simp] theorem execFwActivateCold_hbm (s) : (nextOr s (execFwActivateCold s)).hbm = s.hbm := by simp [execFwActivateCold]
@[simp] theorem actAbandon_hbm (cause s) : (actAbandon cause s).hbm = s.hbm := by simp [actAbandon]

@[simp] theorem execActivationVerifyDone_hbm (s) : (nextOr s (execActivationVerifyDone s)).hbm = s.hbm := by
  grind [execActivationVerifyDone, heldOr, actAbandon_hbm, setAct_hbm, setCore_hbm, setBank_hbm, modM_hbm, nextOr]

@[simp] theorem execActivationBootDone_hbm (s) : (nextOr s (execActivationBootDone s)).hbm = s.hbm := by
  grind [execActivationBootDone, heldOr, modM_hbm, actAbandon_hbm, nextOr]

@[simp] theorem execShadowLoadDone_hbm (ok s) : (nextOr s (execShadowLoadDone ok s)).hbm = s.hbm := by
  grind [execShadowLoadDone, heldOr, modM_hbm, actAbandon_hbm, nextOr]

@[simp] theorem showWord_hbm (ws s i) : (showWord ws s i).hbm = s.hbm := by simp [showWord]

@[simp] theorem execActivationCommit_hbm (s) : (nextOr s (execActivationCommit s)).hbm = s.hbm := by
  grind [execActivationCommit, heldOr, logEv_hbm, commitRun_hbm, nextOr]

@[simp] theorem unitHolds_hbm (u s) : (unitHolds u s).hbm = s.hbm := by
  unfold unitHolds
  split <;> simp

@[simp] theorem fallbackTry_hbm (s) : (fallbackTry s).hbm = s.hbm := by simp [fallbackTry]

@[simp] theorem execUnitBankSwitch_hbm (u s) : (nextOr s (execUnitBankSwitch u s)).hbm = s.hbm := by
  grind [execUnitBankSwitch, heldOr, showWord_hbm, unitHolds_hbm, modM_hbm, fallbackTry_hbm, nextOr]

@[simp] theorem execTileBankSwitch_hbm (t s) : (nextOr s (execTileBankSwitch t s)).hbm = s.hbm := by simp [execTileBankSwitch]
@[simp] theorem settingsReset_hbm (s c) : (settingsReset s c).hbm = s.hbm := by simp [settingsReset]
@[simp] theorem raiseSvn_hbm (v s) : (raiseSvn v s).hbm = s.hbm := by simp [raiseSvn]
@[simp] theorem confirmRun_hbm (a s) : (confirmRun a s).hbm = s.hbm := by simp [confirmRun]

@[simp] theorem execHealthConfirm_hbm (s) : (nextOr s (execHealthConfirm s)).hbm = s.hbm := by
  grind [execHealthConfirm, heldOr, logEv_hbm, confirmRun_hbm, nextOr]

@[simp] theorem execFwConfirm_hbm (s) : (nextOr s (execFwConfirm s)).hbm = s.hbm := by grind [execFwConfirm, heldOr, modM_hbm, nextOr]

@[simp] theorem fallback_hbm (cause swap s) : (fallback cause swap s).hbm = s.hbm := by
  unfold fallback
  split <;> simp

@[simp] theorem execFwAbort_hbm (s) : (nextOr s (execFwAbort s)).hbm = s.hbm := by simp [execFwAbort]

@[simp] theorem execTrialTimeout_hbm (s) : (nextOr s (execTrialTimeout s)).hbm = s.hbm := by
  grind [execTrialTimeout, heldOr, fallback_hbm, nextOr]

/-! ### Operations of Machine/Sideband -/

@[simp] theorem sbReq_hbm (i) {f : State → State} (h : ∀ s, (f s).hbm = s.hbm) (s) : (sbReq i f s).hbm = s.hbm := by
  simp [sbReq, h]

theorem hbmWf_sbReq (i) {f : State → State} (hf : ∀ s, HbmWf s → HbmWf (f s)) {s} (h : HbmWf s) : HbmWf (sbReq i f s) :=
  hbmWf_ite h (hbmWf_ite (hbmWf_heldOr i hf h) (hbmWf_ite (hbmWf_of_eq (by simp) h) (hbmWf_of_eq (by simp) h)))

@[simp] theorem sbAnswer_hbm (rq data s) : (sbAnswer rq data s).hbm = s.hbm := by simp [sbAnswer]
@[simp] theorem sbCode_hbm (rq code s) : (sbCode rq code s).hbm = s.hbm := by simp [sbCode]
@[simp] theorem execI3cAddressAssign_hbm (addr s) : (nextOr s (execI3cAddressAssign addr s)).hbm = s.hbm := by simp [execI3cAddressAssign]

@[simp] theorem execMctpSetEndpointId_hbm (rq eid s) : (nextOr s (execMctpSetEndpointId rq eid s)).hbm = s.hbm := by
  simp [execMctpSetEndpointId]

@[simp] theorem execPldmGetTid_hbm (rq s) : (nextOr s (execPldmGetTid rq s)).hbm = s.hbm := by simp [execPldmGetTid]
@[simp] theorem execPldmSetTid_hbm (rq tid s) : (nextOr s (execPldmSetTid rq tid s)).hbm = s.hbm := by simp [execPldmSetTid]
@[simp] theorem execPldmGetPldmTypes_hbm (rq s) : (nextOr s (execPldmGetPldmTypes rq s)).hbm = s.hbm := by simp [execPldmGetPldmTypes]

@[simp] theorem execPldmGetPldmVersion_hbm (rq typ s) : (nextOr s (execPldmGetPldmVersion rq typ s)).hbm = s.hbm := by
  simp [execPldmGetPldmVersion]

@[simp] theorem execPldmGetPldmCommands_hbm (rq typ s) : (nextOr s (execPldmGetPldmCommands rq typ s)).hbm = s.hbm := by
  unfold execPldmGetPldmCommands
  split <;> simp

@[simp] theorem execPldmGetPdr_hbm (rq handle s) : (nextOr s (execPldmGetPdr rq handle s)).hbm = s.hbm :=
  sbReq_hbm _ (fun s => by dsimp only; split <;> simp) _

@[simp] theorem execPldmGetSensorReading_hbm (rq id s) : (nextOr s (execPldmGetSensorReading rq id s)).hbm = s.hbm :=
  sbReq_hbm _ (fun s => by split <;> simp) _

@[simp] theorem execPldmGetStateSensorReadings_hbm (rq id s) : (nextOr s (execPldmGetStateSensorReadings rq id s)).hbm = s.hbm :=
  sbReq_hbm _ (fun s => by split <;> simp) _

@[simp] theorem execPldmGetNumericEffecterValue_hbm (rq id s) : (nextOr s (execPldmGetNumericEffecterValue rq id s)).hbm = s.hbm :=
  sbReq_hbm _ (fun s => by split <;> simp) _

@[simp] theorem execPldmSetEventReceiver_hbm (rq eid s) : (nextOr s (execPldmSetEventReceiver rq eid s)).hbm = s.hbm := by
  simp [execPldmSetEventReceiver]

@[simp] theorem execPldmGetFruRecordTable_hbm (rq s) : (nextOr s (execPldmGetFruRecordTable rq s)).hbm = s.hbm := by
  simp [execPldmGetFruRecordTable]

@[simp] theorem execSetRackCap_hbm (rq w s) : (nextOr s (execSetRackCap rq w s)).hbm = s.hbm := by simp [execSetRackCap]
@[simp] theorem execSetOrphanCap_hbm (rq w s) : (nextOr s (execSetOrphanCap rq w s)).hbm = s.hbm := by simp [execSetOrphanCap]

theorem hbmWf_execSetRackOff (rq v) {s} (h : HbmWf s) : HbmWf (nextOr s (execSetRackOff rq v s)) :=
  hbmWf_sbReq _ (fun _ h => hbmWf_ite (hbmWf_of_eq (sbCode_hbm ..) (hbmWf_railsOff _ (hbmWf_of_eq (setB_hbm ..) h)))
    (hbmWf_ite (hbmWf_of_eq (by simp) h) (hbmWf_of_eq (by simp) h))) h

@[simp] theorem execSetLocateLed_hbm (rq v s) : (nextOr s (execSetLocateLed rq v s)).hbm = s.hbm := by simp [execSetLocateLed]

@[simp] theorem execSidebandEjectRequest_hbm (rq s) : (nextOr s (execSidebandEjectRequest rq s)).hbm = s.hbm := by
  simp [execSidebandEjectRequest]

@[simp] theorem execSidebandEjectCancel_hbm (rq s) : (nextOr s (execSidebandEjectCancel rq s)).hbm = s.hbm := by
  simp [execSidebandEjectCancel]

@[simp] theorem outboxAck_hbm (boot fseq s) : (outboxAck boot fseq s).hbm = s.hbm := by simp [outboxAck]

@[simp] theorem execPlatformEventAck_hbm (boot fseq s) : (nextOr s (execPlatformEventAck boot fseq s)).hbm = s.hbm := by
  simp [execPlatformEventAck]

theorem hbmWf_sbRun (i) {s} (h : HbmWf s) : HbmWf (sbRun s i) := by
  unfold sbRun
  split
  case h_15 => exact hbmWf_execSetRackOff _ _ h
  all_goals exact hbmWf_of_eq (by simp) h

/-! ### Operations of Machine/Felmos -/

@[simp] theorem heartbeat_hbm (box wire s) : (heartbeat box wire s).hbm = s.hbm := by simp [heartbeat]

@[simp] theorem execFelmosHeartbeat_hbm (box wire s) : (nextOr s (execFelmosHeartbeat box wire s)).hbm = s.hbm := by
  simp [execFelmosHeartbeat]

@[simp] theorem execFelmosCheckpoint_hbm (s) : (nextOr s (execFelmosCheckpoint s)).hbm = s.hbm := by simp [execFelmosCheckpoint]
@[simp] theorem switchover_hbm (c s) : (switchover c s).hbm = s.hbm := by simp [switchover, bump_hbm]

@[simp] theorem execWatchdogPathMiss_hbm (box wire s) : (nextOr s (execWatchdogPathMiss box wire s)).hbm = s.hbm := by
  simp [execWatchdogPathMiss]

@[simp] theorem execFatalErrorSignal_hbm (s) : (nextOr s (execFatalErrorSignal s)).hbm = s.hbm := by simp [execFatalErrorSignal]
@[simp] theorem outboxReplay_hbm (s) : (outboxReplay s).hbm = s.hbm := by simp [outboxReplay]

theorem hbmWf_takeover (found) {s} (h : HbmWf s) : HbmWf (takeover found s) :=
  hbmWf_foldl (fun _ i h => hbmWf_sbRun i h) _
    (hbmWf_ite_keep (by simp) (hbmWf_ite_keep (by simp) (hbmWf_ite_keep (by simp) (hbmWf_of_eq (by simp) h))))

theorem hbmWf_execStandbyTakeoverDone (a b) {s} (h : HbmWf s) : HbmWf (nextOr s (execStandbyTakeoverDone a b s)) := by
  unfold execStandbyTakeoverDone
  rw [nextOr_next]
  exact hbmWf_heldOr _ (fun _ h => hbmWf_ite h (hbmWf_takeover _ (hbmWf_of_eq (by simp) h))) h

@[simp] theorem execCoreSelftestDone_hbm (core ok s) : (nextOr s (execCoreSelftestDone core ok s)).hbm = s.hbm := by
  simp [execCoreSelftestDone]

@[simp] theorem execRecoveryHeartbeat_hbm (s) : (nextOr s (execRecoveryHeartbeat s)).hbm = s.hbm := by
  unfold execRecoveryHeartbeat
  rw [nextOr_next]
  split
  · exact every_hbm _ _ _ (fun _ => modM_hbm) _
  · rfl

end Sys2Proof.Machine
end

section
/-! PROOFS. HBM and its form: partitions, the service port, register writes and RDMA (R212, R228). -/

namespace Sys2Proof.Machine

/-! ### Operations of Machine/Parts -/

@[simp] theorem cfgReject_hbm (s) : (cfgReject s).hbm = s.hbm := by simp [cfgReject, bump_hbm]
@[simp] theorem setKeys_hbm (p pkey rkey s) : (setKeys p pkey rkey s).hbm = s.hbm := by simp [setKeys]
@[simp] theorem adminKeys_hbm (pkey rkey s) : (adminKeys pkey rkey s).hbm = s.hbm := by simp [adminKeys]
@[simp] theorem rrcPartOff_hbm (p s) : (rrcPartOff p s).hbm = s.hbm := by simp [rrcPartOff]
@[simp] theorem partEnable_hbm (p pkey rkey s) : (partEnable p pkey rkey s).hbm = s.hbm := by simp [partEnable]
@[simp] theorem execPartEnable_hbm (p pkey rkey s) : (nextOr s (execPartEnable p pkey rkey s)).hbm = s.hbm := by simp [execPartEnable]
@[simp] theorem partDisable_hbm (p pkey rkey s) : (partDisable p pkey rkey s).hbm = s.hbm := by simp [partDisable]
@[simp] theorem execPartDisable_hbm (p pkey rkey s) : (nextOr s (execPartDisable p pkey rkey s)).hbm = s.hbm := by simp [execPartDisable]
@[simp] theorem ctxEnable_hbm (c part s) : (ctxEnable c part s).hbm = s.hbm := by simp [ctxEnable]
@[simp] theorem execCtxEnable_hbm (c part s) : (nextOr s (execCtxEnable c part s)).hbm = s.hbm := by simp [execCtxEnable]
@[simp] theorem ctxDisable_hbm (c part s) : (ctxDisable c part s).hbm = s.hbm := by simp [ctxDisable]
@[simp] theorem execCtxDisable_hbm (c part s) : (nextOr s (execCtxDisable c part s)).hbm = s.hbm := by simp [execCtxDisable]
@[simp] theorem ringEnable_hbm (r v s) : (ringEnable r v s).hbm = s.hbm := by simp [ringEnable]
@[simp] theorem execRingEnable_hbm (ring v s) : (nextOr s (execRingEnable ring v s)).hbm = s.hbm := by simp [execRingEnable]
@[simp] theorem ringDrop_hbm (r s) : (ringDrop r s).hbm = s.hbm := by simp [ringDrop]
@[simp] theorem ringDisable_hbm (r v s) : (ringDisable r v s).hbm = s.hbm := by simp [ringDisable]
@[simp] theorem execRingDisable_hbm (ring v s) : (nextOr s (execRingDisable ring v s)).hbm = s.hbm := by simp [execRingDisable]

/-! ### Operations of Machine/Service -/

@[simp] theorem svcAnswer_hbm (typ req off st payload s) : (svcAnswer typ req off st payload s).hbm = s.hbm := by simp [svcAnswer]

@[simp] theorem svcReq_hbm (i typ req crc) {f : State → State} (h : ∀ s, (f s).hbm = s.hbm) (s) :
    (svcReq i typ req crc f s).hbm = s.hbm := by
  unfold svcReq
  split
  · rfl
  · refine heldOr_hbm _ (fun s => ?_) _
    split
    · rfl
    · split <;> simp [h]

@[simp] theorem svcWrite_hbm (typ req) {f : State → State} (h : ∀ s, (f s).hbm = s.hbm) (s) : (svcWrite typ req f s).hbm = s.hbm := by
  simp [svcWrite, h]

@[simp] theorem execSvcIdentify_hbm (req crc s) : (nextOr s (execSvcIdentify req crc s)).hbm = s.hbm := by simp [execSvcIdentify]
@[simp] theorem execSvcStatus_hbm (req crc s) : (nextOr s (execSvcStatus req crc s)).hbm = s.hbm := by simp [execSvcStatus]

@[simp] theorem execSvcLogRead_hbm (req crc off s) : (nextOr s (execSvcLogRead req crc off s)).hbm = s.hbm :=
  svcReq_hbm _ _ _ _ (fun s => by split <;> simp) _

@[simp] theorem stageOpen_hbm (req slot s) : (stageOpen req slot s).hbm = s.hbm := by grind [stageOpen, svcAnswer_hbm, modM_hbm, logEv_hbm]

@[simp] theorem execSvcStageOpen_hbm (req crc slot s) : (nextOr s (execSvcStageOpen req crc slot s)).hbm = s.hbm := by
  simp [execSvcStageOpen]

@[simp] theorem execStageEraseDone_hbm (s) : (nextOr s (execStageEraseDone s)).hbm = s.hbm := by
  grind [execStageEraseDone, timerSet_hbm, modM_hbm, nextOr]

@[simp] theorem svcOp_hbm (typ req ws data ev s) : (svcOp typ req ws data ev s).hbm = s.hbm := by simp [svcOp, cfgPush_hbm]

@[simp] theorem execSvcStageWrite_hbm (req crc off data s) : (nextOr s (execSvcStageWrite req crc off data s)).hbm = s.hbm := by
  refine svcReq_hbm _ _ _ _ (svcWrite_hbm _ _ fun s => ?_) _
  split
  · simp
  · repeat' split
    all_goals simp

@[simp] theorem execSvcStageRead_hbm (req crc slot off len s) : (nextOr s (execSvcStageRead req crc slot off len s)).hbm = s.hbm := by
  simp [execSvcStageRead]

@[simp] theorem execSvcActivate_hbm (req crc cold s) : (nextOr s (execSvcActivate req crc cold s)).hbm = s.hbm := by simp [execSvcActivate]

@[simp] theorem execStagingSessionTimeout_hbm (s) : (nextOr s (execStagingSessionTimeout s)).hbm = s.hbm := by
  grind [execStagingSessionTimeout, modM_hbm, nextOr]

@[simp] theorem execSvcConfigWrite_hbm (req crc data s) : (nextOr s (execSvcConfigWrite req crc data s)).hbm = s.hbm := by
  simp [execSvcConfigWrite]

@[simp] theorem execSvcLicenceWrite_hbm (req crc off data s) : (nextOr s (execSvcLicenceWrite req crc off data s)).hbm = s.hbm := by
  simp [execSvcLicenceWrite]

@[simp] theorem execSvcRepairAdd_hbm (req crc data s) : (nextOr s (execSvcRepairAdd req crc data s)).hbm = s.hbm := by
  simp [execSvcRepairAdd, cfgPush_hbm, bump_hbm]

theorem hbmWf_opFollows (ok a) {s} (h : HbmWf s) : HbmWf (opFollows ok a s) := by
  unfold opFollows
  split
  · dsimp only
    split <;> exact hbmWf_of_eq (by simp) h
  · exact hbmWf_moduleReset ..
  · exact h

theorem hbmWf_execConfigMemoryOpDone (ok) {s} (h : HbmWf s) : HbmWf (nextOr s (execConfigMemoryOpDone ok s)) := by
  unfold execConfigMemoryOpDone
  rw [nextOr_next]
  refine hbmWf_heldOr _ (fun s h => ?_) h
  split
  · exact h
  · exact hbmWf_ite (hbmWf_opFollows _ _ (hbmWf_of_eq (by simp) h)) (hbmWf_opFollows _ _ (hbmWf_of_eq (by simp) h))

/-! ### Operations of Machine/Readout -/

@[simp] theorem readNote_hbm (off s) : (readNote off s).hbm = s.hbm := by simp [readNote]

/-! ### Operations of Machine/Snap -/

@[simp] theorem snapServe_hbm (s) : (snapServe s).hbm = s.hbm := by grind [snapServe, setF_hbm]
@[simp] theorem snapAsk_hbm (q s) : (snapAsk q s).hbm = s.hbm := by simp [snapAsk]
@[simp] theorem execCmdSysSnapshot_hbm (ring s) : (nextOr s (execCmdSysSnapshot ring s)).hbm = s.hbm := by simp [execCmdSysSnapshot]
@[simp] theorem snapGo_hbm (s) : (snapGo s).hbm = s.hbm := by simp [snapGo]
@[simp] theorem execSysSnapGo_hbm (s) : (nextOr s (execSysSnapGo s)).hbm = s.hbm := by simp [execSysSnapGo]

theorem hbmWf_execSnapshotWriteDone {s} (h : HbmWf s) : HbmWf (nextOr s (execSnapshotWriteDone s)) := by
  grind [execSnapshotWriteDone, hbmWf_hbmWrite, tick1_hbm, finishCmd_hbm, snapServe_hbm, nextOr]

/-! ### Operations of Machine/WriteReg -/

@[simp] theorem wPut_hbm (f v s) : (wPut f v s).hbm = s.hbm := by simp [wPut]
@[simp] theorem wPutIn_hbm (f lo hi v s) : (wPutIn f lo hi v s).hbm = s.hbm := by simp [wPutIn]

@[simp] theorem wGo_hbm (n v) {f : State → State} (h : ∀ s, (f s).hbm = s.hbm) (s) : (wGo n v f s).hbm = s.hbm := by
  simp [wGo, h]

theorem hbmWf_wGo (n v) {f : State → State} (hf : ∀ s, HbmWf s → HbmWf (f s)) {s} (h : HbmWf s) : HbmWf (wGo n v f s) :=
  hbmWf_ite (hf _ h) h

@[simp] theorem writeTile_hbm (t o v s) : (writeTile t o v s).hbm = s.hbm := by
  unfold writeTile
  split <;> simp

@[simp] theorem writeRrc_hbm (d o v s) : (writeRrc d o v s).hbm = s.hbm := by
  unfold writeRrc
  split <;> simp

@[simp] theorem writePart_hbm (p o v s) : (writePart p o v s).hbm = s.hbm := by
  grind [writePart, partEnable_hbm, partDisable_hbm, wPut_hbm, setF_hbm]

@[simp] theorem writeEth_hbm (p o v s) : (writeEth p o v s).hbm = s.hbm := by simp [writeEth]
@[simp] theorem lnkCfg_hbm (l v s) : (lnkCfg l v s).hbm = s.hbm := by simp [lnkCfg]

@[simp] theorem writeLnk_hbm (l o v s) : (writeLnk l o v s).hbm = s.hbm := by
  unfold writeLnk
  split <;> simp

theorem hbmWf_writeSys (o v) {s} (h : HbmWf s) : HbmWf (writeSys o v s) := by
  unfold writeSys
  split
  case h_3 =>
    exact hbmWf_wGo 2 v (fun _ h => hbmWf_of_eq (by simp) h)
      (hbmWf_ite (hbmWf_execSysResetModule h) (hbmWf_wGo _ _ (fun _ h => hbmWf_execSysResetWarm h) h))
  case h_5 =>
    refine hbmWf_wGo 3 v (fun _ h => hbmWf_of_eq (by simp) h) (hbmWf_wGo 2 v (fun _ h => hbmWf_of_eq (by simp) h) (hbmWf_wGo 0 v (fun s h
      => ?_) h))
    split <;> exact hbmWf_of_eq (by simp) h
  all_goals exact hbmWf_of_eq (by simp) h

theorem hbmWf_writePwr (o v) {s} (h : HbmWf s) : HbmWf (writePwr o v s) := by
  unfold writePwr
  refine hbmWf_ite (hbmWf_of_eq (by simp) h) ?_
  split
  case h_4 => exact hbmWf_ite h (hbmWf_execHostOffWrite _ h)
  all_goals exact hbmWf_of_eq (by simp) h

@[simp] theorem ringCfg1_hbm (v s) : (ringCfg1 v s).hbm = s.hbm := by simp [ringCfg1]
@[simp] theorem ringCq_hbm (f s) : (ringCq f s).hbm = s.hbm := by simp [ringCq]

theorem hbmWf_writeCmd (o v) {s} (h : HbmWf s) : HbmWf (writeCmd o v s) := by
  unfold writeCmd
  dsimp only
  split
  case h_2 | h_7 => split <;> exact hbmWf_of_eq (by simp) h
  case h_10 => exact hbmWf_wGo _ _ (fun _ h => hbmWf_execCtxResetRequest _ h) h
  case h_12 =>
    exact hbmWf_foldl (fun _ p h => hbmWf_wGo _ _ (fun _ h => hbmWf_execPartitionResetRequest _ h) h) _ h
  all_goals exact hbmWf_of_eq (by simp) h

@[simp] theorem writeFab_hbm (o v s) : (writeFab o v s).hbm = s.hbm := by
  unfold writeFab
  split
  case h_5 => exact setF_hbm ..
  all_goals simp

@[simp] theorem writeMem_hbm (o v s) : (writeMem o v s).hbm = s.hbm := by
  unfold writeMem
  split <;> simp

theorem hbmWf_writeGlob (o v) {s} (h : HbmWf s) : HbmWf (writeGlob o v s) :=
  hbmWf_ite (hbmWf_writeSys _ _ h) (hbmWf_ite (hbmWf_writePwr _ _ h) (hbmWf_ite (hbmWf_writeCmd _ _ h)
    (hbmWf_ite (hbmWf_of_eq (by simp) h) (hbmWf_of_eq (by simp) h))))

theorem hbmWf_writeBlk (b n o v) {s} (h : HbmWf s) : HbmWf (writeBlk b n o v s) := by
  refine hbmWf_ite h ?_
  cases b
  case glob => exact hbmWf_writeGlob _ _ h
  all_goals exact hbmWf_of_eq (by simp) h

theorem hbmWf_writeReg (off v) {s} (h : HbmWf s) : HbmWf (writeReg off v s) := by
  unfold writeReg
  split
  · exact hbmWf_writeBlk _ _ _ _ h
  · exact h

theorem hbmWf_execRegisterWrite (off v) {s} (h : HbmWf s) : HbmWf (nextOr s (execRegisterWrite off v s)) :=
  hbmWf_ite h (hbmWf_ite h (hbmWf_writeReg _ _ h))

/-! ### Operations of Machine/Rdma -/

@[simp] theorem qpOp_hbm (i fr q stop) {f : State → State} (h : ∀ s, (f s).hbm = s.hbm) (s) :
    (nextOr s (qpOp i fr q stop f s)).hbm = s.hbm := by
  unfold qpOp; simp [h]

theorem hbmWf_qpOp (i fr q stop) {f : State → State} (hf : ∀ s, HbmWf s → HbmWf (f s)) {s} (h : HbmWf s) :
    HbmWf (nextOr s (qpOp i fr q stop f s)) :=
  hbmWf_ite h (hbmWf_ite (hbmWf_ite h h) (hf _ h))

@[simp] theorem qpNak_hbm (q o s) : (qpNak q o s).hbm = s.hbm := by simp [qpNak, bump_hbm]
@[simp] theorem qpAnswer_hbm (q o s) : (qpAnswer q o s).hbm = s.hbm := by simp [qpAnswer]
@[simp] theorem qpFail_hbm (q psn off s) : (qpFail q psn off s).hbm = s.hbm := by simp [qpFail]
@[simp] theorem refuseAccess_hbm (q psn a n s) : (refuseAccess q psn a n s).hbm = s.hbm := by simp [refuseAccess, bump_hbm]

theorem hbmWf_rdmaWrite (q psn a rkey l) {s} (h : HbmWf s) : HbmWf (rdmaWrite q psn a rkey l s) := by
  refine hbmWf_ite (hbmWf_of_eq (by simp) h) (hbmWf_ite (hbmWf_of_eq (by simp) h) (hbmWf_ite ?_ (hbmWf_ite ?_ (hbmWf_ite ?_ ?_))))
  · exact hbmWf_ite (hbmWf_of_eq (qpAnswer_hbm ..) (hbmWf_writeReg _ _ h)) (hbmWf_of_eq (by simp) h)
  · exact hbmWf_ite (hbmWf_of_eq (qpAnswer_hbm ..) (hbmWf_doorbellWrite _ _ h)) (hbmWf_of_eq (by simp) h)
  · have e := hbmWf_homeWrite a l (hostCode s) (hbmWf_of_eq (tick1_hbm s) h)
    split <;> rename_i ht
    · exact hbmWf_of_eq (qpFail_hbm ..) (hbmWf_snd e ht)
    · exact hbmWf_of_eq (qpAnswer_hbm ..) (hbmWf_snd e ht)
  · exact hbmWf_of_eq (by simp) h

theorem hbmWf_execRdmaWriteReceived (q fr psn addr rkey data) {s} (h : HbmWf s) :
    HbmWf (nextOr s (execRdmaWriteReceived q fr psn addr rkey data s)) :=
  hbmWf_qpOp _ _ _ _ (fun _ h => hbmWf_rdmaWrite _ _ _ _ _ h) h

@[simp] theorem rdmaRead_hbm (q psn a rkey n s) : (rdmaRead q psn a rkey n s).hbm = s.hbm := by
  grind [rdmaRead, emitQ_hbm, qpNak_hbm, readNote_hbm, refuseAccess_hbm, homeRead_hbm, → homeRead_next, tick1_hbm, qpFail_hbm]

@[simp] theorem execRdmaReadReceived_hbm (q fr psn addr rkey len s) :
    (nextOr s (execRdmaReadReceived q fr psn addr rkey len s)).hbm = s.hbm := by
  simp [execRdmaReadReceived]

theorem hbmWf_rdmaAtomic (q psn a rkey op b c) {s} (h : HbmWf s) : HbmWf (rdmaAtomic q psn a rkey op b c s) := by
  grind [rdmaAtomic, qpNak_hbm, hbmWf_hbmAtomic, tick1_hbm, emitQ_hbm, qpFail_hbm]

theorem hbmWf_execRdmaAtomicCas (q fr psn addr rkey cmp swap) {s} (h : HbmWf s) :
    HbmWf (nextOr s (execRdmaAtomicCas q fr psn addr rkey cmp swap s)) := by
  grind [execRdmaAtomicCas, qpOp, hbmWf_rdmaAtomic, heldOr, nextOr]

theorem hbmWf_execRdmaFetchAdd (q fr psn addr rkey add) {s} (h : HbmWf s) :
    HbmWf (nextOr s (execRdmaFetchAdd q fr psn addr rkey add s)) := by
  grind [execRdmaFetchAdd, qpOp, hbmWf_rdmaAtomic, heldOr, nextOr]

@[simp] theorem execRdmaSendReceived_hbm (q fr psn s) : (nextOr s (execRdmaSendReceived q fr psn s)).hbm = s.hbm := by
  simp [execRdmaSendReceived]

@[simp] theorem execConnectRequest_hbm (q p b pkey retries mtu s) :
    (nextOr s (execConnectRequest q p b pkey retries mtu s)).hbm = s.hbm := by
  grind [execConnectRequest, emit_hbm, emitQ_hbm, tick1_hbm, setQ_hbm, nextOr]

@[simp] theorem qpResend_hbm (q s) : (qpResend q s).hbm = s.hbm := by simp [qpResend]
@[simp] theorem qpRetry_hbm (q s) : (qpRetry q s).hbm = s.hbm := by simp [qpRetry]
@[simp] theorem ackBefore_hbm (q psn s) : (ackBefore q psn s).hbm = s.hbm := by simp [ackBefore]

@[simp] theorem execRdmaAckReceived_hbm (q psn k s) : (nextOr s (execRdmaAckReceived q psn k s)).hbm = s.hbm := by
  unfold execRdmaAckReceived
  split <;> simp

@[simp] theorem execQpRetransmitTimeout_hbm (q s) : (nextOr s (execQpRetransmitTimeout q s)).hbm = s.hbm := by
  simp [execQpRetransmitTimeout]

@[simp] theorem execNotifyRnrRetry_hbm (q s) : (nextOr s (execNotifyRnrRetry q s)).hbm = s.hbm := by
  grind [execNotifyRnrRetry, qpResend_hbm, setQ_hbm, bump_hbm, nextOr]

@[simp] theorem execCeMarkedPacket_hbm (q s) : (nextOr s (execCeMarkedPacket q s)).hbm = s.hbm := by simp [execCeMarkedPacket, bump_hbm]
@[simp] theorem execCnpReceived_hbm (q s) : (nextOr s (execCnpReceived q s)).hbm = s.hbm := by simp [execCnpReceived, bump_hbm]
@[simp] theorem execRateIncreaseTimer_hbm (q s) : (nextOr s (execRateIncreaseTimer q s)).hbm = s.hbm := by simp [execRateIncreaseTimer]

/-! ### Operations of Machine/Response -/

theorem hbmWf_execResponseReceived (req) {s} (h : HbmWf s) : HbmWf (nextOr s (execResponseReceived req s)) := by
  unfold execResponseReceived
  split
  · exact h
  · split
    · split <;> rw [nextOr_next]
      · exact hbmWf_of_eq (by simp) h
      · exact hbmWf_of_eq (by simp) h
      · exact hbmWf_walkResp _ _ _ _ _ _ _ (hbmWf_of_eq (delReq_hbm ..) h)
      · exact hbmWf_ringHeld _ _ (fun _ h => hbmWf_of_eq (by simp) h) h
      · exact h
    · exact h

end Sys2Proof.Machine
end

section
/-! PROOFS. Every step keeps the form of HBM (R212, R228). -/

namespace Sys2Proof.Machine

/-! ### Operations of Machine/Freeze -/

theorem hbmWf_heldRun (i) {s} (h : HbmWf s) : HbmWf (heldRun s i) := by
  cases i with
  | railsWaitEnd => exact hbmWf_execRailsWaitEnd h
  | resetNAssert => exact hbmWf_execResetNAssert h
  | resetNRelease => exact hbmWf_execResetNRelease h
  | sysResetModule => exact hbmWf_execSysResetModule h
  | sysResetWarm => exact hbmWf_execSysResetWarm h
  | doorbellCqConsumed _ _ => exact hbmWf_execDoorbellCqConsumed _ _ h
  | commandComplete _ => exact hbmWf_execCommandComplete _ h
  | completionRetry _ => exact hbmWf_execCompletionRetry _ h
  | ringTimeoutExpire _ => exact hbmWf_execRingTimeoutExpire _ h
  | rdmaWriteReceived _ _ _ _ _ _ => exact hbmWf_execRdmaWriteReceived _ _ _ _ _ _ h
  | rdmaAtomicCas _ _ _ _ _ _ _ => exact hbmWf_execRdmaAtomicCas _ _ _ _ _ _ _ h
  | rdmaFetchAdd _ _ _ _ _ _ => exact hbmWf_execRdmaFetchAdd _ _ _ _ _ _ h
  | registerWrite _ _ => exact hbmWf_execRegisterWrite _ _ h
  | settleWindowExpire _ _ => exact hbmWf_execSettleWindowExpire _ _ h
  | hostOffWrite _ => exact hbmWf_execHostOffWrite _ h
  | coolantGraceExpire => exact hbmWf_execCoolantGraceExpire h
  | thermalTrip _ => exact hbmWf_execThermalTrip _ h
  | responseReceived _ => exact hbmWf_execResponseReceived _ h
  | leakOffExpire => exact hbmWf_execLeakOffExpire h
  | railsOn => exact hbmWf_execRailsOn h
  | undervoltage => exact hbmWf_execUndervoltage h
  | overvoltage => exact hbmWf_execOvervoltage h
  | ctxResetRequest _ => exact hbmWf_execCtxResetRequest _ h
  | autoResetTimer _ => exact hbmWf_execAutoResetTimer _ h
  | engineWorkRemoved _ _ => exact hbmWf_execEngineWorkRemoved _ _ h
  | partitionResetRequest _ => exact hbmWf_execPartitionResetRequest _ h
  | ladderStepTimeout _ => exact hbmWf_execLadderStepTimeout _ h
  | standbyTakeoverDone _ _ => exact hbmWf_execStandbyTakeoverDone _ _ h
  | setRackOff _ _ => exact hbmWf_execSetRackOff _ _ h
  | ejectDrainEnd _ => exact hbmWf_execEjectDrainEnd _ h
  | configMemoryOpDone _ => exact hbmWf_execConfigMemoryOpDone _ h
  | _ =>
    unfold heldRun
    exact hbmWf_of_eq (by simp) h

theorem hbmWf_freezeEnd {s} (h : HbmWf s) : HbmWf (freezeEnd s) := hbmWf_foldl (fun _ i h => hbmWf_heldRun i h) _ h
theorem hbmWf_freezeLimit {s} (h : HbmWf s) : HbmWf (freezeLimit s) := hbmWf_ite (hbmWf_freezeEnd h) h
theorem hbmWf_execSnapshotFreezeEnd {s} (h : HbmWf s) : HbmWf (nextOr s (execSnapshotFreezeEnd s)) := hbmWf_ite (hbmWf_freezeEnd h) h

/-! ### Operations of Machine/Dispatch -/

theorem hbmWf_exec (i) {s} (h : HbmWf s) : HbmWf (nextOr s (exec i s)) := by
  cases i with
  | powerOn => exact hbmWf_execPowerOn h
  | railsWaitEnd => exact hbmWf_execRailsWaitEnd h
  | prechargeSettled => exact hbmWf_execPrechargeSettled h
  | resetNAssert => exact hbmWf_execResetNAssert h
  | resetNRelease => exact hbmWf_execResetNRelease h
  | sysResetModule => exact hbmWf_execSysResetModule h
  | sysResetWarm => exact hbmWf_execSysResetWarm h
  | responseReceived _ => exact hbmWf_execResponseReceived _ h
  | endDrainDone _ => exact hbmWf_execEndDrainDone _ h
  | tileHalted _ => exact hbmWf_execTileHalted _ h
  | tileClearDone _ => exact hbmWf_execTileClearDone _ h
  | doorbellCqConsumed _ _ => exact hbmWf_execDoorbellCqConsumed _ _ h
  | commandComplete _ => exact hbmWf_execCommandComplete _ h
  | completionRetry _ => exact hbmWf_execCompletionRetry _ h
  | ringTimeoutExpire _ => exact hbmWf_execRingTimeoutExpire _ h
  | snapshotFreezeEnd => exact hbmWf_execSnapshotFreezeEnd h
  | bindingActivate _ => exact hbmWf_execBindingActivate _ h
  | walkerCreditPoll _ _ _ => exact hbmWf_execWalkerCreditPoll _ _ _ h
  | pageSiftSelect _ _ _ => exact hbmWf_execPageSiftSelect _ _ _ h
  | walkerSlotDeliver _ _ _ => exact hbmWf_execWalkerSlotDeliver _ _ _ h
  | rdmaWriteReceived _ _ _ _ _ _ => exact hbmWf_execRdmaWriteReceived _ _ _ _ _ _ h
  | rdmaAtomicCas _ _ _ _ _ _ _ => exact hbmWf_execRdmaAtomicCas _ _ _ _ _ _ _ h
  | rdmaFetchAdd _ _ _ _ _ _ => exact hbmWf_execRdmaFetchAdd _ _ _ _ _ _ h
  | registerWrite _ _ => exact hbmWf_execRegisterWrite _ _ h
  | gleanerBlockVisit _ _ _ => exact hbmWf_execGleanerBlockVisit _ _ _ h
  | hbmAccess _ _ => exact hbmWf_execHbmAccess _ _ h
  | collAdmit _ => exact hbmWf_execCollAdmit _ h
  | collRsSegment => exact hbmWf_execCollRsSegment h
  | collAgSegment => exact hbmWf_execCollAgSegment h
  | collRowCount => exact hbmWf_execCollRowCount h
  | collGrant => exact hbmWf_execCollGrant h
  | collRowData => exact hbmWf_execCollRowData h
  | mcWriteReceived => exact hbmWf_execMcWriteReceived h
  | residueCheckResult _ _ _ _ => exact hbmWf_execResidueCheckResult _ _ _ _ h
  | revokeReceived => exact hbmWf_execRevokeReceived h
  | settleWindowExpire _ _ => exact hbmWf_execSettleWindowExpire _ _ h
  | hostOffWrite _ => exact hbmWf_execHostOffWrite _ h
  | thermalTrip _ => exact hbmWf_execThermalTrip _ h
  | coolantGraceExpire => exact hbmWf_execCoolantGraceExpire h
  | leakOffExpire => exact hbmWf_execLeakOffExpire h
  | railsOn => exact hbmWf_execRailsOn h
  | undervoltage => exact hbmWf_execUndervoltage h
  | overvoltage => exact hbmWf_execOvervoltage h
  | ctxResetRequest _ => exact hbmWf_execCtxResetRequest _ h
  | autoResetTimer _ => exact hbmWf_execAutoResetTimer _ h
  | engineWorkRemoved _ _ => exact hbmWf_execEngineWorkRemoved _ _ h
  | partitionResetRequest _ => exact hbmWf_execPartitionResetRequest _ h
  | ladderStepTimeout _ => exact hbmWf_execLadderStepTimeout _ h
  | standbyTakeoverDone _ _ => exact hbmWf_execStandbyTakeoverDone _ _ h
  | setRackOff _ _ => exact hbmWf_execSetRackOff _ _ h
  | ejectDrainEnd _ => exact hbmWf_execEjectDrainEnd _ h
  | powerLoss => exact hbmWf_execPowerLoss s
  | snapshotWriteDone => exact hbmWf_execSnapshotWriteDone h
  | configMemoryOpDone _ => exact hbmWf_execConfigMemoryOpDone _ h
  | _ =>
    unfold exec
    exact hbmWf_of_eq (by simp) h

/-! ### Operations of Machine/Tick -/

@[simp] theorem tickTime_hbm (s) : (tickTime s).hbm = s.hbm := by simp [tickTime]
@[simp] theorem tickTile_hbm (s e) : (tickTile s e).hbm = s.hbm := by simp [tickTile, bump_hbm]
@[simp] theorem tickWalker_hbm (s w) : (tickWalker s w).hbm = s.hbm := by simp [tickWalker, bump_hbm]
@[simp] theorem tickLink_hbm (s l) : (tickLink s l).hbm = s.hbm := by simp [tickLink, bump_hbm]
@[simp] theorem tickFence_hbm (s) : (tickFence s).hbm = s.hbm := by simp [tickFence, bump_hbm]
@[simp] theorem tickDies_hbm (s) : (tickDies s).hbm = s.hbm := by rfl
@[simp] theorem tickEase_hbm (s) : (tickEase s).hbm = s.hbm := by rfl
@[simp] theorem tickCount_hbm (s) : (tickCount s).hbm = s.hbm := by simp [tickCount]
theorem hbmWf_tickRings {s} (h : HbmWf s) : HbmWf (tickRings s) := hbmWf_foldl (fun _ e h => hbmWf_ringTick e.1 h) _ h
@[simp] theorem tickRouter_hbm (s) : (tickRouter s).hbm = s.hbm := by simp [tickRouter]

theorem hbmWf_tick {s} (h : HbmWf s) : HbmWf (tick s) :=
  hbmWf_ite (hbmWf_freezeLimit (hbmWf_of_eq (by simp) (hbmWf_tickRings (hbmWf_of_eq (tickTime_hbm s) h)))) h

theorem hbmWf_step {s t : State} (h : HbmWf s) (e : step s = .next t) : HbmWf t := by
  unfold step at e
  split at e
  · cases e
    exact hbmWf_tick h
  · next c rest _ =>
    have k := hbmWf_exec c (s := { s with pending := rest }) h
    rwa [e, nextOr_next] at k

/-- Settles O31: the front command's meaning, or the tick on an empty queue, keeps the form. -/
theorem hbmFormKept : Obligations.HbmFormKept := fun _ _ => hbmWf_step

end Sys2Proof.Machine
end
